-- ==== Sys2Proof/Word.lean ====
section
/-! DEFINITION. The word types of the part: a byte, a 32-bit register word (R18), a 64-bit token payload or scratch word (R37, R49). -/

namespace Sys2Proof

/-- One byte (R10). -/
abbrev Byte := BitVec 8

/-- One register word, or one binary32 code (R18, R81). -/
abbrev W32 := BitVec 32

/-- One scratch word, general register or token payload (R37, R49). -/
abbrev W64 := BitVec 64

end Sys2Proof
end

