-- ==== Sys2Proof/Syntax.lean ====
section
/-! DEFINITION. The commands of the block, one constructor a row of the opcode table, with the operands each row carries. -/

namespace Sys2Proof

/-- A host command packet as it reaches the command engine (R334), with the link and the path it came by (R304, R309, R335). -/
structure Packet where
  /-- SRC that the command carries on arrival (R304, R309). -/
  src : BitVec 16 := 0xFFFF
  /-- ORIGIN_PORT that the command carries on arrival (R304, R309). -/
  origin : BitVec 8 := 32
  /-- The F-port of this device on which it arrived, 0-39; 255 for the management UART (R309, R400). -/
  inPort : Nat := 32
  /-- SOURCE_ROUTED flag of the fabric packet (R304). -/
  sourceRouted : Bool := false
  /-- The torus hops of its route, in order (R307, R309). -/
  route : List Nat := []
  /-- Bits 11:0 of TAG_SESSION. -/
  tag : BitVec 12 := 0
  /-- Bits 14:12 of TAG_SESSION. -/
  session : BitVec 3 := 0
  /-- Bit 15 of TAG_SESSION, zero in a good header. -/
  bit15 : Bool := false
  /-- FLAGS: bit 0 FENCE, bit 1 PROGRESS. -/
  flags : BitVec 8 := 0
  /-- Header byte 5, zero in a good header. -/
  reserved5 : BitVec 8 := 0
  /-- Header bytes 15:8, zero in a good header. -/
  reserved8 : BitVec 64 := 0
  /-- PAYLOAD_LENGTH. -/
  payloadLength : BitVec 16 := 0
  /-- The 48 parameter bytes, byte k in bits 8k + 7 to 8k. -/
  params : BitVec 384 := 0
  /-- The payload bytes. -/
  payload : List Byte := []
  deriving DecidableEq, Repr

/-- A 64b/66b block as a stream lane receives it: its sync header, and its 8 bytes, scrambled, with byte k in wire order in bits
8k + 7 to 8k, each byte's bit 0 first on the lane (R238, R239). -/
structure StreamBlock where
  sync : BitVec 2
  data : W64
  deriving DecidableEq, Repr

/-- A step of a graft's copy (R377): the bay, and how many columns the step copies. -/
structure GraftStep where
  bay : Nat
  columns : Nat
  deriving DecidableEq, Repr

/-- What a boot step finds on the part (R383, R386, R392). -/
structure BootReport where
  /-- Start-up state of the PUF (R392). -/
  puf : List Byte := []
  /-- Physical columns that fail self-test, the columns of tiles whose scratch fails among them. -/
  columns : List Nat := []
  /-- Physical bays whose bypass stage fails. -/
  bypass : List Nat := []
  /-- Engines whose node memory fails. -/
  nodes : List Nat := []
  /-- Engines whose ternary memory or predicate table fails. -/
  ternary : List Nat := []
  /-- Spill-queue SRAM, the control processor or the timebase fails. -/
  fatal : Bool := false
  deriving DecidableEq, Repr

/-- One scan of the boundary register under EXTEST (R425): the levels of the balls by cell, and what is shifted in. -/
structure BoundaryScan where
  pins : BitVec 42
  load : BitVec 42
  deriving DecidableEq, Repr

/-- The 74 opcodes of R432, named as their commands. -/
inductive Op where
  | nop | identify | getStatus | openSession | closeSession | resetDomain | readCsr | writeCsr
  | selectProfile | readProfile | writeProfile | loadImage | unloadContext | start | stop | abort
  | step | drain | memRead | memWrite | memFill | scrub | sqConfig | sqWrite
  | sqRead | sqMark | sqRewind | sqRelease | sqFlush | sqReset | arbLoad | arbRead
  | arbVerify | arbTcamLoad | arbEnsemble | arbMode | arbEval | streamConfig | trigArm | trigDisarm
  | trigRearm | macConfig | macFilter | gateListLoad | extractConfig | templateLoad | replyConfig | countersRead
  | fportPower | laneControl | fabricConfig | reduceGroup | timeRead | timeSet | timeStep | timeAdjFreq
  | timeInvalidate | timeSource | ptpPortConfig | ppsConfig | powerStop | marginReplan | healthTest | columnFail
  | attest | getCert | fwUpdate | fwRecover | safeModelStore | ringStart | ringStop | ringRead
  | ringSealRead | foldRead
  deriving DecidableEq, Repr

/-- The commands of the block: one constructor a row of the opcode table. -/
inductive Instr where
  /-- NOP (R351). Host command that does nothing and replies OK. -/
  | nop (p : Packet)
  /-- IDENTIFY (R352). Host command returning the 64-byte identity payload. -/
  | identify (p : Packet)
  /-- GET_STATUS (R353). Host command returning device and session status in RESULT. -/
  | getStatus (p : Packet)
  /-- OPEN_SESSION (R340). Opens, or takes over, a session on the command's link with a tag reserve and idle limit. -/
  | openSession (p : Packet)
  /-- CLOSE_SESSION (R341). Aborts the session's operations, releases its claimed resources, discards its events and closes it. -/
  | closeSession (p : Packet)
  /-- RESET_DOMAIN (R35). Resets one named domain after its refusal checks, ending the operations that use it. -/
  | resetDomain (p : Packet)
  /-- READ_CSR (R354). Reads 1-1,024 CSR words sampled in one CCLK cycle, clearing any RC fields read. -/
  | readCsr (p : Packet)
  /-- WRITE_CSR (R354). Writes 1-1,024 CSR words in one CCLK cycle under the access codes; the row for registers with no row of their own. -/
  | writeCsr (p : Packet)
  /-- SELECT_PROFILE (R390). Loads another valid profile slot, moving clocks and VCORE and resetting changed ports. -/
  | selectProfile (p : Packet)
  /-- READ_PROFILE (R391). Returns the stored 1,024 bytes of a profile slot and its WRITE_COUNT. -/
  | readProfile (p : Packet)
  /-- WRITE_PROFILE (R389). Writes a well-formed profile into a slot, checking the admin signature of a locked slot. -/
  | writeProfile (p : Packet)
  /-- LOAD_IMAGE (R356). Checks an image held in vault memory and loads it into its context. -/
  | loadImage (p : Packet)
  /-- UNLOAD_CONTEXT (R67). Empties a context, discarding its tokens when it is FAULTED. -/
  | unloadContext (p : Packet)
  /-- START (R357). Starts or joins named contexts of a partition, resetting their program counters. -/
  | start (p : Packet)
  /-- STOP (R358). Stops issue in a partition and parks the tokens of its contexts. -/
  | stop (p : Packet)
  /-- ABORT (R348). Aborts a tagged operation or a whole partition, ordered against the target's completion. -/
  | abort (p : Packet)
  /-- STEP (R359). Starts a partition for exactly CYCLES issue cycles. -/
  | step (p : Packet)
  /-- DRAIN (R65). Stops a context's inputs and lets it run until its tokens are gone or the limit is reached. -/
  | drain (p : Packet)
  /-- MEM_READ (R360). Returns a valid vault memory range in replies of 4,096 bytes. -/
  | memRead (p : Packet)
  /-- MEM_WRITE (R360). Writes the payload to a vault range without poison. -/
  | memWrite (p : Packet)
  /-- MEM_FILL (R360). Writes a 32-byte pattern to every word of a vault range. -/
  | memFill (p : Packet)
  /-- SCRUB (R176). Scrubs a named vault range as a stepped operation. -/
  | scrub (p : Packet)
  /-- SQ_CONFIG (R191). Configures a spill queue's writer, reader, mode and region and claims its ownership. -/
  | sqConfig (p : Packet)
  /-- SQ_WRITE (R361). Offers whole cells to a spill queue as the host writer. -/
  | sqWrite (p : Packet)
  /-- SQ_READ (R192). Returns readable words from a host-read spill queue. -/
  | sqRead (p : Packet)
  /-- SQ_MARK (R185). Saves a spill queue's read point as its mark. -/
  | sqMark (p : Packet)
  /-- SQ_REWIND (R185). Returns a spill queue's read point to its mark. -/
  | sqRewind (p : Packet)
  /-- SQ_RELEASE (R185). Releases up to COUNT whole read cells of a spill queue. -/
  | sqRelease (p : Packet)
  /-- SQ_FLUSH (R185). Zero-fills and commits a partly assembled cell of a spill queue. -/
  | sqFlush (p : Packet)
  /-- SQ_RESET (R185). Resets a spill queue's pointers and flags, optionally releasing its ownership. -/
  | sqReset (p : Packet)
  /-- ARB_LOAD (R235). Writes up to 512 node words to an engine and clears VERIFIED. -/
  | arbLoad (p : Packet)
  /-- ARB_READ (R235). Returns node words of an engine after correction. -/
  | arbRead (p : Packet)
  /-- ARB_VERIFY (R236). Walks an engine's reachable nodes and sets VERIFIED when they are well formed. -/
  | arbVerify (p : Packet)
  /-- ARB_TCAM_LOAD (R235). Loads predicates or entries into an engine's ternary memory. -/
  | arbTcamLoad (p : Packet)
  /-- ARB_ENSEMBLE (R235). Configures, replaces or releases an ensemble of engines. -/
  | arbEnsemble (p : Packet)
  /-- ARB_MODE (R234). Sets an engine's mode from the next sample that starts. -/
  | arbMode (p : Packet)
  /-- ARB_EVAL (R235). Gathers host features and evaluates a sample, returning its result token. -/
  | arbEval (p : Packet)
  /-- STREAM_CONFIG (R434). Configures or disables a stream ingress endpoint. -/
  | streamConfig (p : Packet)
  /-- TRIG_ARM (R258). Latches and arms the named trigger channels, outputs and capture units. -/
  | trigArm (p : Packet)
  /-- TRIG_DISARM (R258). Disarms the named trigger items. -/
  | trigDisarm (p : Packet)
  /-- TRIG_REARM (R257). Returns FROZEN capture units to ARMED. -/
  | trigRearm (p : Packet)
  /-- MAC_CONFIG (R284). Configures a MAC's enable, filter mode, frame limit and queues. -/
  | macConfig (p : Packet)
  /-- MAC_FILTER (R264). Writes one entry of a MAC's address filter. -/
  | macFilter (p : Packet)
  /-- GATE_LIST_LOAD (R272). Makes a gate list pending for a MAC. -/
  | gateListLoad (p : Packet)
  /-- EXTRACT_CONFIG (R275). Configures a MAC's field extractor and its ensemble. -/
  | extractConfig (p : Packet)
  /-- TEMPLATE_LOAD (R279). Loads a reply template into an E-port's template memory. -/
  | templateLoad (p : Packet)
  /-- REPLY_CONFIG (R280). Sets a MAC's reply mode, templates and score thresholds. -/
  | replyConfig (p : Packet)
  /-- COUNTERS_READ (R267). Returns all 29 counters of a MAC sampled in one cycle. -/
  | countersRead (p : Packet)
  /-- FPORT_POWER (R297). Moves an F-port toward DEEP or ACTIVE. -/
  | fportPower (p : Packet)
  /-- LANE_CONTROL (R314). Retrains a lane or sets or clears its FAILED state. -/
  | laneControl (p : Packet)
  /-- FABRIC_CONFIG (R305). Sets the device's coordinate, torus sizes and grove membership. -/
  | fabricConfig (p : Packet)
  /-- REDUCE_GROUP (R311). Enables or disables a reduction channel with its box. -/
  | reduceGroup (p : Packet)
  /-- TIME_READ (R333). Returns SEC, NS and FRAC at the apply tick. -/
  | timeRead (p : Packet)
  /-- TIME_SET (R324). Sets the time at the apply tick, subject to validity and the jump limit. -/
  | timeSet (p : Packet)
  /-- TIME_STEP (R324). Steps the time by a signed offset, subject to the jump limit. -/
  | timeStep (p : Packet)
  /-- TIME_ADJ_FREQ (R318). Writes TIME_INC from the apply tick. -/
  | timeAdjFreq (p : Packet)
  /-- TIME_INVALIDATE (R324). Clears TIME_VALID and leaves the time running. -/
  | timeInvalidate (p : Packet)
  /-- TIME_SOURCE (R319). Selects REFCLK or TREF as the timebase reference. -/
  | timeSource (p : Packet)
  /-- PTP_PORT_CONFIG (R333). Sets a MAC's transparent-clock enable and path asymmetry. -/
  | ptpPortConfig (p : Packet)
  /-- PPS_CONFIG (R321). Enables PPS_OUT and sets its pulse width. -/
  | ppsConfig (p : Packet)
  /-- POWER_STOP (R369). Performs an emergency stop with cause COMMAND. -/
  | powerStop (p : Packet)
  /-- MARGIN_REPLAN (R374). Runs a margin re-plan, raising VCORE in 5 mV steps. -/
  | marginReplan (p : Packet)
  /-- HEALTH_TEST (R379). Tests the columns and bypass stages of named bays. -/
  | healthTest (p : Packet)
  /-- COLUMN_FAIL (R376). Declares a physical column failed. -/
  | columnFail (p : Packet)
  /-- ATTEST (R395). Returns an attestation report signed with the identity key. -/
  | attest (p : Packet)
  /-- GET_CERT (R394). Returns the device certificate. -/
  | getCert (p : Packet)
  /-- FW_UPDATE (R397). Programs a verified firmware image from vault memory into flash. -/
  | fwUpdate (p : Packet)
  /-- FW_RECOVER (R399). Receives a firmware image piece by piece in recovery. -/
  | fwRecover (p : Packet)
  /-- SAFE_MODEL_STORE (R401). Stores or erases an engine's safe model in flash. -/
  | safeModelStore (p : Packet)
  /-- RING_START (R215). Activates the ring log for a partition and empties its tables and buffers. -/
  | ringStart (p : Packet)
  /-- RING_STOP (R214). Deactivates the ring log and discards the open tables. -/
  | ringStop (p : Packet)
  /-- RING_READ (R214). Returns held ring records from an index onward. -/
  | ringRead (p : Packet)
  /-- RING_SEAL_READ (R214). Returns held seals from an index onward. -/
  | ringSealRead (p : Packet)
  /-- FOLD_READ (R214). Returns entries of the held fold tables. -/
  | foldRead (p : Packet)
  /-- CMD_MALFORMED (R335). A command packet shorter than its header or stated length is discarded without a reply. -/
  | cmdMalformed (body : List Byte)
  /-- UNKNOWN_OPCODE (R335). A command packet with an unlisted opcode is refused with BAD_OPCODE. -/
  | unknownOpcode (opcode : BitVec 16) (p : Packet)
  /-- UART_FRAME (R400). A framed packet arrives on the management UART and is checked by its CRC. -/
  | uartFrame (bytes : List Byte)
  /-- TERMINAL_REPLY (R337). A command's terminal reply leaves the command engine and its tag is freed. -/
  | terminalReply (id : Nat)
  /-- LONG_OPERATION_STEP (R345). The next step of a stepped long operation runs, ending in a progress report or completion. -/
  | longOperationStep (id : Nat) (found : List Nat)
  /-- CANOPY_COMMAND_APPLY (R33). A canopy command takes effect on every tile of its partition after the synchroniser handshake and any fill ramp. -/
  | canopyCommandApply (id : Nat)
  /-- FAULT_STATUS_CLEAR (R165). Writing CLEAR empties a partition's fault log and zeroes LOST_COUNT and SEQUENCE. -/
  | faultStatusClear (part : Nat)
  /-- POISON_SEEN_CLEAR (R20). Writing 1 to a spill queue's POISON_SEEN clears it. -/
  | poisonSeenClear (q : Nat)
  /-- CTRL_REJECTED_CLEAR (R20). Writing 1 to a spill queue's CTRL_REJECTED clears it. -/
  | ctrlRejectedClear (q : Nat)
  /-- OVERRUN_CLEAR (R184). Writing 1 to a spill queue's OVERRUN clears it. -/
  | overrunClear (q : Nat)
  /-- REFUSED_CLEAR (R20). Writing 1 to TIME_STATUS REFUSED clears it. -/
  | refusedClear
  /-- SAMPLER_ENABLE (R75). Writing ENABLE of SAMPLER_CTRL starts sampling from the next multiple of PERIOD. -/
  | samplerEnable (part : Nat) (on : Bool)
  /-- SCRUB_ENABLE (R176). Writing ENABLE of SCRUB_CTRL enables or disables background scrub. -/
  | scrubEnable (on : Bool)
  /-- PPS_CFG_ENABLE (R321). Writing ENABLE of PPS_CFG enables or disables PPS_OUT. -/
  | ppsCfgEnable (on : Bool)
  /-- LANE_SLIP_GO (R296). Firmware writing GO starts an alignment test at OFFSET on a lane in SEARCH. -/
  | laneSlipGo (port : Nat) (lane : Nat) (offset : Nat)
  /-- LANE_SLIP_TEST_DONE (R296). An alignment test ends, setting DONE and MATCHES. -/
  | laneSlipTestDone (port : Nat) (lane : Nat) (bits : BitVec 2312)
  /-- NOP_INSTR (R119). Tile instruction that occupies its issue cycle. -/
  | nopInstr (col : Nat) (row : Nat)
  /-- SWITCH (R44). Tile instruction that changes the active context. -/
  | switch (col : Nat) (row : Nat)
  /-- WAIT (R122). Tile instruction that holds issue until its condition holds. -/
  | wait (col : Nat) (row : Nat)
  /-- WAIT_CONDITION_MET (R122). A waiting context's condition holds and its next instruction may issue. -/
  | waitConditionMet (col : Nat) (row : Nat)
  /-- WAIT_BOUND_EXPIRY (R48). A WAIT of a fixed-latency class image passes its bound and raises F09. -/
  | waitBoundExpiry (col : Nat) (row : Nat)
  /-- LOOP (R121). Tile instruction that decrements a counter and branches back. -/
  | loop (col : Nat) (row : Nat)
  /-- FOLD_CUT (R123). Tile instruction that enters a fold-layer marker in the vault decoupling queue. -/
  | foldCut (col : Nat) (row : Nat)
  /-- SEQSET (R134). Tile instruction that sets the block sequence counters. -/
  | seqset (col : Nat) (row : Nat)
  /-- VADD (R125). Vector add of FP32 or BF16 lanes. -/
  | vadd (col : Nat) (row : Nat)
  /-- VSUB (R125). Vector subtract of FP32 or BF16 lanes. -/
  | vsub (col : Nat) (row : Nat)
  /-- VMUL (R125). Vector multiply of FP32 or BF16 lanes. -/
  | vmul (col : Nat) (row : Nat)
  /-- VFMA (R124). Vector fused multiply-add. -/
  | vfma (col : Nat) (row : Nat)
  /-- VMIN (R125). Vector minimum. -/
  | vmin (col : Nat) (row : Nat)
  /-- VMAX (R125). Vector maximum. -/
  | vmax (col : Nat) (row : Nat)
  /-- VFN (R126). Applies a transcendental function to FP32 lanes. -/
  | vfn (col : Nat) (row : Nat)
  /-- VCVT (R127). Converts lanes between BF16, binary32 and int32. -/
  | vcvt (col : Nat) (row : Nat)
  /-- IADD (R128). 64-bit integer add. -/
  | iadd (col : Nat) (row : Nat)
  /-- ISUB (R128). 64-bit integer subtract. -/
  | isub (col : Nat) (row : Nat)
  /-- AND (R128). Bitwise AND. -/
  | and (col : Nat) (row : Nat)
  /-- OR (R128). Bitwise OR. -/
  | or (col : Nat) (row : Nat)
  /-- XOR (R128). Bitwise XOR. -/
  | xor (col : Nat) (row : Nat)
  /-- SHL (R128). Logical shift left. -/
  | shl (col : Nat) (row : Nat)
  /-- SHR (R128). Logical shift right. -/
  | shr (col : Nat) (row : Nat)
  /-- SAR (R128). Arithmetic shift right. -/
  | sar (col : Nat) (row : Nat)
  /-- FCMP (R129). Floating compare into a predicate bit. -/
  | fcmp (col : Nat) (row : Nat)
  /-- ICMP (R129). Integer compare into a predicate bit. -/
  | icmp (col : Nat) (row : Nat)
  /-- SELECT (R130). Writes A or B according to a predicate bit. -/
  | select (col : Nat) (row : Nat)
  /-- MOV (R131). Moves a value with its poison bit. -/
  | mov (col : Nat) (row : Nat)
  /-- SEND (R131). Places a token on the masked output links. -/
  | send (col : Nat) (row : Nat)
  /-- LDV (R132). Enters a vault load request for four scratch words. -/
  | ldv (col : Nat) (row : Nat)
  /-- STV (R132). Enters a vault store request and reads its four scratch words next cycle. -/
  | stv (col : Nat) (row : Nat)
  /-- DOT (R135). Starts a narrow dot product of 1-4 blocks. -/
  | dot (col : Nat) (row : Nat)
  /-- DOT_BLOCK (R136). A DOT block's first cycle arrives: tags are checked and its words are read or popped and accumulated. -/
  | dotBlock (col : Nat) (row : Nat)
  /-- MXCVT (R137). Converts 32 binary32 values to one microscaled block. -/
  | mxcvt (col : Nat) (row : Nat)
  /-- MXEXP (R138). Decodes two microscaled elements to FP32. -/
  | mxexp (col : Nat) (row : Nat)
  /-- LATE_RESULT (R145). A late result reaches its contract cycle, is written and clears its pending bit. -/
  | lateResult (col : Nat) (row : Nat)
  /-- TOKEN_ARRIVAL (R57). A token arrives on a tile input link and is queued, passed through, or dropped. -/
  | tokenArrival (col : Nat) (row : Nat) (dir : Nat) (parityOk : Bool)
  /-- PASS_TOKEN_DEPART (R55). A queued pass-through token leaves once every selecting output can take it. -/
  | passTokenDepart (col : Nat) (row : Nat) (dir : Nat) (ctx : Nat)
  /-- CREDIT_RETURN (R56). A freed credit reaches the sender one cycle later. -/
  | creditReturn (col : Nat) (row : Nat) (dir : Nat)
  /-- VAULT_SERVICE (R150). A tile vault request reaches its service cycle and is presented to the vault. -/
  | vaultService (col : Nat) (row : Nat)
  /-- VAULT_LOAD_RETURN (R150). A served load's data is written to its four scratch words and its entry frees. -/
  | vaultLoadReturn (col : Nat) (row : Nat)
  /-- REFRESH (R173). A DRAM row refresh is served as auxiliary traffic. -/
  | refresh (vault : Nat) (bank : Nat) (die : Nat) (row : Nat)
  /-- SCRUB_VISIT (R176). The background scrub engine reads a word and rewrites it if correctable. -/
  | scrubVisit
  /-- ROW_REPAIR_COPY (R177). Firmware copies one word of a failing row to a spare row. -/
  | rowRepairCopy
  /-- SQ_CELL_TO_REGION (R188). A spill-queue cell moves from the tail buffer to its region position. -/
  | sqCellToRegion (q : Nat)
  /-- SQ_CELL_TO_HEAD (R188). A spill-queue cell is filled from the region or tail into the head buffer. -/
  | sqCellToHead (q : Nat)
  /-- SQ_DATA_TOKEN (R182). A data token at a spill-queue write endpoint is assembled, committing a cell at its eighth word. -/
  | sqDataToken (q : Nat)
  /-- SQ_CONTROL_WORD (R183). A control word from an image performs MARK, REWIND, RELEASE or FLUSH or is rejected. -/
  | sqControlWord (q : Nat)
  /-- SQ_READ_DELIVERY (R185). A spill-queue read endpoint delivers the next word of the head cell. -/
  | sqReadDelivery (q : Nat) (parityOk : Bool)
  /-- SAMPLER_SNAPSHOT (R75). At a multiple of PERIOD the sampler takes a snapshot or skips it. -/
  | samplerSnapshot (part : Nat)
  /-- DEADLOCK_DETECT (R79). After 4,096 stalled cycles a compatibility partition spills its full queues. -/
  | deadlockDetect (part : Nat)
  /-- DEADLOCK_REINJECT (R79). Spilled tokens are re-injected into their queues as space frees. -/
  | deadlockReinject (col : Nat) (row : Nat) (dir : Nat)
  /-- DRAIN_EMPTY (R65). A draining context has no tokens present and becomes DRAINED. -/
  | drainEmpty (part : Nat) (ctx : Nat)
  /-- DRAIN_LIMIT (R65). A DRAIN's cycle limit expires with tokens present. -/
  | drainLimit (part : Nat) (ctx : Nat)
  /-- STEP_END (R359). A STEP's cycle count expires and the partition stops. -/
  | stepEnd (part : Nat)
  /-- PARTITION_QUIESCENT (R163). A stopped or faulted partition becomes quiescent, completing the reply or event that waited for it. -/
  | partitionQuiescent (part : Nat)
  /-- REDUCE_BLOCK_ENTRY (R201). A block's descriptor and data tokens complete at a reduction input and pass 1 begins. -/
  | reduceBlockEntry (channel : Nat)
  /-- REDUCE_PASS1_UP (R313). A pass-1 packet toward the root arrives and is combined with the member's code. -/
  | reducePass1Up (channel : Nat)
  /-- REDUCE_PASS2_UP (R313). A pass-2 packet toward the root arrives and its sums are added. -/
  | reducePass2Up (channel : Nat)
  /-- REDUCE_PASS1_DOWN (R313). The final pass-1 code arrives from the root and is forwarded to children. -/
  | reducePass1Down (channel : Nat)
  /-- REDUCE_PASS2_DOWN (R313). The final sums arrive from the root and the block results are delivered. -/
  | reducePass2Down (channel : Nat)
  /-- RING_RECORD_WRITE (R211). After step completion the ring record is written and sealed when due. -/
  | ringRecordWrite
  /-- ARB_SAMPLE_TOKEN (R219). A sample token arrives at an ensemble's input endpoint. -/
  | arbSampleToken (first : Nat)
  /-- ARB_SAMPLE_START (R226). The oldest complete sample starts in the ensemble pipeline. -/
  | arbSampleStart (first : Nat)
  /-- ARB_RESULT (R227). A sample's result is ready and leaves to its endpoint, reply engine or command. -/
  | arbResult (first : Nat)
  /-- STREAM_FRAME_END (R243). A raw stream frame's END block arrives and the frame is accepted or dropped: the blocks
  from its START on, the header and the words after it, to its END. -/
  | streamFrameEnd (lane : Nat) (start : StreamBlock) (header : StreamBlock) (words : List StreamBlock) (finish : StreamBlock) (since : Nat)
  /-- STREAM_DELIVERY (R245). An ingress endpoint delivers one sample frame per cycle. -/
  | streamDelivery (endpoint : Nat)
  /-- TRIG_SCORE_TOKEN (R252). A score token at a channel endpoint updates the channel state. -/
  | trigScoreToken (channel : Nat)
  /-- TRIG_IN_CHANGE (R251). A TRIG_IN pin change reaches its PIN channels. -/
  | trigInChange (pin : Nat) (level : Bool) (since : Nat)
  /-- TRIG_OUTPUT_DECIDE (R253). An armed output evaluates its masks and may decide. -/
  | trigOutputDecide (out : Nat)
  /-- TRIG_OUT_PULSE_END (R254). A TRIG_OUT pulse's WIDTH expires. -/
  | trigOutPulseEnd (out : Nat)
  /-- CAPTURE_FREEZE (R257). A capture unit's post-trigger count expires and its queue freezes. -/
  | captureFreeze (out : Nat)
  /-- MAC_LINK_CHANGE (R261). A MAC's link comes up or goes down. -/
  | macLinkChange (mac : Nat) (up : Bool)
  /-- MAC_RX_VERDICT (R262). A received frame's verdict is known and it is committed or dropped. -/
  | macRxVerdict (mac : Nat) (bytes : List Byte) (codeError : Bool) (since : Nat)
  /-- EXTRACT_SAMPLE_COMPLETE (R278). All fields of a frame complete and the sample is written or the frame takes NO_DECISION. -/
  | extractSampleComplete (mac : Nat) (bytes : List Byte) (ended : Bool) (since : Nat)
  /-- REPLY_READY (R280). A selected reply is patched and enters the pending list. -/
  | replyReady (mac : Nat)
  /-- REPLY_START (R281). A pending reply starts under gates and cut mode. -/
  | replyStart (mac : Nat)
  /-- REPLY_FCS_HANDOVER (R282). A reply's FCS is handed over, valid or stomped. -/
  | replyFcsHandover (mac : Nat)
  /-- TX_ITEM_READY (R270). A transmit item's cells are all committed and it is checked and copied. -/
  | txItemReady (mac : Nat) (cls : Nat)
  /-- TX_FRAME_START (R274). At a frame boundary the MAC chooses and starts the next frame. -/
  | txFrameStart (mac : Nat)
  /-- GATE_LIST_TAKES_FORCE (R272). A pending gate list takes force at a cycle start. -/
  | gateListTakesForce (mac : Nat)
  /-- GATE_ENTRY_ADVANCE (R272). A gate entry's interval expires and the next entry applies. -/
  | gateEntryAdvance (mac : Nat)
  /-- ALIGN_GROUP_RECEIVE (R291). A lane receives an ALIGN group and updates lane states and feedback: its 257 bits and,
  from a lane in RUN, the rest of the codeword that it starts (R288). Bit n is the n-th bit on the lane. -/
  | alignGroupReceive (port : Nat) (lane : Nat) (group : BitVec 257) (rest : Option (BitVec 5183))
  /-- TX_COUNTDOWN_END (R290). A lane's 16-group countdown ends and it enters RUN. -/
  | txCountdownEnd (port : Nat) (lane : Nat)
  /-- TX_DEAF_TIMEOUT (R290). No ALIGN group for 100 us returns a transmit lane to TRAIN. -/
  | txDeafTimeout (port : Nat)
  /-- FOM_WINDOW (R295). A 65,536-symbol window ends and the lane's figure of merit is updated. -/
  | fomWindow (port : Nat) (lane : Nat) (fom : Nat)
  /-- LANE_LOST (R291). A receive lane loses alignment and returns to ACQUIRE or is retired. -/
  | laneLost (port : Nat) (lane : Nat) (cause : Nat)
  /-- FLIT_RECEIVE (R300). A flit is received, checked and placed in SEQ order: the codeword in which its slot of the
  period begins, as the 20 groups and the 30 parity symbols received, and the next one where the slot reaches into it (R288). -/
  | flitReceive (port : Nat) (lane : Nat) (slot : Nat) (groups : BitVec 5140) (parity : BitVec 300) (next : Option (BitVec 5440))
  /-- NAK_REPEAT (R301). A missing flit's NAK is repeated after 2 us. -/
  | nakRepeat (port : Nat)
  /-- RETRY_TIMEOUT (R301). No ACK advance for 10 us replays from the oldest flit. -/
  | retryTimeout (port : Nat)
  /-- PORT_DOWN_FLUSH (R302). A direction DOWN for 10 ms flushes the port and advances EPOCH. -/
  | portDownFlush (port : Nat)
  /-- DEEP_DRAIN_DONE (R297). A port entering DEEP has drained and its lanes go to SLEEP. -/
  | deepDrainDone (port : Nat)
  /-- DEEP_DRAIN_TIMEOUT (R297). A DEEP entry's drain times out after 1 ms and the retry buffer is discarded. -/
  | deepDrainTimeout (port : Nat)
  /-- ACTIVITY_WAKE (R298). Modulated light for 0.2 us wakes a DEEP port. -/
  | activityWake (port : Nat)
  /-- FABRIC_PACKET (R308). A complete packet at the device is discarded, delivered or forwarded. -/
  | fabricPacket (port : Nat) (vc : Nat)
  /-- SECOND_CARRY (R321). NS carries into SEC and PPS_OUT is asserted. -/
  | secondCarry
  /-- PPS_OUT_END (R321). The PPS_OUT pulse width expires. -/
  | ppsOutEnd
  /-- PPS_IN_EDGE (R320). A PPS_IN rising edge captures the time. -/
  | ppsInEdge
  /-- REF_LOST (R319). The selected time reference is lost and the PLL holds. -/
  | refLost
  /-- PLL_LOCK (R319). The PLL locks to its selected reference. -/
  | pllLock
  /-- GOVERNOR_SAMPLE (R366). Every 1 us the governor samples power and adjusts fill and throttle. -/
  | governorSample (rails : List (Nat × Nat)) (maxC : Nat)
  /-- EMERGENCY_STOP_END (R369). Every rail's current reaches idle and a non-thermal emergency stop ends. -/
  | emergencyStopEnd
  /-- VCORE_WARNING (R371). VCORE falls below warning and a canopy-wide pause begins. -/
  | vcoreWarning (mv : Nat)
  /-- PAUSE_END (R371). VCORE stays above recovery for 2 us and the canopy resumes. -/
  | pauseEnd (mv : Nat)
  /-- SUPPLY_RESET (R371). A rail below its reset level for 50 ns resets every domain. -/
  | supplyReset (rail : Nat) (mv : Nat)
  /-- SUPPLY_RESET_HOLD_END (R371). Every rail has stayed above reset for 1 ms and boot may begin. -/
  | supplyResetHoldEnd
  /-- THERMAL_TRIP (R372). A junction reaches 115 C, asserting THERM_TRIP_N and stopping the device. -/
  | thermalTrip (maxC : Nat)
  /-- AGEING_MEASURE (R373). The once-per-second ageing measurement updates monitors and warnings. -/
  | ageingMeasure (periods : List Nat)
  /-- AUTO_REPLAN (R374). REPLAN_HOURS of uptime expire and a margin re-plan runs. -/
  | autoReplan
  /-- AVS_ACK (R426). The regulator acknowledges a target write and SETPOINT_MV changes. -/
  | avsAck
  /-- AVS_RETRY (R426). An unacknowledged target write is repeated after 10 us. -/
  | avsRetry
  /-- GRAFT_APPLY (R377). A pending graft is applied once the bay's contexts are all EMPTY. -/
  | graftApply (copy : GraftStep)
  /-- BAY_RETIRE (R378). A pending bay retirement is applied and partitions fall back. -/
  | bayRetire (bay : Nat)
  /-- RESET_N_ASSERT (R417). A recognised RESET_N assertion ramps VCORE current to idle. -/
  | resetNAssert
  /-- RESET_TAKES_EFFECT (R417). After the ramp every domain resets. -/
  | resetTakesEffect
  /-- RESET_N_RELEASE (R417). RESET_N rises, PROFILE_SEL and PMB_ADDR are sampled and boot begins. -/
  | resetNRelease (sel : BitVec 2) (addr : BitVec 3) (pwrGood : Bool)
  /-- PWR_GOOD_LOW (R416). PWR_GOOD low resets the device at once. -/
  | pwrGoodLow
  /-- BOOT_STEP (R383). A boot step completes and the next begins, or boot enters recovery. -/
  | bootStep (report : BootReport)
  /-- BOOT_READY (R383). Self-test ends, pending grafts are applied and the device becomes ready. -/
  | bootReady
  /-- PAGE (R427). PMBus command reading or writing the page. -/
  | page (write : Option Byte) (pecOk : Bool)
  /-- CLEAR_FAULTS (R428). PMBus command clearing STATUS_WORD. -/
  | clearFaults (pecOk : Bool)
  /-- VOUT_MODE (R427). PMBus read of the output voltage format. -/
  | voutMode
  /-- STATUS_WORD (R428). PMBus read of the latched status bits. -/
  | statusWord
  /-- READ_VOUT (R427). PMBus read of the paged rail's voltage. -/
  | readVout
  /-- READ_IOUT (R427). PMBus read of the paged rail's current. -/
  | readIout
  /-- READ_TEMPERATURE_1 (R427). PMBus read of the hottest junction temperature. -/
  | readTemperature1
  /-- READ_POUT (R427). PMBus read of rail power or P_AVG. -/
  | readPout
  /-- PMBUS_REVISION (R427). PMBus read of the revision byte. -/
  | pmbusRevision
  /-- IDCODE (R425). JTAG instruction selecting the identification register. -/
  | idcode
  /-- SAMPLE_PRELOAD (R425). JTAG instruction sampling or preloading the boundary register. -/
  | samplePreload (pins : BitVec 42) (preload : BitVec 42)
  /-- EXTEST (R425). JTAG instruction driving the boundary register while in reset. -/
  | extest (scan : BoundaryScan)
  /-- BYPASS (R425). JTAG instruction selecting the bypass register. -/
  | bypass (code : Byte)
  /-- STREAM_LANE_BLOCK_LOCK (R238). A raw stream lane's receiver gains or loses Clause 49 block lock by the sync
  headers of the blocks that arrive between frames, so that its frames begin or cease to be received. -/
  | streamLaneBlockLock (lane : Nat) (headers : List (BitVec 2))
  /-- SNAPSHOT_DRAIN (R76). The sampler's own drain path commits the next cell of a taken snapshot to its spill queue, and the drain finishes after the last cell. -/
  | snapshotDrain (part : Nat)
  /-- TEST_LOGIC_RESET (R425). A reset of the JTAG test logic, by TRST_N or the TAP, selects IDCODE. -/
  | testLogicReset
  /-- PMBUS_OTHER_COMMAND (R427). A PMBus command outside the served set, or a write other than to PAGE or CLEAR_FAULTS, is not acknowledged and sets CML. -/
  | pmbusOtherCommand (code : Byte) (write : Bool)
  deriving DecidableEq, Repr

end Sys2Proof
end

