-- ==== Sys2Proof/Decode.lean ====
section
/-! DEFINITION. Commands that a word of the opcode table spells. -/

namespace Sys2Proof

/-- No row of the table gives bits: a command is an event with operands, and no word spells one. -/
def decodeTableWord (_nbits _w : Nat) : Option Instr := none

end Sys2Proof
end

