-- ==== Sys2Proof/Machine/Bits.lean ====
section
/-! DEFINITION. Bit fields, byte orders, saturating counts, and the sparse table that holds every array of the part. -/

namespace Sys2Proof.Machine

open Sys2Proof

/-- Bits `lo + w - 1 : lo` of a word, the field notation of R9. -/
def fld {n : Nat} (x : BitVec n) (lo w : Nat) : BitVec w := x.extractLsb' lo w

/-- The same field as a number. -/
def fldN {n : Nat} (x : BitVec n) (lo w : Nat) : Nat := (x.extractLsb' lo w).toNat

/-- A flag as a number, for register words. -/
def b2n (b : Bool) : Nat := if b then 1 else 0

/-- A counter that saturates at 0xFFFF_FFFF (the RC counters of every register map). -/
def satAdd (c : W32) (n : Nat) : W32 :=
  if c.toNat + n < 2 ^ 32 then BitVec.ofNat 32 (c.toNat + n) else BitVec.ofNat 32 (2 ^ 32 - 1)

/-- A register word from its fields, each (low bit, width, value); reserved bits are zero (R21). -/
def regWord (fs : List (Nat × Nat × Nat)) : W32 :=
  BitVec.ofNat 32 (fs.foldl (fun a f => a + (f.2.2 % 2 ^ f.2.1) * 2 ^ f.1) 0)

/-- Little-endian value of a byte string (R10, R12). -/
def leNat : List Byte → Nat
  | [] => 0
  | b :: bs => b.toNat + 256 * leNat bs

/-- Big-endian value of a byte string (R11). -/
def beNat (bs : List Byte) : Nat := bs.foldl (fun a b => a * 256 + b.toNat) 0

/-- `k` bytes of a number, byte 0 first (R10). -/
def leBytes (k n : Nat) : List Byte :=
  match k with
  | 0 => []
  | k + 1 => BitVec.ofNat 8 n :: leBytes k (n / 256)

/-- `k` bytes of a number, most significant first (R11). -/
def beBytes (k n : Nat) : List Byte := (leBytes k n).reverse

/-- Bytes `off` to `off + len - 1`. -/
def slice {α : Type} (l : List α) (off len : Nat) : List α := (l.drop off).take len

/-- Byte `i`, zero beyond the end. -/
def byteAt (l : List Byte) (i : Nat) : Byte := l.getD i 0

/-- Little-endian field of `len` bytes at `off`. -/
def leAt (l : List Byte) (off len : Nat) : Nat := leNat (slice l off len)

/-- Big-endian field of `len` bytes at `off`. -/
def beAt (l : List Byte) (off len : Nat) : Nat := beNat (slice l off len)

/-- The list with byte `i` and the following replaced by `bs`, where the list is long enough. -/
def patchAt (l : List Byte) (i : Nat) (bs : List Byte) : List Byte :=
  (l.take i) ++ (bs.take (l.length - i)) ++ (l.drop (i + bs.length))

/-- A byte string cut or filled with zeros to `n` bytes. -/
def padTo (n : Nat) (l : List Byte) : List Byte := l.take n ++ List.replicate (n - l.length) 0

/-- All bytes zero. -/
def allZero (l : List Byte) : Bool := l.all (· == 0)

/-- Ceiling of a quotient. -/
def ceilDiv (a b : Nat) : Nat := (a + b - 1) / b

/-- Index of the highest set bit, 0 for 0 (msb of R94). -/
def msb (m : Nat) : Nat := Nat.log2 m

/-- Signed value of the low `w` bits of a number. -/
def signed (w n : Nat) : Int :=
  let m := n % 2 ^ w
  if 2 * m < 2 ^ w then (m : Int) else (m : Int) - (2 ^ w : Nat)

/-- Two's-complement code of an integer in `w` bits. -/
def unsigned (w : Nat) (i : Int) : Nat := (i % ((2 ^ w : Nat) : Int)).toNat

/-- A list cut into pieces of `k` elements (k > 0), with fuel for the recursion. -/
def chunks {α : Type} (k : Nat) : Nat → List α → List (List α)
  | 0, _ => []
  | fuel + 1, l => if l.isEmpty then [] else l.take k :: chunks k fuel (l.drop k)

/-- The eight little-endian bytes of a 64-bit word. -/
def w64Bytes (w : W64) : List Byte := leBytes 8 w.toNat

/-- The 64-bit words of a byte string, low bytes first. -/
def bytesW64 (l : List Byte) : List W64 := (chunks 8 (l.length + 1) l).map (fun c => BitVec.ofNat 64 (leNat c))

/-- The 32-bit words of a byte string, low bytes first. -/
def bytesW32 (l : List Byte) : List W32 := (chunks 4 (l.length + 1) l).map (fun c => BitVec.ofNat 32 (leNat c))

/-- Insertion keeping a list in ascending order of a key; equal keys keep their order. -/
def insertBy {α : Type} (le : α → α → Bool) (x : α) : List α → List α
  | [] => [x]
  | y :: ys => if le y x then y :: insertBy le x ys else x :: y :: ys

/-! ### Sparse tables

An array of the part is a list of (index, value) pairs with strictly rising indices and no entry equal to
the array's default value, so that equal arrays are equal data. -/

/-- A sparse array. -/
abbrev Table (α : Type) := List (Nat × α)

/-- The value at an index: the listed one, or the default (DESIGN CHOICE, log entry 5). -/
def Table.get {α : Type} (d : α) : Table α → Nat → α
  | [], _ => d
  | (k, v) :: t, i => if i == k then v else Table.get d t i

/-- The array without an entry for the index. -/
def Table.erase {α : Type} : Table α → Nat → Table α
  | [], _ => []
  | (k, v) :: t, i => if i == k then Table.erase t i else (k, v) :: Table.erase t i

/-- The array with an entry for the index, in its place. -/
def Table.put {α : Type} : Table α → Nat → α → Table α
  | [], i, x => [(i, x)]
  | (k, v) :: t, i, x =>
    if i < k then (i, x) :: (k, v) :: t
    else if i == k then (i, x) :: t
    else (k, v) :: Table.put t i x

/-- Writing an index; writing the default value removes the entry. -/
def Table.set {α : Type} [DecidableEq α] (d : α) (t : Table α) (i : Nat) (x : α) : Table α :=
  if x = d then Table.erase t i else Table.put t i x

/-- Changing one element. -/
def Table.upd {α : Type} [DecidableEq α] (d : α) (t : Table α) (i : Nat) (f : α → α) : Table α :=
  Table.set d t i (f (Table.get d t i))

/-- Changing every listed element (an unlisted element must be unchanged by `f`). -/
def Table.mapAll {α : Type} [DecidableEq α] (d : α) (f : Nat → α → α) (t : Table α) : Table α :=
  t.foldl (fun acc kv => Table.set d acc kv.1 (f kv.1 kv.2)) []

/-- The canonical form: strictly rising indices, no default value listed. -/
def Table.wf {α : Type} [DecidableEq α] (d : α) : Table α → Bool
  | [] => true
  | [(_, v)] => decide (v ≠ d)
  | (k, v) :: (k', v') :: t => decide (v ≠ d) && decide (k < k') && Table.wf d ((k', v') :: t)

end Sys2Proof.Machine
end

