-- ==== Sys2Proof/Machine/Arith.lean ====
section
/-! DEFINITION. Number formats and arithmetic (R81 to R107): binary32, bfloat16, the microscaled formats, the exact block sum, the keyed counter generator, and the transcendental functions. -/

namespace Sys2Proof.Machine

open Sys2Proof

/-! ### binary32 and bfloat16: 1 sign bit, 8 exponent bits, `k` fraction bits (k = 23 or 7) -/

/-- A decoded value: NaN, infinity, or (-1)^sign × m × 2^e. -/
structure Fp where
  nan : Bool := false
  inf : Bool := false
  sign : Bool := false
  m : Nat := 0
  e : Int := 0
  deriving DecidableEq, Repr

/-- The canonical NaN of R88. -/
def nanCode (k : Nat) : Nat := 255 * 2 ^ k + 2 ^ (k - 1)

/-- Infinity with a sign. -/
def infCode (k : Nat) (s : Bool) : Nat := b2n s * 2 ^ (k + 8) + 255 * 2 ^ k

/-- Zero with a sign. -/
def zeroCode (k : Nat) (s : Bool) : Nat := b2n s * 2 ^ (k + 8)

/-- The value of a code. -/
def fpDec (k : Nat) (c : Nat) : Fp :=
  let s := c / 2 ^ (k + 8) % 2 == 1
  let E := c / 2 ^ k % 256
  let M := c % 2 ^ k
  if E == 255 then { nan := M != 0, inf := M == 0, sign := s }
  else if E == 0 then { sign := s, m := M, e := -126 - (k : Int) }
  else { sign := s, m := 2 ^ k + M, e := (E : Int) - 127 - (k : Int) }

/-- IEEE 754 rounding to nearest, ties to even, of (-1)^s × m × 2^e (R88). -/
def fpRound (k : Nat) (s : Bool) (m : Nat) (e : Int) : Nat :=
  if m == 0 then zeroCode k s
  else
    let x : Int := (msb m : Int) + e
    let q : Int := if x < -126 then -126 - (k : Int) else x - (k : Int)
    let sh : Int := q - e
    let sig : Nat :=
      if sh ≤ 0 then m * 2 ^ (-sh).toNat
      else
        let d := sh.toNat
        let n := m / 2 ^ d
        let rem := m % 2 ^ d
        let half := 2 ^ (d - 1)
        if rem > half || (rem == half && n % 2 == 1) then n + 1 else n
    let sig' := if sig == 2 ^ (k + 1) then 2 ^ k else sig
    let q' : Int := if sig == 2 ^ (k + 1) then q + 1 else q
    if 2 ^ k ≤ sig' then
      let f : Int := q' + (k : Int) + 127
      if f ≥ 255 then infCode k s else zeroCode k s + f.toNat * 2 ^ k + (sig' - 2 ^ k)
    else zeroCode k s + sig'

/-- Exact sum of two finite values, rounded; the sign of an exact zero is the common sign, else plus. -/
def fpSum (k : Nat) (a b : Fp) : Nat :=
  let e := min a.e b.e
  let ia : Int := (a.m * 2 ^ (a.e - e).toNat : Nat)
  let ib : Int := (b.m * 2 ^ (b.e - e).toNat : Nat)
  let t : Int := (if a.sign then -ia else ia) + (if b.sign then -ib else ib)
  if t == 0 then zeroCode k (a.sign && b.sign)
  else fpRound k (t < 0) t.natAbs e

/-- The exact product of two finite values. -/
def fpProd (a b : Fp) : Fp := { sign := a.sign != b.sign, m := a.m * b.m, e := a.e + b.e }

/-- Addition (R125). -/
def fpAdd (k : Nat) (a b : Fp) : Nat :=
  if a.nan || b.nan then nanCode k
  else if a.inf && b.inf then (if a.sign == b.sign then infCode k a.sign else nanCode k)
  else if a.inf then infCode k a.sign
  else if b.inf then infCode k b.sign
  else fpSum k a b

/-- Multiplication (R125). -/
def fpMul (k : Nat) (a b : Fp) : Nat :=
  if a.nan || b.nan then nanCode k
  else if a.inf || b.inf then
    if (!a.inf && a.m == 0) || (!b.inf && b.m == 0) then nanCode k else infCode k (a.sign != b.sign)
  else
    let p := fpProd a b
    fpRound k p.sign p.m p.e

/-- Fused multiply-add, one rounding (R88, R125). -/
def fpFma (k : Nat) (a b c : Fp) : Nat :=
  if a.nan || b.nan || c.nan then nanCode k
  else if a.inf || b.inf then
    if (!a.inf && a.m == 0) || (!b.inf && b.m == 0) then nanCode k
    else if c.inf && c.sign != (a.sign != b.sign) then nanCode k
    else infCode k (a.sign != b.sign)
  else if c.inf then infCode k c.sign
  else fpSum k (fpProd a b) c

/-- A value with its sign changed, for subtraction. -/
def Fp.neg (a : Fp) : Fp := { a with sign := !a.sign }

/-- Order of two values that are not NaN; infinities are ordered, zeros equal. -/
def fpLt (a b : Fp) : Bool :=
  let key (x : Fp) (e : Int) : Int :=
    let i : Int := (x.m * 2 ^ (x.e - e).toNat : Nat)
    if x.sign then -i else i
  if a.inf && b.inf then a.sign && !b.sign
  else if a.inf then a.sign
  else if b.inf then !b.sign
  else
    let e := min a.e b.e
    decide (key a e < key b e)

/-- Equality of two values that are not NaN. -/
def fpEq (a b : Fp) : Bool := !fpLt a b && !fpLt b a

/-- VMIN of two codes (R125). -/
def fpMin (k a b : Nat) : Nat :=
  let x := fpDec k a
  let y := fpDec k b
  if x.nan || y.nan then nanCode k
  else if !x.inf && x.m == 0 && !y.inf && y.m == 0 then zeroCode k (x.sign || y.sign)
  else if fpLt y x then b else a

/-- VMAX of two codes (R125). -/
def fpMax (k a b : Nat) : Nat :=
  let x := fpDec k a
  let y := fpDec k b
  if x.nan || y.nan then nanCode k
  else if !x.inf && x.m == 0 && !y.inf && y.m == 0 then zeroCode k (x.sign && y.sign)
  else if fpLt x y then b else a

/-- ROUND32 of R94, on the numbers the pseudocode names. -/
def round32 (s : Bool) (m : Nat) (e : Int) (sticky : Bool) : Nat :=
  if m == 0 then zeroCode 23 s
  else
    let lead : Int := msb m
    let x := lead + e
    if x > 127 then infCode 23 s
    else
      let sh0 := lead - 23
      let sh := if x < -126 then sh0 + (-126 - x) else sh0
      if sh > 63 then zeroCode 23 s
      else
        let sig : Nat :=
          if sh ≤ 0 then m * 2 ^ (-sh).toNat
          else
            let d := sh.toNat
            let n := m / 2 ^ d
            let rem := m % 2 ^ d
            let half := 2 ^ (d - 1)
            if rem > half || (rem == half && sticky) || (rem == half && n % 2 == 1) then n + 1 else n
        let q : Int := e + sh
        let sig' := if sig == 0x1000000 then 0x800000 else sig
        let q' := if sig == 0x1000000 then q + 1 else q
        if 0x800000 ≤ sig' then
          let f := q' + 150
          if f ≥ 255 then infCode 23 s else zeroCode 23 s + f.toNat * 2 ^ 23 + (sig' - 0x800000)
        else zeroCode 23 s + sig'

/-! ### Conversions of R98 -/

/-- BF16 to binary32. -/
def bf16To32 (c : Nat) : Nat := if (fpDec 7 c).nan then nanCode 23 else c % 65536 * 65536

/-- binary32 to BF16, nearest even. -/
def f32ToBf16 (c : Nat) : Nat :=
  let x := fpDec 23 c
  if x.nan then nanCode 7 else if x.inf then infCode 7 x.sign else fpRound 7 x.sign x.m x.e

/-- binary32 to BF16, stochastic, with a 16-bit draw. -/
def f32ToBf16Sr (c u16 : Nat) : Nat :=
  let x := fpDec 23 c
  if x.nan then nanCode 7
  else if x.inf then infCode 7 x.sign
  else if u16 < c % 65536 then (c / 65536 + 1) % 65536 else c / 65536 % 65536

/-- int32 to binary32. -/
def i32To32 (c : Nat) : Nat :=
  let i := signed 32 c
  round32 (i < 0) i.natAbs 0 false

/-- binary32 to int32, toward zero. -/
def f32ToI32 (c : Nat) : Nat :=
  let x := fpDec 23 c
  if x.nan then 0
  else if x.inf then (if x.sign then 0x80000000 else 0x7FFFFFFF)
  else
    let mag : Nat := if 0 ≤ x.e then x.m * 2 ^ x.e.toNat else x.m / 2 ^ (-x.e).toNat
    if x.sign then (if 2 ^ 31 ≤ mag then 0x80000000 else unsigned 32 (-(mag : Int)))
    else (if 2 ^ 31 ≤ mag then 0x7FFFFFFF else mag)

/-! ### Keyed counter generator (R99) -/

/-- MIX64 of R99. -/
def mix64 (z0 : W64) : W64 :=
  let z1 := z0 ^^^ (z0 >>> 31)
  let z2 := z1 * 0xC2F67A1D83E5B94B
  let z3 := z2 ^^^ (z2 >>> 29)
  let z4 := z3 * 0x5D81E3A79C40F2B7
  z4 ^^^ (z4 >>> 32)

/-- KCG of R99. -/
def kcg (seed : W64) (step tensor index : W32) : W64 :=
  let a := mix64 (seed ^^^ 0xA3B195C74E2D1F69)
  let b := mix64 (a ^^^ ((step.setWidth 64 <<< 32) ||| tensor.setWidth 64))
  mix64 (b ^^^ (index.setWidth 64 * 0xA3B195C74E2D1F69))

/-- KCG with the inputs R100 takes from a key register and an index register, at an element position. -/
def kcgAt (seed key idx : W64) (pos : Nat) : W64 :=
  kcg seed (fld key 32 32) (fld key 0 32) (fld idx 0 32 + BitVec.ofNat 32 pos)

/-! ### Microscaled elements (R83 to R90); formats by the codes of R133 -/

/-- Element width in bits. -/
def mxWidth (f : Nat) : Nat := if f == 0 then 4 else if f == 1 || f == 2 then 6 else 8

/-- Mantissa bits; 0 for MXINT8. -/
def mxK (f : Nat) : Nat := match f with | 0 => 1 | 1 => 3 | 2 => 2 | 3 => 3 | 4 => 2 | _ => 0

/-- Quantum exponent w. -/
def mxW (f : Nat) : Int := match f with | 0 => -1 | 1 => -3 | 2 => -4 | 3 => -9 | 4 => -16 | _ => -6

/-- EMIN. -/
def mxEmin (f : Nat) : Int := match f with | 0 => 0 | 1 => 0 | 2 => -2 | 3 => -6 | _ => -14

/-- EMAX. -/
def mxEmax (f : Nat) : Int := match f with | 0 => 2 | 1 => 2 | 2 => 4 | 3 => 8 | 4 => 15 | _ => 0

/-- MAXV in units of the quantum. -/
def mxMax (f : Nat) : Nat := match f with | 0 => 12 | 1 => 60 | 2 => 448 | 3 => 229376 | 4 => 3758096384 | _ => 127

/-- Scratch words a block takes (R133). -/
def mxWords (f : Nat) : Nat := match f with | 0 => 2 | 1 => 3 | 2 => 3 | _ => 4

/-- Lane cycles a block takes (R133). -/
def mxLanes (a b : Nat) : Nat := if a == 0 && b == 0 then 2 else 4

/-- An element's value: none for NaN and E5M2 infinity, else its sign and magnitude in quanta (R83 to R85). -/
def mxElem (f c : Nat) : Option (Bool × Nat) :=
  if f == 5 then
    let i := signed 8 c
    some (i < 0, i.natAbs)
  else
    let b := mxWidth f
    let k := mxK f
    let s := c / 2 ^ (b - 1) % 2 == 1
    let mag := c % 2 ^ (b - 1)
    let E := mag / 2 ^ k
    let M := mag % 2 ^ k
    if f == 3 && mag == 0x7F then none
    else if f == 4 && E == 31 then none
    else if E == 0 then some (s, M) else some (s, (2 ^ k + M) * 2 ^ (E - 1))

/-- The X12 code of an element under a scale (R89, R90). -/
def x12Of (f c scale : Nat) : BitVec 12 :=
  match if scale == 255 then none else mxElem f c with
  | none => 0x800
  | some (s, n) =>
    if n == 0 then 0
    else
      let e : Int := (msb n : Int) + mxW f
      if e < -14 then BitVec.ofNat 12 (b2n s * 2048 + n * 2 ^ (mxW f + 20).toNat)
      else
        let frac := n * 64 / 2 ^ msb n - 64
        BitVec.ofNat 12 (b2n s * 2048 + (e + 15).toNat * 64 + frac)

/-- Element `i` of a packed block (R82). -/
def mxGet (f : Nat) (block : Nat) (i : Nat) : Nat := block / 2 ^ (mxWidth f * i) % 2 ^ mxWidth f

/-- Sum of the exact products of two blocks, in units of 2^(wa + wb), or none for a NaN block (R91, R92). -/
def blockSum (fa fb sa sb a b : Nat) : Option Int :=
  (List.range 32).foldl (fun acc i =>
    let ca := mxGet fa a i
    let cb := mxGet fb b i
    if x12Of fa ca sa == 0x800 || x12Of fb cb sb == 0x800 then none
    else
      match acc, mxElem fa ca, mxElem fb cb with
      | some t, some (s1, n1), some (s2, n2) =>
        let p : Int := (n1 * n2 : Nat)
        some (if s1 != s2 then t - p else t + p)
      | _, _, _ => none) (some 0)

/-- The block result of R92 as a binary32 code. -/
def blockResult (fa fb sa sb a b : Nat) : Nat :=
  match blockSum fa fb sa sb a b with
  | none => nanCode 23
  | some t =>
    if t == 0 then 0
    else
      let m := t.natAbs
      let e : Int := mxW fa + mxW fb + ((sa : Int) - 127) + ((sb : Int) - 127)
      let d := if 2 ^ 64 ≤ m then msb m - 63 else 0
      round32 (t < 0) (m / 2 ^ d) (e + d) (m % 2 ^ d != 0)

/-- QUANT of R96: the magnitude is the answer's first part × 2^(second part). -/
def quant (f sig : Nat) (ex : Int) (sr : Bool) (u24 : Nat) : Nat × Int :=
  let q : Int :=
    if f == 5 then -6
    else max ((msb sig : Int) + ex) (mxEmin f) - (mxK f : Int)
  let sh := q - ex
  if sh ≤ 0 then (sig * 2 ^ (-sh).toNat, q)
  else if sh > 87 then (0, q)
  else
    let d := sh.toNat
    let n := if d < 64 then sig / 2 ^ d else 0
    let rem := if d < 64 then sig % 2 ^ d else sig
    if !sr then
      let half := 2 ^ (d - 1)
      (if d < 64 && (rem > half || (rem == half && n % 2 == 1)) then n + 1 else n, q)
    else
      let f24 := if 24 ≤ d then rem / 2 ^ (d - 24) else rem * 2 ^ (24 - d)
      (if u24 < f24 then n + 1 else n, q)

/-- ENCODE of R95: the code of a magnitude in quanta with a sign. -/
def mxEncode (f : Nat) (s : Bool) (n : Nat) : Nat :=
  if f == 5 then (if s then (256 - n) % 256 else n)
  else
    let b := mxWidth f
    let k := mxK f
    if n < 2 ^ k then b2n s * 2 ^ (b - 1) + n
    else
      let e := msb n - k
      b2n s * 2 ^ (b - 1) + (e + 1) * 2 ^ k + (n / 2 ^ e - 2 ^ k)

/-- Result of a conversion to a block. -/
structure MxBlock where
  scale : Nat
  codes : List Nat
  saturated : Nat := 0
  nonfinite : Nat := 0
  deriving DecidableEq, Repr

/-- One element of MXCONVERT: its code and whether it saturated. -/
def mxConvertElem (f scale : Nat) (sr : Bool) (u24 : Nat) (x : Fp) : Nat × Bool :=
  let ex : Int := x.e + 127 - (scale : Int)
  let w := mxW f
  let e0 := min ex w
  if x.m * 2 ^ (ex - e0).toNat > mxMax f * 2 ^ (w - e0).toNat then (mxEncode f x.sign (mxMax f), true)
  else if x.m == 0 then (if f == 5 then 0 else mxEncode f x.sign 0, false)
  else
    let r := quant f x.m ex sr u24
    (mxEncode f x.sign (r.1 * 2 ^ (r.2 - w).toNat), false)

/-- MXCONVERT of R95; `given` is the scale of mode GIVEN, `draw` the KCG output of an element position. -/
def mxConvert (f : Nat) (given : Option Nat) (sr : Bool) (draw : Nat → W64) (v : List Nat) : MxBlock :=
  let xs := v.map (fpDec 23)
  if given == some 255 || xs.any (fun x => x.nan || x.inf) then
    { scale := 255, codes := List.replicate 32 0, nonfinite := 1 }
  else
    let scale : Nat :=
      match given with
      | some g => g
      | none =>
        let top := xs.foldl (fun a x => if x.m == 0 then a else max a ((msb x.m : Int) + x.e)) (-1000)
        if xs.all (fun x => x.m == 0) then 127
        else (max (top - mxEmax f) (-127) + 127).toNat
    let rs := (xs.zip (List.range xs.length)).map (fun p =>
      mxConvertElem f scale sr (if sr then fldN (draw p.2) 40 24 else 0) p.1)
    { scale := scale, codes := rs.map (·.1), saturated := (rs.filter (·.2)).length }

/-- Element and scale to binary32 (R98). -/
def mxTo32 (f c scale : Nat) : Nat :=
  match if scale == 255 then none else mxElem f c with
  | none => nanCode 23
  | some (s, n) => round32 s n (mxW f + (scale : Int) - 127) false

/-! ### Transcendental functions (R101 to R106), on binary32 codes -/

/-- Integer square root, one bit at a time. -/
def isqrt (n : Nat) : Nat → Nat → Nat
  | 0, r => r
  | b + 1, r => isqrt n b (if (r + 2 ^ b) * (r + 2 ^ b) ≤ n then r + 2 ^ b else r)

/-- The normalised significand and exponent of R101: |x| = m × 2^(k - 23). -/
def norm24 (x : Fp) : Nat × Int :=
  let d := 23 - msb x.m
  (x.m * 2 ^ d, x.e - d + 23)

/-- RCP (R102). -/
def fRcp (c : Nat) : Nat :=
  let x := fpDec 23 c
  if x.nan then nanCode 23
  else if x.inf then zeroCode 23 x.sign
  else if x.m == 0 then infCode 23 x.sign
  else
    let mk := norm24 x
    let q := 2 ^ 62 / mk.1
    round32 x.sign q (-39 - mk.2) (q * mk.1 != 2 ^ 62)

/-- SQRT (R103). -/
def fSqrt (c : Nat) : Nat :=
  let x := fpDec 23 c
  if x.nan then nanCode 23
  else if !x.inf && x.m == 0 then c
  else if x.sign then nanCode 23
  else if x.inf then c
  else
    let odd : Nat := if x.e % 2 == 0 then 0 else 1
    let n := x.m * 2 ^ (60 + odd)
    let r := isqrt n 64 0
    fpRound 23 false (2 * r + b2n (r * r != n)) ((x.e - odd - 60) / 2 - 1)

/-- RSQ (R103). -/
def fRsq (c : Nat) : Nat :=
  let x := fpDec 23 c
  if x.nan then nanCode 23
  else if !x.inf && x.m == 0 then infCode 23 x.sign
  else if x.sign then nanCode 23
  else if x.inf then 0
  else
    let odd : Nat := if x.e % 2 == 0 then 0 else 1
    let m := x.m * 2 ^ odd
    let r := isqrt (2 ^ 120 / m) 64 0
    fpRound 23 false (2 * r + b2n (r * r * m != 2 ^ 120)) (-60 - (x.e - odd) / 2 - 1)

/-- Coefficients C0 to C10 of R104. -/
def exp2Coeffs : List Nat :=
  [1073741824, 744261118, 257941248, 59597083, 10327387, 1431680, 165394, 16378, 1419, 109, 8]

/-- EXP2 (R104). -/
def fExp2 (c : Nat) : Nat :=
  let x := fpDec 23 c
  if x.nan then nanCode 23
  else if x.inf then (if x.sign then 0 else infCode 23 false)
  else if x.m == 0 then round32 false (2 ^ 30) (-30) false
  else
    let mk := norm24 x
    let top : Int := mk.2
    if !x.sign && top ≥ 7 then infCode 23 false
    else if x.sign && (top > 7 || (top == 7 && mk.1 > 160 * 2 ^ 16)) then 0
    else
      let sh : Int := mk.2 + 1
      let a : Nat :=
        if sh ≥ 0 then mk.1 * 2 ^ sh.toNat
        else if -sh ≤ 40 then
          let d := (-sh).toNat
          let a0 := mk.1 / 2 ^ d
          let rem := mk.1 % 2 ^ d
          let half := 2 ^ (d - 1)
          if rem > half || (rem == half && a0 % 2 == 1) then a0 + 1 else a0
        else 0
      let t : Int := if x.sign then -(a : Int) else (a : Int)
      let n : Int := t / 16777216
      let f : Nat := (t - n * 16777216).toNat
      let p := exp2Coeffs.reverse.foldl (fun acc cj => match acc with
        | none => some cj
        | some p => some (p * f / 16777216 + cj)) (none : Option Nat)
      round32 false (p.getD 0) (n - 30) false

/-- LOG2 (R105). -/
def fLog2 (c : Nat) : Nat :=
  let x := fpDec 23 c
  if x.nan then nanCode 23
  else if !x.inf && x.m == 0 then infCode 23 true
  else if x.sign then nanCode 23
  else if x.inf then infCode 23 false
  else
    let mk := norm24 x
    let big := mk.1 ≥ 12582912
    let b : Int := if big then 16777216 else 8388608
    let kk : Int := if big then mk.2 + 1 else mk.2
    let z : Int := Int.tdiv (((mk.1 : Int) - b) * 4294967296) ((mk.1 : Int) + b)
    let z2 : Int := z * z / 4294967296
    let q : Int := [477218588, 613566756, 858993459, 1431655765, 4294967296].foldl
      (fun q cj => q * z2 / 4294967296 + cj) (390451572 : Int)
    let lny : Int := z * q / 2147483648
    let r : Int := lny * 1549082005 / 1073741824
    let t : Int := kk * 4294967296 + r
    if t == 0 then 0 else round32 (t < 0) t.natAbs (-32) false

/-- binary32 operations of R106. -/
def fMul32 (a b : Nat) : Nat := fpMul 23 (fpDec 23 a) (fpDec 23 b)
def fAdd32 (a b : Nat) : Nat := fpAdd 23 (fpDec 23 a) (fpDec 23 b)
def fSub32 (a b : Nat) : Nat := fpAdd 23 (fpDec 23 a) (fpDec 23 b).neg

/-- SIGMOID (R106). -/
def fSigmoid (c : Nat) : Nat := fRcp (fAdd32 (fExp2 (fMul32 c 0xBFB8AA3B)) 0x3F800000)

/-- TANH (R106). -/
def fTanh (c : Nat) : Nat :=
  if (fpDec 23 c).nan then nanCode 23
  else
    let e := fExp2 (fMul32 (c % 2 ^ 31) 0xC038AA3B)
    let t := fMul32 (fSub32 0x3F800000 e) (fRcp (fAdd32 0x3F800000 e))
    t % 2 ^ 31 + c / 2 ^ 31 % 2 * 2 ^ 31

/-- The function VFN names by code (R126). -/
def vfn (code c : Nat) : Nat :=
  match code with
  | 0 => fRcp c
  | 1 => fSqrt c
  | 2 => fRsq c
  | 3 => fExp2 c
  | 4 => fLog2 c
  | 5 => fExp2 (fMul32 c 0x3FB8AA3B)
  | 6 => fMul32 (fLog2 c) 0x3F317218
  | 7 => fSigmoid c
  | _ => fTanh c

end Sys2Proof.Machine
end

