-- ==== Sys2Proof/Config.lean ====
section
/-! DEFINITION. What the spec leaves to the part or to the manufacturer: constants without a value, so that no proof can rest on one. -/

namespace Sys2Proof

/-- A free number for each reading of the fresh counter: an outcome the spec leaves open (log entry 3). -/
opaque Config.freeNat : Nat → Nat

/-- Tokens that the buffer of an edge-port endpoint takes beyond the first; the spec gives no figure (R60; log entry 20). -/
opaque Config.edgeTokens : Nat

/-- Blocks that a reduction engine holds at once beyond the first; the spec gives no figure (R205; log entry 30). -/
opaque Config.reduceBlocks : Nat

/-- The seed that the correction of a PUF's start-up state with its helper data finds, none where it fails; the spec gives no code
(R392; log entry 7). -/
opaque Config.pufCorrect : List Byte → List Byte → Option (BitVec 384)

/-- The seed that the part's PUF gave at manufacture, which nothing outside the part ever sees (R392, R394; log entry 7). -/
opaque Config.pufSeed : BitVec 384

/-- SERIAL of the device certificate (R394; log entry 7). -/
opaque Config.serial : List Byte

/-- The manufacturing key that signs the certificate, and a free number for the nonce of its signature (R394; log entry 7). -/
opaque Config.issuerKey : Nat
opaque Config.issuerNonce : Nat

/-- The firmware public keys in the boot ROM, by key index (R396; log entry 7). -/
opaque Config.firmwareKey : Nat → List Byte

/-- Equalisation of a lane in a table of flash: table, port, lane (R294; log entry 7). -/
opaque Config.laneEq : Nat → Nat → Nat → BitVec 32

/-- Whether that entry passes its check (R294; log entry 7). -/
opaque Config.laneEqOk : Nat → Nat → Nat → Bool

end Sys2Proof
end

