-- ==== Sys2Proof/Machine/StateArbor.lean ====
section
/-! DEFINITION. State of the arbor tree engines (R217 to R237). -/

namespace Sys2Proof.Machine

open Sys2Proof

/-- A stored node word and how many of its stored bits are in error (R237) (DESIGN CHOICE, log entry 21). -/
structure NodeCell where
  data : W64 := 0
  err : Nat := 0
  deriving DecidableEq, Repr

/-- A predicate of the ternary memory (R229). -/
structure Predicate where
  feature : Nat := 0
  defaultLeft : Bool := false
  threshold : W32 := 0
  deriving DecidableEq, Repr

/-- An entry of the ternary memory (R229). -/
structure TEntry where
  value : BitVec 512 := 0
  mask : BitVec 512 := 0
  leaf : W32 := 0
  tree : Nat := 0
  valid : Bool := false
  deriving DecidableEq, Repr

/-- Modes of R233. -/
inductive EngMode where
  | idle | node | ternary | retired
  deriving DecidableEq, Repr

/-- One engine (R217, R233). -/
structure Engine where
  mode : EngMode := .idle
  owner : Option Nat := none
  verified : Bool := false
  safeLoaded : Bool := false
  tcamFailed : Bool := false
  root : Nat := 0
  nodes : Table NodeCell := []
  preds : Table Predicate := []
  entries : Table TEntry := []
  predicates : Nat := 0
  trees : Nat := 0
  deriving DecidableEq, Repr

/-- Where a sample came from (R219, R227, R235). -/
inductive SampleSource where
  | endpoint
  /-- A MAC's extractor, with the number of its frame. -/
  | frame (mac serial : Nat)
  /-- An ARB_EVAL in flight. -/
  | command (id : Nat)
  deriving DecidableEq, Repr

/-- A sample in a slot (R219, R226). -/
structure Sample where
  source : SampleSource
  features : List W32
  poison : Bool := false
  seq : Nat := 0
  /-- Cycle in which it became complete. -/
  at_ : Nat := 0
  /-- The cycle it started in, and its result token with its poison, once started. -/
  started : Option (Nat × W64 × Bool) := none
  deriving DecidableEq, Repr

/-- An ensemble (R218); ENGINES 0 is none. -/
structure Ensemble where
  engines : Nat := 0
  features : Nat := 0
  depth : Nat := 0
  base : W32 := 0
  /-- Samples completed, modulo 65,536. -/
  seq : Nat := 0
  /-- The sample whose tokens are arriving. -/
  gathering : Option Sample := none
  /-- Complete samples in order of completion. -/
  samples : List Sample := []
  /-- Cycle of the latest start. -/
  startedAt : Option Nat := none
  /-- Features gathered by ARB_EVAL. -/
  staging : List W32 := []
  deriving DecidableEq, Repr

/-- The arbor. -/
structure Arbor where
  engines : Table Engine := []
  ensembles : Table Ensemble := []
  /-- An emergency stop keeps the arbor from accepting samples (R369). -/
  stopped : Bool := false
  nodeCorrected : W32 := 0
  nodeUncorrected : W32 := 0
  tcamMiss : W32 := 0
  poison : W32 := 0
  failed : W32 := 0
  late : W32 := 0
  /-- Results of extractor samples for the reply engine: MAC, frame, token, poison. -/
  toReply : List (Nat × Nat × W64 × Bool) := []
  deriving DecidableEq, Repr

end Sys2Proof.Machine
end

