-- ==== Sys2Proof/Machine/StateCanopy.lean ====
section
/-! DEFINITION. State of the canopy: tiles, links, contexts, partitions, samplers, grafts. Cycles in these records are counts of ACLK cycles in which the canopy was not paused (field `now` of `Canopy`). -/

namespace Sys2Proof.Machine

open Sys2Proof

/-- A 64-bit value with its poison bit (R41). -/
structure Val where
  v : W64 := 0
  poison : Bool := false
  deriving DecidableEq, Repr

/-- A scratch word (R41). The code of its check bits is not given; `err` counts the stored bits in error (DESIGN CHOICE, log entry 21). -/
structure ScrWord where
  data : W64 := 0
  poison : Bool := false
  written : Bool := false
  err : Nat := 0
  deriving DecidableEq, Repr

/-- A token (R49); parity is settled on arrival. -/
structure Tok where
  data : W64
  ctx : Nat
  poison : Bool := false
  deriving DecidableEq, Repr

/-- A token on a link, placed in cycle `at_`. -/
structure WireTok where
  tok : Tok
  at_ : Nat
  deriving DecidableEq, Repr

/-- The output side of one link (R56, R58). -/
structure OutLink where
  /-- Credits consumed, a context. -/
  used : List Nat := [0, 0, 0, 0]
  /-- Freed credits on their way: context, and the cycle they were freed in. -/
  returns : List (Nat × Nat) := []
  /-- Round-robin pointer of R58. -/
  ptr : Nat := 0
  /-- Cycle of the latest token placed. -/
  placedAt : Option Nat := none
  /-- Cycle of the latest collision (R59). -/
  clashAt : Option Nat := none
  deriving DecidableEq, Repr

/-- The input side of one link (R37, R51, R55) (DESIGN CHOICE, log entry 44). -/
structure InLink where
  split : List Nat := [2, 2, 2, 2]
  wire : List WireTok := []
  /-- Virtual queues of C0 to C3, head first. -/
  queues : Table (List Tok) := []
  pass : Option Tok := none
  /-- Tokens moved to the compatibility spill area (R79), in order. -/
  spilled : List Tok := []
  /-- Tokens of C0 that arrived after those, and stand behind them (R79). -/
  behind : List Tok := []
  /-- Where the link is an edge port: the sending side of the unit that feeds it (R56, R60). -/
  unit : OutLink := {}
  deriving DecidableEq, Repr

/-- A context waiting under R122: the cycle its WAIT issued in. -/
structure Waiting where
  since : Nat
  mode : Nat
  imm : W32
  /-- Index of the WAIT instruction. -/
  index : Nat
  /-- First cycle in which the condition held, once seen. -/
  met : Option Nat := none
  deriving DecidableEq, Repr

/-- What one tile holds for one context (R37, R38, R134). -/
structure TileCtx where
  pc : BitVec 6 := 0
  g : Table Val := []
  /-- PB0 to PB7; bit 0 reads 1 (R42). -/
  pb : BitVec 8 := 0
  dseqA : BitVec 4 := 0
  dseqB : BitVec 4 := 0
  cseq : BitVec 4 := 0
  waiting : Option Waiting := none
  /-- Cycle of the latest hold of R48. -/
  heldAt : Option Nat := none
  /-- The SEND that stands at issue has been held for a credit (R48). -/
  creditHeld : Bool := false
  deriving DecidableEq, Repr

/-- Kind of a vault request (R132, R123). -/
inductive VKind where
  | load
  | store
  | fold (layer : Nat)
  deriving DecidableEq, Repr

/-- An entry of the vault decoupling queue (R69, R150). -/
structure VReq where
  ctx : Nat
  kind : VKind
  index : Nat
  /-- Vault word address. -/
  word : Nat
  /-- First scratch word. -/
  scr : Nat
  issued : Nat
  /-- Service cycle v of R150, padded mode. -/
  service : Nat
  /-- Store data, once read. -/
  data : Option (List Val) := none
  /-- Load data, once served, with the cycle of its scratch write. -/
  loaded : Option (Nat × List Val) := none
  deriving DecidableEq, Repr

/-- Where a late result goes (R118). -/
inductive LateDst where
  | g (i : Nat)
  | pb (i : Nat)
  | scratch (w : Nat)
  /-- A word of the block that an MXCVT packs (R137). -/
  | block (w : Nat)
  deriving DecidableEq, Repr

/-- Something a tile does in a later cycle than its issue (DESIGN CHOICE, log entry 8). -/
inductive Micro where
  /-- A late result, written at the end of its cycle (R118, R145). -/
  | late (dst : LateDst) (v : Val)
  /-- Scratch read i of an MXCVT (R137). -/
  | cvtRead (i : Nat)
  /-- The store read of the STV issued in the named cycle (R132). -/
  | storeRead (issued : Nat)
  /-- Word k of block j of the DOT in progress (R136). -/
  | dotWord (j k : Nat)
  /-- Data of the load issued in the named cycle reaches its scratch words (R150). -/
  | loadReturn (issued : Nat)
  /-- The entry of the store or fold marker issued in the named cycle frees (R150). -/
  | free (issued : Nat)
  deriving DecidableEq, Repr

/-- A `Micro` with its cycle, the cycle of its issue, its context and instruction index. -/
structure Due where
  at_ : Nat
  tag : Nat
  ctx : Nat
  index : Nat
  op : Micro
  deriving DecidableEq, Repr

/-- The DOT in progress (R135, R136). -/
structure Dot where
  ctx : Nat
  index : Nat
  issued : Nat
  fmtA : Nat
  fmtB : Nat
  /-- 16 + link for a link, or none for scratch; base of the scratch words. -/
  linkA : Option Nat
  linkB : Option Nat
  baseA : Nat
  baseB : Nat
  /-- Source selectors of the operands. -/
  selA : Nat
  selB : Nat
  scaleA : W64
  scaleB : W64
  blocks : Nat
  lanes : Nat
  dst : Nat
  /-- Running sum, a binary32 code. -/
  sum : W32
  wordsA : List W64 := []
  wordsB : List W64 := []
  deriving DecidableEq, Repr

/-- The MXCVT in progress (R137). -/
structure Cvt where
  ctx : Nat
  index : Nat
  issued : Nat
  fmt : Nat
  given : Option Nat
  sr : Bool
  key : W64
  idx : W64
  entry : Nat
  tag : BitVec 4
  old : W64
  dst : Nat
  addr : Nat
  out : Nat
  words : List W64 := []
  deriving DecidableEq, Repr

/-- A claim on a scratch bank port (R39, R40); `user` is the claimant code of R166. -/
structure Claim where
  at_ : Nat
  bank : Nat
  write : Bool
  user : Nat
  ctx : Nat
  /-- Index of its instruction. -/
  index : Nat
  /-- Cycle of the issue it belongs to. -/
  tag : Nat
  /-- A double claim has stopped it. -/
  dead : Bool := false
  deriving DecidableEq, Repr

/-- A logical tile (R37). -/
structure Tile where
  active : Nat := 0
  ctxs : Table TileCtx := []
  scratch : Table ScrWord := []
  ins : Table InLink := []
  outs : Table OutLink := []
  vq : List VReq := []
  /-- Issue and service cycle of the latest vault request. -/
  lastV : Option (Nat × Nat) := none
  dues : List Due := []
  dot : Option Dot := none
  cvt : Option Cvt := none
  /-- First cycle in which the narrow lanes, and the vector unit, are free again (R136, R137). -/
  lanesUntil : Nat := 0
  vecUntil : Nat := 0
  claims : List Claim := []
  issuedAt : Option Nat := none
  /-- Cycle whose end-of-cycle writes have begun: nothing issues in it any more, and no WAIT is looked at (R118, R122, R150). -/
  endedAt : Option Nat := none
  deriving DecidableEq, Repr

/-- Tile map entry (R159). -/
structure MapEntry where
  colFirst : Nat
  colLast : Nat
  rowFirst : Nat
  rowLast : Nat
  code : Nat
  route : Nat
  split : Nat
  sched : Nat
  deriving DecidableEq, Repr

/-- Edge-port entry (R159); the column is relative to the partition. -/
structure EdgePort where
  col : Nat
  side : Nat
  unit : Nat
  index : Nat
  deriving DecidableEq, Repr

/-- Vault range (R159). -/
structure VRange where
  colFirst : Nat
  colLast : Nat
  segFirst : Nat
  segLast : Nat
  pageFirst : Nat
  pageLast : Nat
  deriving DecidableEq, Repr

/-- Latency declaration (R159). -/
structure Decl where
  inEntry : Nat
  outEntry : Nat
  cycles : Nat
  deriving DecidableEq, Repr

/-- What a load leaves resident of an image (R157 to R162). -/
structure Image where
  fixedClass : Bool := false
  compat : Bool := false
  scratchBase : Nat := 0
  granules : Nat := 0
  code : List (List (BitVec 96)) := []
  tiles : List MapEntry := []
  routes : List W32 := []
  scheds : List (BitVec 256) := []
  ports : List EdgePort := []
  ranges : List VRange := []
  decls : List Decl := []
  compatPages : Nat := 0
  layers : Nat := 0
  deriving DecidableEq, Repr

/-- States of a context (R63). -/
inductive CtxState where
  | empty | loaded | running | draining | drained | faulted | loading
  deriving DecidableEq, Repr

/-- A context of a partition (R63, R68). -/
structure Ctx where
  state : CtxState := .empty
  faultCount : Nat := 0
  inputsStopped : Bool := false
  imageId : W64 := 0
  image : Image := {}
  /-- The cycle in which it still issues although a fault or a STOP has ended its run (R163, R358). -/
  tail : Option Nat := none
  /-- Latest cycle in which a STEP lets it issue (R359). -/
  lastIssue : Option Nat := none
  /-- ACLK cycle at which a DRAIN reaches its limit, and DISCARD (R65). -/
  drainEnd : Option Nat := none
  drainDiscard : Bool := false
  deriving DecidableEq, Repr

/-- A fault record (R165) but for SEQUENCE, which is its place in the log. -/
structure FaultRec where
  code : Nat
  secondary : Bool
  col : Nat
  row : Nat
  ctx : Nat
  index : Nat
  cycle : Nat
  imageId : W64
  detail : W32
  deriving DecidableEq, Repr

/-- The sampler of a partition (R75 to R77). -/
structure Sampler where
  queue : Nat := 0
  enable : Bool := false
  period : Nat := 65536
  skip : W32 := 0
  /-- Cells of the snapshot being drained. -/
  draining : List (List W64) := []
  /-- Cycle of the latest snapshot taken or skipped. -/
  lastAt : Option Nat := none
  deriving DecidableEq, Repr

/-- A partition (R74, R165). -/
structure Partition where
  valid : Bool := false
  firstBay : Nat := 0
  bays : Nat := 0
  /-- Owning session, the number the profile names. -/
  owner : Option Nat := none
  byteMode : Bool := false
  padded : Bool := false
  /-- Cycle of its START (cycle 0 of its count). -/
  start : Nat := 0
  ctxs : Table Ctx := []
  seedLo : W32 := 0
  seedHi : W32 := 0
  seedInForce : W64 := 0
  sat : W32 := 0
  nonfinite : W32 := 0
  scratchCorrected : W32 := 0
  linkParity : W32 := 0
  log : List FaultRec := []
  /-- Cycle of the latest record, and the place in the log of that cycle's first record (R164). -/
  logMark : Option (Nat × Nat) := none
  lost : Nat := 0
  /-- The record the FAULT event will carry, and the cycle of the stop, until the partition is quiescent (R163). -/
  stopped : Option Nat := none
  firstRec : Option FaultRec := none
  portsClosed : Bool := false
  /-- Last issuing cycle of a STEP (R359), with its CYCLES. -/
  stepEnd : Option Nat := none
  sampler : Sampler := {}
  /-- Latest cycle in which an instruction issued or a token crossed a link (R79). -/
  activity : Nat := 0
  deriving DecidableEq, Repr

/-- Graft state of a physical bay (R70, R72). -/
structure Graft where
  failedPos : Nat := 32
  retired : Bool := false
  bypassOk : Bool := false
  deriving DecidableEq, Repr

/-- The canopy. -/
structure Canopy where
  /-- ACLK cycles in which the canopy was not paused. -/
  now : Nat := 0
  paused : Bool := false
  /-- The present cycle is one of those that THROTTLE pauses (R366). -/
  throttled : Bool := false
  /-- TCLK tick of the latest paused cycle. -/
  pausedAt : Option Nat := none
  /-- Completed pauses (PAUSE_COUNT of R371). -/
  pauses : Nat := 0
  parts : Table Partition := []
  /-- Index 512 × column + row. -/
  tiles : Table Tile := []
  grafts : Table Graft := []
  /-- Tokens on edge links toward unit endpoints; index 65536 × unit + endpoint index. -/
  edges : Table (List WireTok) := []
  /-- The cycle after the latest token that each endpoint took (R153, R154); the same index. -/
  taken : Table Nat := []
  deriving DecidableEq, Repr

end Sys2Proof.Machine
end

