-- ==== Sys2Proof/Machine/StateEth.lean ====
section
/-! DEFINITION. State of the Ethernet ports, their MACs, extractors and reply engines (R260 to R284). -/

namespace Sys2Proof.Machine

open Sys2Proof

/-- What MAC_CONFIG sets. -/
structure MacCfg where
  enable : Bool := false
  promisc : Bool := false
  bcast : Bool := false
  rxValid : Bool := false
  ndValid : Bool := false
  maxFrame : Nat := 1518
  rxQueue : Nat := 0
  ndQueue : Nat := 0
  fwdTc : Nat := 0
  txValid : BitVec 8 := 0
  /-- Byte c: queue of class c. -/
  txQueues : W64 := 0
  deriving DecidableEq, Repr

/-- An entry of the address filter (R264). -/
structure FilterEntry where
  addr : List Byte := []
  valid : Bool := false
  eval : Bool := false
  deriving DecidableEq, Repr

/-- A field of the extractor (R275). -/
structure ExtField where
  offset : Nat
  anchor : Nat
  len : Nat
  ty : Nat
  scale : Int
  deriving DecidableEq, Repr

/-- What EXTRACT_CONFIG sets. -/
structure Extract where
  /-- Ensemble, none for off. -/
  first : Option Nat := none
  fields : List ExtField := []
  lengthField : Option Nat := none
  lengthAdd : Int := 0
  deriving DecidableEq, Repr

/-- What REPLY_CONFIG sets. -/
structure ReplyCfg where
  /-- 0 off, 1 EAGER, 2 SAFE. -/
  mode : Nat := 0
  templateLow : Nat := 0xFF
  templateHigh : Nat := 0xFF
  low : W32 := 0
  high : W32 := 0
  deriving DecidableEq, Repr

/-- The configuration a frame runs under (R284). -/
structure MacConf where
  cfg : MacCfg := {}
  filter : Table FilterEntry := []
  extract : Extract := {}
  reply : ReplyCfg := {}
  deriving DecidableEq, Repr

/-- A gate list (R272). -/
structure GateList where
  cycle : Nat
  /-- Base time in nanoseconds. -/
  base : Nat
  entries : List W32
  /-- Cycle start at which it takes force, in nanoseconds. -/
  takes : Nat
  deriving DecidableEq, Repr

/-- A frame from its sample or its verdict until its descriptor is complete (R262, R266, R278). -/
structure RxFrame where
  serial : Nat
  /-- Tick at which its word 0 reached the parser. -/
  word0 : Nat
  conf : MacConf
  /-- Bytes received so far. -/
  bytes : List Byte
  sec : BitVec 48 := 0
  ns : BitVec 30 := 0
  evaluated : Bool := false
  noDecision : Bool := false
  /-- Feature of the LENGTH_FIELD as an unsigned integer, if it is set and not NaN (R281). -/
  lengthValue : Option Nat := none
  /-- Its verdict came before its sample, which is still awaited (R283). -/
  awaits : Bool := false
  /-- Result token and its poison. -/
  result : Option (W64 × Bool) := none
  /-- Its sample was discarded (R234, R235): what stands for the token in its descriptor. -/
  discarded : Option W64 := none
  /-- Its sample has entered the queue in this cycle, and one of a lower MAC may still take its slot (R278). -/
  entering : Bool := false
  /-- A pause overlapped its interval to its result. -/
  lateResult : Bool := false
  /-- A reply of it is being built, waits or is in flight. -/
  replying : Bool := false
  verdict : Option Bool := none
  /-- Its queue and RX_SEQ, once accepted. -/
  accepted : Option (Nat × Nat) := none
  /-- Cells of it that its queue has taken. -/
  given : Nat := 0
  replied : Bool := false
  stomped : Bool := false
  unretracted : Bool := false
  suppressed : Bool := false
  template : Nat := 0xFF
  late : Bool := false
  deriving DecidableEq, Repr

/-- A reply (R279 to R282). -/
structure ReplyRec where
  serial : Nat
  template : Nat
  tc : Nat := 0
  /-- Cycle in which it is ready. -/
  ready : Nat
  /-- Patched bytes without FCS, once in the pending list. -/
  bytes : List Byte := []
  /-- Time of its start, in hundredths of a nanosecond of TCLK ticks, once started. -/
  started : Option Nat := none
  /-- It has counted in REPLY_GATE_WAIT (R274). -/
  waited : Bool := false
  /-- Its FCS has been handed over; the verdict is still awaited (EAGER). -/
  handed : Bool := false
  deriving DecidableEq, Repr

/-- An item being sent (R269 to R271). -/
structure TxItem where
  desc : List Byte
  /-- Data cells of the item, and those read so far. -/
  cells : Nat
  readCells : Nat := 0
  /-- Bytes read and not yet used, with their poison. -/
  buf : List (Byte × Bool) := []
  /-- Header of a SEGMENT send, once read. -/
  header : List (Byte × Bool) := []
  /-- Segments in all, and those copied. -/
  segments : Nat := 1
  copied : Nat := 0
  deriving DecidableEq, Repr

/-- A frame in the transmit buffer, without FCS. -/
structure TxFrame where
  bytes : List Byte
  tc : Nat := 0
  padded : Bool := false
  segment : Bool := false
  oneStep : Bool := false
  /-- Receive descriptor of a forwarded frame. -/
  fwd : Option (List Byte) := none
  deriving DecidableEq, Repr

/-- A traffic class of a MAC. -/
structure TxClass where
  item : Option TxItem := none
  frame : Option TxFrame := none
  /-- Data cells of a refused item still to be released as they are committed (R270). -/
  skip : Nat := 0
  deriving DecidableEq, Repr

/-- A MAC. -/
structure Mac where
  conf : MacConf := {}
  /-- Earlier configurations, latest first, with the tick each was replaced at. -/
  past : List (Nat × MacConf) := []
  linkUp : Bool := false
  /-- Tick of word 0 of the latest frame that a loss of link ended (R261). -/
  cutAt : Option Nat := none
  /-- Ticks at which frames left the receive buffer, and their bytes, latest first, those of the last millisecond. -/
  frees : List (Nat × Nat) := []
  rxSeq : Nat := 0
  counters : Table W32 := []
  /-- Serial number of the next frame recorded. -/
  nextFrame : Nat := 0
  frames : List RxFrame := []
  building : List ReplyRec := []
  /-- Pending list, and the reply in flight. -/
  replies : List ReplyRec := []
  inFlight : List ReplyRec := []
  replySeq : Nat := 0
  classes : Table TxClass := []
  inForce : Option GateList := none
  pendingGates : Option GateList := none
  entry : Nat := 0
  /-- Time at which the transmitter is free, in hundredths of a nanosecond of TCLK ticks. -/
  busyUntil : Nat := 0
  /-- Frames that have started to leave, latest last, with FCS (R274). -/
  wire : List (List Byte) := []
  deriving DecidableEq, Repr

/-- A reply template (R279). -/
structure Template where
  tc : Nat := 0
  ipv4Csum : Bool := false
  l4Csum : Bool := false
  l3 : Nat := 0
  l4 : Nat := 0
  patches : List W32 := []
  bytes : List Byte := []
  deriving DecidableEq, Repr

/-- An E-port (R260). -/
structure EPort where
  mode : Nat := 0
  owner : Option Nat := none
  templates : Table Template := []
  /-- Earlier templates, latest first: the tick each was replaced at, and its index (R284). -/
  past : List (Nat × Nat × Template) := []
  deriving DecidableEq, Repr

/-- The Ethernet ports; MACs by index 8 × port + MAC. -/
structure Ethernet where
  ports : Table EPort := []
  macs : Table Mac := []
  deriving DecidableEq, Repr

end Sys2Proof.Machine
end

