-- ==== Sys2Proof/Machine/StateVault.lean ====
section
/-! DEFINITION. State of the vaults and of the spill queues. -/

namespace Sys2Proof.Machine

open Sys2Proof

/-- A row of a bank of a physical vault on one die. -/
structure RowId where
  vault : Nat
  bank : Nat
  die : Nat
  row : Nat
  deriving DecidableEq, Repr

/-- A row under repair (R177): its spare, and the words copied so far. -/
structure Repair where
  row : RowId
  spare : Nat
  copied : Nat := 0
  deriving DecidableEq, Repr

/-- Kinds of auxiliary access, in the order of priority of R173. -/
inductive AuxKind where
  | overdue | repair | cell | host | refresh | scrub
  deriving DecidableEq, Repr

/-- An auxiliary access that waits (R172). -/
structure AuxWait where
  vault : Nat
  bank : Nat
  kind : AuxKind
  /-- ACLK cycle in which it was first offered. -/
  since : Nat
  deriving DecidableEq, Repr

/-- The vaults (R168 to R178). -/
structure Vaults where
  /-- Stored bytes: 64 × word location + i, i from 0 to 35 as the coefficients of R174. -/
  mem : List Host.Cell := []
  /-- Canopy cycle to which requests under a contract occupy each bank, exclusive; index 16 × physical vault + bank. -/
  bankUntil : Table Nat := []
  /-- ACLK cycle to which every other access occupies each bank, exclusive; the same index. -/
  auxUntil : Table Nat := []
  /-- Auxiliary accesses that wait in vaults without a calendar. -/
  auxWait : List AuxWait := []
  /-- ACLK cycle after the latest one in which each physical vault served. -/
  servedAt : Table Nat := []
  /-- Repaired rows and rows under repair; the spare row each one has. -/
  redirects : List Repair := []
  /-- Row of the tile each physical vault served last in queue mode (R152). -/
  rotation : Table Nat := []
  /-- Rows queued for repair (R174, R177). -/
  repairQueue : List RowId := []
  /-- Rows whose bank has no free spare row: in use unrepaired (R178). -/
  unrepaired : List RowId := []
  /-- Rows that yielded a corrected error, with the scrub pass (R177). -/
  corrected : List (RowId × Nat) := []
  /-- Rows queued for a scrub visit (R174), with the next column to scrub. -/
  visits : List (RowId × Nat) := []
  /-- Cycle of the latest refresh, ACLK cycles since reset; index ((vault × 16 + bank) × 4 + die) × 256 + row. -/
  refreshed : Table Nat := []
  /-- ACLK cycle from which the refresh of every row counts: the end of the latest training. -/
  refreshBase : Nat := 0
  /-- A reset of the VAULT domain is in progress (R435). -/
  retraining : Bool := false
  /-- Self-refresh of R369. -/
  selfRefresh : Bool := false
  scrubEnable : Bool := true
  passHours : Nat := 24
  /-- Passes of the background scrub that have ended; SCRUB_CTRL shows them modulo 256. -/
  passes : Nat := 0
  /-- Next word of the background scrub: logical vault × 2^20 + word. -/
  scrubAt : Nat := 0
  eccCorrected : W32 := 0
  eccUncorrected : W32 := 0
  poisonReads : W32 := 0
  eccLast : Option (Nat × Nat × Nat) := none
  repairs : Nat := 0
  deriving DecidableEq, Repr

/-- A word in a spill queue: payload, poison, and whether its parity in an on-die buffer is in error (R190; what puts it in
error is the hardware, log entry 21) (DESIGN CHOICE, log entry 21). -/
structure SqWord where
  v : W64 := 0
  poison : Bool := false
  bad : Bool := false
  deriving DecidableEq, Repr

/-- A cell in an on-die buffer. -/
structure SqCell where
  words : List SqWord
  deriving DecidableEq, Repr

/-- A cell that a unit has committed in the present cycle (R186): its source, and the SQ_WRITE that it is of. -/
structure Arrival where
  source : Nat
  cell : SqCell
  flight : Option Nat := none
  deriving DecidableEq, Repr

/-- A spill queue (R179 to R192). -/
structure Spill where
  owner : Option Nat := none
  circular : Bool := false
  reader : Nat := 0
  writer : Nat := 0
  firstVault : Nat := 0
  vaults : Nat := 0
  firstPage : Nat := 0
  pages : Nat := 0
  /-- Cells committed, read and released; the registers show them modulo 2^32. -/
  wr : Nat := 0
  rd : Nat := 0
  rdWord : Nat := 0
  rel : Nat := 0
  mkCell : Nat := 0
  mkWord : Nat := 0
  markValid : Bool := false
  frozen : Bool := false
  overrun : Bool := false
  poisonSeen : Bool := false
  ctrlRejected : Bool := false
  /-- The present CCLK cycle set OVERRUN, POISON_SEEN, CTRL_REJECTED (R20). -/
  overrunNow : Bool := false
  poisonNow : Bool := false
  rejectedNow : Bool := false
  poisonCount : W32 := 0
  discardCount : W32 := 0
  overrunCount : W32 := 0
  /-- Words of the cell in assembly. -/
  assembly : List SqWord := []
  /-- Data words that arrived in this cycle: they take effect at its end (R186). -/
  incoming : List SqWord := []
  /-- Cells committed in this cycle: they take effect at its end (R186). -/
  arrived : List Arrival := []
  /-- ACLK cycle after the latest one in which a control operation acted (R186). -/
  ctrlAt : Nat := 0
  /-- Cells in the on-die buffers, by cell count. -/
  tail : Table SqCell := []
  head : Table SqCell := []
  /-- Cells below this count have left the tail buffer. -/
  moved : Nat := 0
  /-- The first word of the cell `moved` is in the region (R188). -/
  half : Bool := false
  /-- The head buffer holds the cells from the read point up to this count. -/
  filled : Nat := 0
  /-- Words read from the region of the cell that the head buffer takes next (R188). -/
  fetched : List SqWord := []
  deriving DecidableEq, Repr

end Sys2Proof.Machine
end

