-- ==== Sys2Proof/Machine/StateFabric.lean ====
section
/-! DEFINITION. State of the optical ports, the fabric and the reduction engines (R199 to R205, R285 to R314). -/

namespace Sys2Proof.Machine

open Sys2Proof

/-- States of a transmit lane, in the codes of LANE_STATUS TX. -/
inductive LaneTx where
  | off | train | countdown | run | sleep
  deriving DecidableEq, Repr

/-- States of a receive lane, in the codes of LANE_STATUS RX. -/
inductive LaneRx where
  | off | acquire | search | aligned | up | sleep
  deriving DecidableEq, Repr

/-- A lane's part in the alignment search in progress on its port (R296). -/
inductive Hunt where
  | out
  /-- To be tested at the search's offset. -/
  | todo
  | testing
  /-- Its test found at least 6 positions and is to be repeated. -/
  | again
  | retesting
  /-- Not locked at the search's offset. -/
  | tried
  deriving DecidableEq, Repr

/-- One lane of an F-port (R289 to R296). -/
structure Lane where
  tx : LaneTx := .off
  rx : LaneRx := .off
  fom : Nat := 0
  offset : Nat := 0
  marginal : Bool := false
  miswired : Bool := false
  failed : Bool := false
  slipOffset : Nat := 0
  slipDone : Bool := false
  /-- MATCHES of LANE_SLIP. -/
  slipFound : Nat := 0
  /-- A test is in progress. -/
  slipBusy : Bool := false
  hunt : Hunt := .out
  eq : W32 := 0
  /-- Consecutive windows with FOM of at least 96 in ACQUIRE. -/
  good : Nat := 0
  /-- Tick at which FOM fell below 48. -/
  lowSince : Option Nat := none
  /-- The group with COUNTDOWN 0 has been received. -/
  counted : Bool := false
  /-- Tick of the first of the groups with MODE SLEEP that it has received. -/
  sleepFrom : Option Nat := none
  /-- Tick at which the transmit lane, which sends MODE SLEEP, stops. -/
  sleepBy : Option Nat := none
  /-- Ticks of the Lost and Search failed cases, latest first. -/
  losses : List Nat := []
  /-- Tick at which the transmit lane entered COUNTDOWN or RUN. -/
  txAt : Nat := 0
  /-- Flit slots begun since it entered RUN, those of the ALIGN group among them. -/
  slots : Nat := 0
  /-- The latest 58 bits that it has sent scrambled. -/
  scrambler : BitVec 58 := 0
  /-- Groups of the codeword that it is sending, and of the latest that it has sent. -/
  word : List (BitVec 257) := []
  lastWord : List (BitVec 257) := []
  /-- The flit in its present slot. -/
  flit : Option (List Byte) := none
  deriving DecidableEq, Repr

/-- A data flit but for SEQ (R299). -/
structure Flit where
  vc : Nat
  first : Bool
  last : Bool
  payload : List Byte
  deriving DecidableEq, Repr

/-- Power states of an F-port (R297). -/
inductive PortPower where
  | active | entering | deep
  deriving DecidableEq, Repr

/-- States of a direction of a port (R292). -/
inductive DirState where
  | down | degraded | up
  deriving DecidableEq, Repr

/-- One F-port (R285). -/
structure FPort where
  role : Nat := 0
  direction : Nat := 0
  eqTable : Nat := 0
  owner : Option Nat := none
  autoWake : Bool := false
  power : PortPower := .active
  /-- Tick of the FPORT_POWER that set ENTERING. -/
  entered : Nat := 0
  txAsleep : Bool := false
  rxAsleep : Bool := false
  lanes : Table Lane := []
  txState : DirState := .down
  rxState : DirState := .down
  txUse : BitVec 9 := 0
  /-- Peer's TX_USE as last received. -/
  rxUse : BitVec 9 := 0
  /-- Feedback of R290. -/
  peerAligned : BitVec 9 := 0
  peerUp : BitVec 9 := 0
  lastAlign : Nat := 0
  /-- Tick since which each direction has been DOWN, none once it has flushed the port or while it is not DOWN. -/
  txDown : Option Nat := none
  rxDown : Option Nat := none
  epoch : BitVec 8 := 0
  /-- Last EPOCH received and accepted (RX_EPOCH). -/
  peerEpoch : BitVec 8 := 0
  /-- The transmitter waits to see its EPOCH echoed (R302). -/
  awaitEcho : Bool := false
  queue : List Flit := []
  /-- Retry buffer, oldest first. -/
  retry : List Flit := []
  /-- SEQ of the oldest flit of the retry buffer, or of the next data flit when it is empty. -/
  oldest : BitVec 12 := 0
  /-- Flits sent on each virtual channel since the epoch began. -/
  sentOn : Table Nat := []
  /-- Flits freed by the peer on each virtual channel since the epoch began, as last learnt. -/
  credit : Table Nat := []
  /-- Tick of the latest ACK advance, or of the first flit sent after an empty retry buffer. -/
  ackAt : Nat := 0
  /-- Flit of the retry buffer that is sent again next. -/
  replay : Option Nat := none
  /-- CREDIT_VC of the next flit. -/
  creditVc : BitVec 3 := 0
  /-- The next flit carries NAK. -/
  nakDue : Bool := false
  /-- Latest NAK received: SEQ and tick. -/
  nakSeen : Option (BitVec 12 × Nat) := none
  expected : BitVec 12 := 0
  reorder : Table Flit := []
  /-- SEQ of the latest data flit of each lane. -/
  laneSeq : Table (Option (BitVec 12)) := []
  /-- Tick of the latest NAK sent for `expected`. -/
  nakSent : Option Nat := none
  /-- Receive buffers, in order of arrival. -/
  rxBuf : List Flit := []
  /-- Receive-buffer flits freed on each virtual channel since the epoch began. -/
  freed : Table Nat := []
  /-- FPORT_COUNT 0 to 6. -/
  counts : Table W32 := []
  /-- Offset that the alignment search in progress tests. -/
  searchAt : Option Nat := none
  deriving DecidableEq, Repr

/-- A reduction packet's body (R312). -/
structure RedPkt where
  src : BitVec 16
  kind : Nat
  no : Nat
  desc : W64
  code : Nat
  sums : List Int := []
  deriving DecidableEq, Repr

/-- A block being reduced at this member (R201 to R203, R313). -/
structure RedBlock where
  no : Nat
  desc : W64
  tokens : List SqWord
  /-- Pass-1 code combined so far. -/
  code : Nat
  /-- Children whose pass-1 packet, and pass-2 packet, have been combined. -/
  got1 : List (BitVec 16) := []
  got2 : List (BitVec 16) := []
  sent1 : Bool := false
  /-- Final code, once known. -/
  final : Option Nat := none
  /-- Pass-2 sums combined so far. -/
  sums : List Int := []
  sent2 : Bool := false
  /-- Its result tokens, once they are known: they leave after those of every earlier block (R194, R204). -/
  ready : Option (List SqWord) := none
  deriving DecidableEq, Repr

/-- A reduction channel (R199, R311, R313). -/
structure Channel where
  enabled : Bool := false
  owner : Option Nat := none
  box : W32 := 0
  /-- Blocks entered since it was enabled. -/
  blockNo : Nat := 0
  /-- Tokens of the block in assembly: descriptor, then data. -/
  assembly : List SqWord := []
  blocks : List RedBlock := []
  /-- Reduction packets that have arrived. -/
  inbox : List RedPkt := []
  /-- Reduction packets to send: direction and flit. -/
  outbox : List (Nat × Flit) := []
  /-- The trunk member in use, by direction. -/
  member : Table (Option Nat) := []
  /-- Result tokens to deliver. -/
  results : List SqWord := []
  deriving DecidableEq, Repr

/-- The fabric (R305 to R314). -/
structure Fabric where
  ports : Table FPort := []
  coord : Option (BitVec 16) := none
  sizes : BitVec 16 := 0
  isBridge : Bool := false
  members : List (BitVec 16) := []
  unroutable : W32 := 0
  stray : W32 := 0
  foreign : W32 := 0
  hostDrop : W32 := 0
  channels : Table Channel := []
  deriving DecidableEq, Repr

end Sys2Proof.Machine
end

