-- ==== Sys2Proof/Machine/StateHost.lean ====
section
/-! DEFINITION. State of the clocks, the timebase, the sessions and the command engine. -/

namespace Sys2Proof.Machine

open Sys2Proof

/-- The clocks of R7 and R29: cycles since reset, and the phase of TCLK and CCLK against ACLK (DESIGN CHOICE, log entry 4). -/
structure Clocks where
  aclk : Nat := 0
  cclk : Nat := 0
  tticks : Nat := 0
  /-- ACLK in units of 50 MHz, 13 to 26 (R387). -/
  units : Nat := 26
  tphase : Nat := 0
  cphase : Nat := 0
  /-- TCLK ticks already taken as the apply tick of a command or as a carry, which the idle step takes back. -/
  ahead : Nat := 0
  deriving DecidableEq, Repr

/-- One entry of the change log of R325. -/
structure TimeChange where
  delta : Int := 0
  /-- TCLK ticks at its apply tick. -/
  tick : Nat := 0
  /-- RX_SEQ the next frame accepted on each MAC would take. -/
  rxSeq : Table Nat := []
  deriving DecidableEq, Repr

/-- Registers of R333 kept once a MAC. -/
structure PtpMac where
  tcEnable : Bool := false
  asym : W32 := 0
  updated : W32 := 0
  stale : W32 := 0
  saturated : W32 := 0
  oneStepSent : W32 := 0
  oneStepSkipped : W32 := 0
  deriving DecidableEq, Repr

/-- Factory trims of one E-port and mode (R326, R333). -/
structure Trim where
  rx : BitVec 16 := 0
  tx : BitVec 16 := 0
  deriving DecidableEq, Repr

/-- A change of the time or of its rate (R318, R323). -/
structure TimeEdge where
  /-- Its tick. -/
  tick : Nat
  /-- The time taken less the time that R316 gives, in 2^-32 ns. -/
  jump : Int
  /-- TIME_INC of the ticks up to it. -/
  inc : BitVec 40
  deriving DecidableEq, Repr

/-- The timebase (R315 to R333). -/
structure Timebase where
  sec : BitVec 48 := 0
  ns : BitVec 30 := 0
  frac : BitVec 32 := 0
  inc : BitVec 40 := 0x0100000000
  valid : Bool := false
  refused : Bool := false
  /-- REFUSED was set in the present CCLK cycle (R20). -/
  refusedNow : Bool := false
  refLost : Bool := false
  pllLocked : Bool := false
  /-- TIME_STATUS SOURCE: false REFCLK, true TREF. -/
  tref : Bool := false
  owner : Option Nat := none
  /-- Change log, latest first, at most 8 entries. -/
  log : List TimeChange := []
  /-- Changes of the latest 65,536 ticks, latest first: what the time was at a mark is read from them (R326, R327). -/
  edges : List TimeEdge := []
  jumpLimit : W32 := 1000
  jumps : W32 := 0
  refusedCount : W32 := 0
  ppsInCount : W32 := 0
  ppsInSec : BitVec 48 := 0
  ppsInNs : BitVec 30 := 0
  ppsWidth : BitVec 9 := 100
  ppsEnable : Bool := false
  /-- Tick at which the pulse in progress on PPS_OUT ends. -/
  ppsEnd : Option Nat := none
  macs : Table PtpMac := []
  /-- Index 8 × E-port + mode code. -/
  trims : Table Trim := []
  deriving DecidableEq, Repr

/-- The path back to the sender of a command (R309), or the management UART (R400). -/
structure Route where
  uart : Bool := false
  sourceRouted : Bool := false
  /-- The command's SRC, DEST of a reply that is not source-routed. -/
  dest : BitVec 16 := 0xFFFF
  origin : BitVec 8 := 32
  inPort : Nat := 32
  hops : List Nat := []
  deriving DecidableEq, Repr

/-- A reply or event packet that has left the command engine (R336, R338): its body, or its frame on the management UART (R400). -/
structure Sent where
  route : Route
  body : List Byte
  deriving DecidableEq, Repr

/-- A reply of R336, but for the fields copied from its command. -/
structure Reply where
  abortLate : Bool := false
  isPartial : Bool := false
  more : Bool := false
  status : Nat := 0
  progress : Nat := 0
  result : List Byte := []
  payload : List Byte := []
  deriving DecidableEq, Repr

/-- An event waiting in a session's queue (R338). -/
structure Event where
  code : Nat
  seq : Nat
  sec : BitVec 48
  ns : BitVec 30
  data : List Byte
  deriving DecidableEq, Repr

/-- What a session has produced and not yet sent, in order (R338). -/
inductive OutItem where
  /-- An event of its queue. -/
  | event (e : Event)
  /-- A reply with MORE set, or the reply of a refused command. -/
  | plain (r : Route) (body : List Byte)
  /-- The terminal reply of the command in flight with this serial number. -/
  | terminal (id : Nat)
  deriving DecidableEq, Repr

/-- A host session (R340). -/
structure Session where
  isOpen : Bool := false
  src : BitVec 16 := 0
  origin : BitVec 8 := 0
  reserve : Nat := 0
  idleLimit : Nat := 0
  /-- Time-of-day-free second count of its last command: TCLK ticks at that command. -/
  lastCommand : Nat := 0
  nextSeq : Nat := 0
  eventsLost : W32 := 0
  route : Route := {}
  outbox : List OutItem := []
  deriving DecidableEq, Repr

/-- A resource that a command names (R342, R346). -/
inductive Res where
  | partition (p : Nat)
  | eport (e : Nat)
  | fport (f : Nat)
  | trigger
  | queue (q : Nat)
  | engine (e : Nat)
  | channel (k : Nat)
  | timebase
  | ringLog
  /-- Device memory from an address, in 32-byte words, within vaults of no partition. -/
  | range (word words : Nat)
  deriving DecidableEq, Repr

/-- Where a command in flight stands. -/
inductive Phase where
  /-- Held back by R346, R385 or FENCE. -/
  | waiting
  /-- Being served: a stepped operation, or one that waits for the canopy. -/
  | active
  /-- Completion recorded, in this CCLK cycle; the terminal reply has not left. -/
  | done (at_ : Nat) (reply : Reply)
  deriving DecidableEq, Repr

/-- A command in flight (R337, R343). -/
structure Flight where
  id : Nat
  op : Op
  pkt : Packet
  phase : Phase
  /-- Units done, as R349 counts them. -/
  progress : Nat := 0
  /-- The whole operation in the same units. -/
  total : Nat := 0
  /-- Firmware steps run when this operation's last step ended (R345). -/
  lastStep : Nat := 0
  /-- Stage of an operation with more than one. -/
  stage : Nat := 0
  /-- What the operation carries from step to step. -/
  acc : List Nat := []
  bytes : List Byte := []
  /-- Words of device memory that its step in progress has still to access (R171, R345). -/
  stepLeft : Nat := 0
  names : List Res := []
  /-- An ABORT or a STOP has reached it: it ends ABORTED at the end of its step in progress (R348, R358). -/
  aborting : Bool := false
  /-- CCLK cycle in which that ABORT arrived: a completion recorded in the same cycle counts as first (R348). -/
  abortAt : Option Nat := none
  deriving DecidableEq, Repr

/-- The command engine and its sessions (R334 to R361). -/
structure HostState where
  sessions : Table Session := []
  flights : List Flight := []
  /-- Serial number of the next command taken. -/
  nextId : Nat := 0
  /-- Firmware steps run. -/
  steps : Nat := 0
  malformed : W32 := 0
  /-- What the present CCLK cycle began with in the RC registers, by address, those not 0; 0 from the read that clears one on (R20). -/
  cycleStart : Table W32 := []
  /-- Packets that left the command engine, oldest first. -/
  sent : List Sent := []
  deriving DecidableEq, Repr

end Sys2Proof.Machine
end

