-- ==== Sys2Proof/Machine/StatePower.lean ====
section
/-! DEFINITION. State of the governor, of ageing and sparing, of the flash, of boot, and of the management pins (R362 to R402, R416 to R428). -/

namespace Sys2Proof.Machine

open Sys2Proof

/-- Voltage and current of a rail as sampled, in mV and mA. -/
structure Rail where
  mv : Nat := 0
  ma : Nat := 0
  deriving DecidableEq, Repr

/-- Causes of an emergency stop (R369). -/
inductive StopCause where
  | command | power | thermal
  deriving DecidableEq, Repr

/-- A target voltage written to the regulator and not acknowledged, with the tick of its latest write (R426). -/
structure AvsWrite where
  target : Nat
  at_ : Nat
  deriving DecidableEq, Repr

/-- A margin re-plan in progress (R374): steps left, the MARGIN_REPLAN that runs it, or none for the periodic one. -/
structure Replan where
  left : Nat
  steps : Nat
  eff : Int
  flight : Option Nat
  deriving DecidableEq, Repr

/-- An ageing monitor (R373). -/
structure Monitor where
  slowdown : Nat := 0
  warn : Bool := false
  deriving DecidableEq, Repr

/-- The governor, the supply detectors, ageing and sparing (R362 to R380). -/
structure Power where
  limit : Nat := 2400
  slew : Nat := 50
  fillLevel : Nat := 80
  limitC : Nat := 100
  maxC : Nat := 0
  /-- Latest samples of P in microwatts, latest first, at most 64. -/
  samples : List Nat := []
  /-- Tick of the latest sample. -/
  sampledAt : Option Nat := none
  /-- Rails 0 VCORE to 8 VIO, in the order of PAGE (R427). -/
  rails : Table Rail := []
  throttle : Nat := 0
  /-- Tick of the latest move of THROTTLE. -/
  throttleMoved : Option Nat := none
  /-- Tick since which P_AVG has exceeded LIMIT at THROTTLE 64. -/
  fullSince : Option Nat := none
  /-- Fill has been lowered for an excess and is not restored yet. -/
  cut : Bool := false
  /-- Fill current of each partition in mA. -/
  fill : Table Nat := []
  /-- Partitions whose fill is held at the level of their Start. -/
  fillOn : BitVec 8 := 0
  /-- Current in mA that fill holds and lowers after an emergency stop, or while RESET_N ramps. -/
  ramp : Nat := 0
  /-- The emergency stop in progress. -/
  estop : Option StopCause := none
  trip : Bool := false
  setpoint : Nat := 750
  maxMv : Nat := 900
  minMv : Nat := 650
  /-- Setpoint that the writes to the regulator move toward. -/
  goal : Nat := 750
  avs : Option AvsWrite := none
  offsetMv : Nat := 0
  replanHours : Nat := 24
  /-- Setpoint to which VCORE returns after the HEALTH_TEST in progress (R379). -/
  testFrom : Option Nat := none
  /-- Tick of the latest periodic re-plan. -/
  replanAt : Nat := 0
  replan : Option Replan := none
  /-- VCORE below warning, as last detected. -/
  warn : Bool := false
  /-- A warning pause is in progress, and the tick it began. -/
  warnPause : Option Nat := none
  hold : Bool := false
  /-- Tick at which VCORE was last seen below recovery in the warning pause (R371). -/
  dipAt : Nat := 0
  brownouts : W32 := 0
  lastPause : W32 := 0
  resetCause : Nat := 0
  monitors : Table Monitor := []
  measuredAt : Option Nat := none
  noSpare : BitVec 20 := 0
  /-- Grafts that await application: bay, failed physical column. -/
  pendGraft : Table (Option Nat) := []
  /-- Retirements that await application: bay, failed physical column, 0xFFFF for a bypass failure. -/
  pendRetire : Table (Option Nat) := []
  deriving DecidableEq, Repr

/-- A profile slot in flash: its bytes, none before the first write, and WRITE_COUNT (R381, R391). -/
structure Slot where
  bytes : Option (List Byte) := none
  writes : Nat := 0
  deriving DecidableEq, Repr

/-- An arbor safe model in flash (R234, R401). -/
structure SafeModel where
  preds : Table Predicate := []
  entries : Table TEntry := []
  predicates : Nat := 0
  trees : Nat := 0
  deriving DecidableEq, Repr

/-- The flash (R381), as the copies in force; the device certificate and the equalisation tables, which nothing changes, are in Config (DESIGN CHOICE, log entry 6). -/
structure Flash where
  /-- Firmware image region up to its last programmed byte; the rest is erased. -/
  firmware : List Byte := []
  slots : Table Slot := []
  floor : Nat := 0
  /-- PUF helper data (R392). -/
  helper : List Byte := []
  trims : Table Trim := []
  grafts : Table Graft := []
  /-- Grafts recorded as in progress, by bay: the failed physical column, and the column steps recorded (R377). -/
  grafting : Table (Option (Nat × Nat)) := []
  /-- Birth periods of the ageing monitors less 10,000 (R373). -/
  births : Table Int := []
  redirects : List Repair := []
  unrepaired : List RowId := []
  repairs : Nat := 0
  offsetMv : Nat := 0
  safe : Table (Option SafeModel) := []
  deriving DecidableEq, Repr

/-- Where the device stands with its reset. -/
inductive ResetPhase where
  /-- Out of reset: booting, ready or in recovery. -/
  | running
  /-- RESET_N recognised, VCORE current ramping to idle (R417). -/
  | ramping
  /-- In reset until RESET_N rises with PWR_GOOD high (R416, R417). -/
  | inReset
  /-- Holding itself in reset until every rail has stayed above its reset level for 1 ms (R371). -/
  | supplyHold
  deriving DecidableEq, Repr

/-- Boot steps of R383, in order. -/
inductive BootStage where
  | rom | profile | identity | tables | training | selfTest | tested | ready | recovery
  deriving DecidableEq, Repr

/-- Boot, the profile in force and the running firmware (R382 to R402). -/
structure Boot where
  phase : ResetPhase := .running
  stage : BootStage := .rom
  /-- RECOVERY_CAUSE. -/
  cause : Nat := 0
  identityOk : Bool := false
  /-- The identity key in security SRAM, 0 before boot has formed it (R392). -/
  identityKey : Nat := 0
  /-- Boot firmware has loaded the profile registers (R402). -/
  loaded : Bool := false
  fwVersion : W32 := 0
  fwSecurity : BitVec 16 := 0
  fwDigest : List Byte := []
  /-- FLOOR as the boot ROM loaded it. -/
  floor : Nat := 0
  validSlots : BitVec 4 := 0
  lockedSlots : BitVec 4 := 0
  fallback : Bool := false
  byCommand : Bool := false
  builtIn : Bool := false
  slot : Nat := 0
  /-- The 1,024 bytes of the profile in force. -/
  profile : List Byte := []
  /-- A claim of recovery: SRC and ORIGIN_PORT of its link; the UART has one of its own. -/
  claim : Option (BitVec 16 × BitVec 8) := none
  received : Nat := 0
  /-- A recovered image is valid: boot restarts once the reply that says so has left (R399, R400). -/
  restart : Bool := false
  deriving DecidableEq, Repr

/-- Levels of the board's pins that the device samples (R382, R416, R417): true is high. -/
structure Pins where
  resetN : Bool := true
  pwrGood : Bool := true
  /-- PROFILE_SEL as sampled at the latest rising edge of RESET_N. -/
  profileSel : BitVec 2 := 0
  /-- PMB_ADDR as sampled at that edge. -/
  pmbAddr : BitVec 3 := 0
  deriving DecidableEq, Repr

/-- The PMBus target (R427, R428). -/
structure Pmbus where
  page : Byte := 0
  status : BitVec 16 := 0
  /-- The latest transaction was acknowledged. -/
  acked : Bool := false
  /-- Bytes it returned. -/
  answer : List Byte := []
  deriving DecidableEq, Repr

/-- The JTAG port (R425). -/
structure Jtag where
  ir : Byte := 0x01
  /-- The boundary register. -/
  boundary : BitVec 42 := 0
  /-- The data register that the instruction selects, as last captured: identification, boundary or bypass. -/
  captured : BitVec 42 := 0
  deriving DecidableEq, Repr

/-- The management interfaces. -/
structure Mgmt where
  pmbus : Pmbus := {}
  jtag : Jtag := {}
  deriving DecidableEq, Repr

end Sys2Proof.Machine
end

