-- ==== Sys2Proof/Machine/StateRing.lean ====
section
/-! DEFINITION. State of the folds and of the ring log (R206 to R215). -/

namespace Sys2Proof.Machine

open Sys2Proof

/-- The fold tables of one step (R207). -/
structure FoldTables where
  /-- Entries by layer; the tail is 4096. -/
  table : Table W64 := []
  /-- Vault step folds and capture folds, by relative vault id. -/
  vstep : Table W64 := []
  vcap : Table W64 := []
  cutRange : Bool := false
  deriving DecidableEq, Repr

/-- A completed step whose ring record is not written yet (R211). -/
structure StepDone where
  deviceFold : W64
  digest : List Byte
  cutRange : Bool
  skew : Bool
  images : List W64
  seed : W64
  layers : Nat
  bays : Nat
  deriving DecidableEq, Repr

/-- A held ring record. -/
structure RingRec where
  index : Nat
  bytes : List Byte
  read : Bool := false
  deriving DecidableEq, Repr

/-- The ring log. -/
structure RingLog where
  active : Bool := false
  /-- Partition of the latest accepted RING_START (R214). -/
  part : Option Nat := none
  captureReg : BitVec 16 := 0xFFFF
  /-- CAPTURE in force for the open step. -/
  capture : Nat := 0xFFFF
  /-- Running folds F[r] by 16 × relative vault + r (R206). -/
  folds : Table W64 := []
  /-- Step cuts each vault has accepted since RING_START. -/
  cuts : Table Nat := []
  /-- Steps completed since RING_START. -/
  completed : Nat := 0
  /-- Tables of the open step and of the next. -/
  openStep : FoldTables := {}
  nextStep : FoldTables := {}
  /-- The held tables, and the STEP they belong to. -/
  held : FoldTables := {}
  heldStep : Option W64 := none
  skew : Bool := false
  due : List StepDone := []
  records : List RingRec := []
  seals : List RingRec := []
  lost : W32 := 0
  nextIndex : W64 := 0
  prevHash : List Byte := []
  firstStep : W64 := 0
  rank : W32 := 0
  devices : W32 := 0
  runId : List Byte := []
  signInterval : Nat := 0
  /-- Counts of R203. -/
  mismatch : W32 := 0
  poison : W32 := 0
  nonfinite : W32 := 0
  deriving DecidableEq, Repr

end Sys2Proof.Machine
end

