-- ==== Sys2Proof/Machine/StateStream.lean ====
section
/-! DEFINITION. State of the stream ingress endpoints and of the trigger engine (R238 to R259, R434). -/

namespace Sys2Proof.Machine

open Sys2Proof

/-- Metadata of an accepted frame (R247). -/
structure FrameMeta where
  sec : BitVec 48
  ns : BitVec 30
  channel : Nat
  sequence : Nat
  seq : Nat
  /-- QUEUE_WAIT, once the header has been delivered. -/
  wait : Nat := 0
  notAccepted : Nat
  pauses : Nat
  deriving DecidableEq, Repr

/-- An accepted frame whose delivery has not ended (R243, R245); its words lie in the ingress queue. -/
structure StreamFrame where
  seq : Nat
  lane : Nat
  /-- Header and payload words. -/
  words : Nat
  /-- Its first cell, counted as WR counts. -/
  cell : Nat
  /-- Cycle that the ingress contract allows its header. -/
  allowed : Nat
  /-- Words delivered. -/
  sent : Nat := 0
  /-- QUEUE_WAIT, from its header's delivery on. -/
  wait : Nat := 0
  deriving DecidableEq, Repr

/-- A stream frame as its blocks give it (R240). -/
structure RawFrame where
  /-- The data blocks: the header, then the payload. -/
  data : List W64
  /-- Bytes 4 to 7 of the END block. -/
  crc : W32
  /-- An invalid or unexpected control block inside the frame. -/
  bad : Bool
  deriving DecidableEq, Repr

/-- A frame whose END block has arrived in the present cycle (R243, R244). -/
structure StreamEnd where
  lane : Nat
  frame : RawFrame
  /-- TCLK ticks since its START block reached the deframer. -/
  since : Nat
  deriving DecidableEq, Repr

/-- A stream ingress endpoint (R242). -/
structure Stream where
  enable : Bool := false
  port : Nat := 0
  mask : BitVec 8 := 0
  queue : Nat := 0
  accepted : W32 := 0
  drop : W32 := 0
  crc : W32 := 0
  malformed : W32 := 0
  stopped : W32 := 0
  nextSeq : Nat := 0
  /-- Running count of frames not accepted. -/
  notAccepted : Nat := 0
  /-- Metadata by INGRESS_SEQ modulo 1,024. -/
  ring : Table (Option FrameMeta) := []
  frames : List StreamFrame := []
  /-- Cycle of the latest sample frame. -/
  deliveredAt : Option Nat := none
  /-- Cycle and INGRESS_SEQ of the two latest words delivered. -/
  recent : List (Nat × Nat) := []
  /-- Frame of which a word was lost to a full virtual queue (R245). -/
  lost : Option Nat := none
  deriving DecidableEq, Repr

/-- Registers of a trigger channel (R251, R259). -/
structure ChanCfg where
  source : Nat := 0
  polarity : Bool := false
  endpoint : Nat := 0
  rawWord : Nat := 0
  rawHalf : Bool := false
  pin : Nat := 0
  level : W32 := 0
  hyst : W32 := 0
  deriving DecidableEq, Repr

/-- What gave a channel its firing value (R255). -/
inductive Cause where
  | frame (endpoint seq : Nat)
  /-- A pin change: time and pause count. -/
  | pin (sec : BitVec 48) (ns : BitVec 30) (pauses : Nat)
  deriving DecidableEq, Repr

/-- A trigger channel. -/
structure TrigChan where
  reg : ChanCfg := {}
  cfg : ChanCfg := {}
  armed : Bool := false
  release : W32 := 0
  /-- State once its latest change has come into effect. -/
  high : Bool := false
  /-- The latest changes, newest first: the first cycle of each state (an output looks one cycle back). -/
  changes : List (Nat × Bool) := []
  /-- The latest cycles in which it fired, newest first, and why. -/
  fires : List (Nat × Cause) := []
  deriving DecidableEq, Repr

/-- Registers of an output (R253). -/
structure OutCfg where
  holdoff : Nat := 13
  width : Nat := 13
  orMask : W64 := 0
  andMask : W64 := 0
  deriving DecidableEq, Repr

/-- A trigger output. -/
structure TrigOut where
  reg : OutCfg := {}
  cfg : OutCfg := {}
  armed : Bool := false
  holdEnd : Nat := 0
  /-- Latest cycle evaluated. -/
  evalAt : Option Nat := none
  /-- Decision cycle and width of the pulses that TRIG_OUT carries or is about to carry, oldest first. -/
  pulses : List (Nat × Nat) := []
  /-- Frames of each endpoint not accepted up to the output's latest record that was written (R255). -/
  droppedAt : Table Nat := []
  deriving DecidableEq, Repr

/-- States of a capture unit (R257). -/
inductive CapState where
  | idle | armed | post | frozen
  deriving DecidableEq, Repr

/-- Registers of a capture unit. -/
structure CapCfg where
  source : Nat := 0
  queue : Nat := 0
  post : Nat := 0
  deriving DecidableEq, Repr

/-- A capture unit. -/
structure Capture where
  reg : CapCfg := {}
  cfg : CapCfg := {}
  state : CapState := .idle
  /-- Frames still to write in POST. -/
  left : Nat := 0
  captureWr : W32 := 0
  deriving DecidableEq, Repr

/-- A decision record of the present cycle (R255). -/
structure DecRecord where
  out : Nat
  /-- Frames of each endpoint not accepted up to it. -/
  seen : Table Nat
  bytes : List Byte
  deriving DecidableEq, Repr

/-- The receiver of a stream lane (R238): the block lock of IEEE 802.3 Clause 49, with the sync headers counted since its latest
decision and the invalid ones among them, and the last 58 scrambled bits, the latest in bit 0 (PRESUMED, log entry 47). -/
structure StreamLane where
  locked : Bool := false
  count : Nat := 0
  invalid : Nat := 0
  scrambled : BitVec 58 := 0
  deriving DecidableEq, Repr

/-- The trigger engine and the ingress endpoints. -/
structure Trigger where
  owner : Option Nat := none
  streams : Table Stream := []
  unbound : W32 := 0
  /-- Receivers of the stream lanes (R238). -/
  lanes : Table StreamLane := []
  decEnableReg : Bool := false
  decQueueReg : Nat := 0
  decEnable : Bool := false
  decQueue : Nat := 0
  nan : W32 := 0
  poison : W32 := 0
  suppressed : W32 := 0
  decLost : W32 := 0
  capLost : W32 := 0
  chans : Table TrigChan := []
  outs : Table TrigOut := []
  caps : Table Capture := []
  /-- Levels of TRIG_IN. -/
  pins : BitVec 4 := 0
  /-- Pin changes sampled during a pause, not yet seen by the channels. -/
  waiting : List (Nat × Bool × Cause) := []
  /-- Frames ended in the present cycle (R244). -/
  ended : List StreamEnd := []
  /-- Decision records of the present cycle (R253). -/
  records : List DecRecord := []
  deriving DecidableEq, Repr

end Sys2Proof.Machine
end

