-- ==== Sys2Proof/Machine/State.lean ====
section
/-! DEFINITION. The state of the block, its reset, and the reasons for which a step can stop. -/

namespace Sys2Proof.Machine

open Sys2Proof

/-- Which part it is (R1 to R3): the ordering code and the stepping (DESIGN CHOICE, log entry 2). -/
structure Part where
  /-- CLR-9400X2, with two DRAM dies a stack. -/
  x2 : Bool := false
  /-- Stepping B0. -/
  b0 : Bool := false
  deriving DecidableEq, Repr

/-- The state of the block: everything the spec gives it, and the queue of commands waiting. -/
structure State where
  /-- Commands waiting, first in first out. -/
  pending : List Instr := []
  part : Part := {}
  /-- The model's own counter behind free values. -/
  fresh : Nat := 0
  clk : Clocks := {}
  time : Timebase := {}
  host : HostState := {}
  canopy : Canopy := {}
  vaults : Vaults := {}
  queues : Table Spill := []
  ring : RingLog := {}
  fabric : Fabric := {}
  arbor : Arbor := {}
  trig : Trigger := {}
  eth : Ethernet := {}
  power : Power := {}
  flash : Flash := {}
  boot : Boot := {}
  pins : Pins := {}
  mgmt : Mgmt := {}
  deriving DecidableEq, Repr

/-- Why a command stops the model. -/
inductive Fault where
  /-- An operand names no unit of the part (a tile outside the array, a queue above 255). Raised by the shared
  accessors of units. Safe: the part has no such unit, so no such command exists. -/
  | noSuchUnit
  deriving DecidableEq, Repr

/-- Why a command is refused. -/
inductive Refusal where
  /-- The command of this name has no meaning yet. Raised by `exec` alone. Safe: nothing is said of the command. -/
  | notModelled (mnemonic : String)
  deriving DecidableEq, Repr

/-- The machine right after reset: every field at the value the spec gives, or the log names (DESIGN CHOICE, log entries 2, 5, 6). -/
def State.reset : State := {}

end Sys2Proof.Machine
end

