-- ==== Sys2Proof/Machine/Ops.lean ====
section
/-! DEFINITION. Operations shared by the commands: units, events, completions, partitions, tiles, tokens, and raising a fault. -/

namespace Sys2Proof.Machine

open Sys2Proof

/-! ### Units -/

/-- The next state, or the stop for an operand that names no unit of the part (DESIGN CHOICE, log entry 38). -/
def guardUnit (ok : Bool) (t : State) : Host.Outcome State Fault Refusal :=
  if ok then .next t else .fault .noSuchUnit

/-- A logical tile exists (R15). -/
def isTile (col row : Nat) : Bool := decide (col < 640) && decide (row < 512)

/-- Take a free number (DESIGN CHOICE, log entry 3). -/
def takeFree (s : State) : Nat × State := (Config.freeNat s.fresh, { s with fresh := s.fresh + 1 })

/-- The target does not acknowledge its address while in reset (DEDUCED, log entry 10). -/
def inReset (s : State) : Bool := s.boot.phase == .inReset || s.boot.phase == .supplyHold

/-! ### Sessions and events (R338, R339) -/

/-- A session. -/
def getSession (s : State) (i : Nat) : Session := Table.get {} s.host.sessions i

/-- Changing a session. -/
def updSession (i : Nat) (f : Session → Session) (s : State) : State :=
  { s with host := { s.host with sessions := Table.upd {} s.host.sessions i f } }

/-- Whether an item of the outbox is an event. -/
def OutItem.isEvent : OutItem → Bool
  | .event _ => true
  | _ => false

/-- Raise an event for a session: queued, or lost when 256 are waiting; nothing for a closed session (R338, R341). -/
def postEvent (i code : Nat) (data : List Byte) (s : State) : State :=
  if (getSession s i).isOpen then
    updSession i (fun x =>
      let e : Event := { code := code, seq := x.nextSeq, sec := s.time.sec, ns := s.time.ns, data := padTo 32 data }
      if (x.outbox.filter OutItem.isEvent).length < 256 then
        { x with nextSeq := x.nextSeq + 1, outbox := x.outbox ++ [.event e] }
      else { x with nextSeq := x.nextSeq + 1, eventsLost := satAdd x.eventsLost 1 }) s
  else s

/-- Raise an event for a resource's owner; one with no owner is sent to no session (R339). -/
def postOwner (o : Option Nat) (code : Nat) (data : List Byte) (s : State) : State :=
  match o with
  | some i => postEvent i code data s
  | none => s

/-- Raise an event for every open session. -/
def postAll (code : Nat) (data : List Byte) (s : State) : State :=
  (List.range 8).foldl (fun s i => postEvent i code data s) s

/-! ### Commands in flight -/

/-- The command in flight with a serial number. -/
def findFlight (s : State) (id : Nat) : Option Flight := s.host.flights.find? (fun f => f.id == id)

/-- Changing one command in flight. -/
def updFlight (id : Nat) (g : Flight → Flight) (s : State) : State :=
  { s with host := { s.host with flights := s.host.flights.map (fun f => if f.id == id then g f else f) } }

/-- Whether a completion is recorded. -/
def Phase.isDone : Phase → Bool
  | .done _ _ => true
  | _ => false

/-- A completion of a command that an ABORT has reached, in a CCLK cycle: one of its own recorded in the cycle of the first
ABORT's arrival counts as first, and a later one replies ABORTED with its effect whole. `again` says that an ABORT has arrived in
the cycle; one that did not end the command comes late (R348, R349) (DEDUCED, log entry 13). -/
def Flight.settled (f : Flight) (cclk : Nat) (again : Bool) (r : Reply) : Reply :=
  let first := f.abortAt == some cclk
  if !f.aborting then r
  else if r.status == 2 then { r with abortLate := r.abortLate || (again && !first) }
  else if first then { r with abortLate := true }
  else { r with status := 2, isPartial := r.status != 0 || (f.op == .step && r.isPartial), abortLate := again }

/-- A command is an ABORT, in a CCLK cycle, of the command with a serial number. -/
def Flight.abortsIn (g : Flight) (cclk id : Nat) : Bool := g.op == .abort && g.acc[0]? == some id && g.acc[2]? == some cclk

/-- The ABORTs that came in a cycle in which their command's completion was first answer LATE (R347, R348) (DEDUCED, log entry 13). -/
def abortsLate (id : Nat) (s : State) : State :=
  { s with host := { s.host with flights := s.host.flights.map (fun g =>
    if g.abortsIn s.clk.cclk id then { g with acc := [id, 1, s.clk.cclk] } else g) } }

/-- Record a completion: the terminal reply is produced and waits to leave (R337). -/
def complete (id : Nat) (r : Reply) (s : State) : State :=
  match findFlight s id with
  | none => s
  | some f =>
    if f.phase.isDone then s
    else
      let r := f.settled s.clk.cclk (s.host.flights.any (fun g => g.abortsIn s.clk.cclk id)) r
      let s := if r.abortLate then abortsLate id s else s
      updSession f.pkt.session.toNat (fun x => { x with outbox := x.outbox ++ [.terminal id] })
        (updFlight id (fun f => { f with phase := .done s.clk.cclk r }) s)

/-- Status codes of R429. -/
def stOk : Nat := 0x0000
def stAborted : Nat := 0x0002
def stBadOpcode : Nat := 0x0010
def stBadParam : Nat := 0x0011
def stDenied : Nat := 0x0012
def stTagInUse : Nat := 0x0013
def stTooMany : Nat := 0x0014
def stSignature : Nat := 0x0020
def stGeometry : Nat := 0x0021
def stLatency : Nat := 0x0022
def stNotEmpty : Nat := 0x0023
def stJump : Nat := 0x0030
def stSpare : Nat := 0x0040
def stLocked : Nat := 0x0041
def stInternal : Nat := 0x00F0

/-! ### Partitions and contexts -/

/-- A partition. -/
def getPart (s : State) (p : Nat) : Partition := Table.get {} s.canopy.parts p

/-- Changing a partition. -/
def updPart (p : Nat) (f : Partition → Partition) (s : State) : State :=
  { s with canopy := { s.canopy with parts := Table.upd {} s.canopy.parts p f } }

/-- A context of a partition. -/
def Partition.ctx (x : Partition) (c : Nat) : Ctx := Table.get {} x.ctxs c

/-- Changing a context. -/
def Partition.updCtx (x : Partition) (c : Nat) (f : Ctx → Ctx) : Partition :=
  { x with ctxs := Table.upd {} x.ctxs c f }

/-- First logical column and column count of a partition (R74). -/
def Partition.firstCol (x : Partition) : Nat := 32 * x.firstBay
def Partition.cols (x : Partition) : Nat := 32 * x.bays

/-- A column of the partition. -/
def Partition.hasCol (x : Partition) (col : Nat) : Bool :=
  x.valid && decide (x.firstCol ≤ col) && decide (col < x.firstCol + x.cols)

/-- The partition of a logical column. -/
def partOf (s : State) (col : Nat) : Option Nat := (List.range 8).find? (fun p => (getPart s p).hasCol col)

/-- RUNNING or DRAINING. -/
def CtxState.issues : CtxState → Bool
  | .running | .draining => true
  | _ => false

/-- A context of the partition is RUNNING or DRAINING. -/
def Partition.busy (x : Partition) : Bool := (List.range 4).any (fun c => (x.ctx c).state.issues)

/-- A context is resident (R43). -/
def CtxState.resident : CtxState → Bool
  | .empty | .loading => false
  | _ => true

/-- Code of R63. -/
def CtxState.code : CtxState → Nat
  | .empty => 0 | .loaded => 1 | .running => 2 | .draining => 3 | .drained => 4 | .faulted => 5 | .loading => 6

/-! ### Tiles -/

/-- Index of a tile. -/
def tileKey (col row : Nat) : Nat := 512 * col + row

/-- A tile. -/
def getTile (s : State) (col row : Nat) : Tile := Table.get {} s.canopy.tiles (tileKey col row)

/-- Changing a tile. -/
def updTile (col row : Nat) (f : Tile → Tile) (s : State) : State :=
  { s with canopy := { s.canopy with tiles := Table.upd {} s.canopy.tiles (tileKey col row) f } }

/-- Parts of a tile. -/
def Tile.ctx (t : Tile) (c : Nat) : TileCtx := Table.get {} t.ctxs c
def Tile.updCtx (t : Tile) (c : Nat) (f : TileCtx → TileCtx) : Tile := { t with ctxs := Table.upd {} t.ctxs c f }
def Tile.inp (t : Tile) (d : Nat) : InLink := Table.get {} t.ins d
def Tile.updIn (t : Tile) (d : Nat) (f : InLink → InLink) : Tile := { t with ins := Table.upd {} t.ins d f }
def Tile.out (t : Tile) (d : Nat) : OutLink := Table.get {} t.outs d
def Tile.updOut (t : Tile) (d : Nat) (f : OutLink → OutLink) : Tile := { t with outs := Table.upd {} t.outs d f }
def Tile.word (t : Tile) (a : Nat) : ScrWord := Table.get {} t.scratch a
def Tile.setWord (t : Tile) (a : Nat) (w : ScrWord) : Tile := { t with scratch := Table.set {} t.scratch a w }

/-- Virtual queue of a context on an input link. -/
def InLink.queue (l : InLink) (c : Nat) : List Tok := Table.get [] l.queues c
def InLink.updQueue (l : InLink) (c : Nat) (f : List Tok → List Tok) : InLink :=
  { l with queues := Table.upd [] l.queues c f }

/-- Entries of a virtual queue in use. -/
def InLink.held (l : InLink) (c : Nat) : Nat := (l.queue c).length + (if c == 0 then l.behind.length else 0)

/-- Depth of a virtual queue (R51). -/
def InLink.depth (l : InLink) (c : Nat) : Nat := l.split.getD c 0

/-- General registers and predicate bits (R37, R42). -/
def TileCtx.reg (x : TileCtx) (i : Nat) : Val := Table.get {} x.g i
def TileCtx.setReg (x : TileCtx) (i : Nat) (v : Val) : TileCtx := { x with g := Table.set {} x.g i v }
def TileCtx.pred (x : TileCtx) (i : Nat) : Bool := i == 0 || x.pb.getLsbD i
def TileCtx.setPred (x : TileCtx) (i : Nat) (b : Bool) : TileCtx :=
  if i == 0 then x
  else { x with pb := if b then x.pb ||| (1#8 <<< i) else x.pb &&& ~~~(1#8 <<< i) }

/-- The neighbour in a direction N 0, E 1, S 2, W 3, none at the array's edge. -/
def neighbour (col row d : Nat) : Option (Nat × Nat) :=
  match d with
  | 0 => if row == 0 then none else some (col, row - 1)
  | 1 => if col + 1 < 640 then some (col + 1, row) else none
  | 2 => if row + 1 < 512 then some (col, row + 1) else none
  | _ => if col == 0 then none else some (col - 1, row)

/-- The opposite direction. -/
def opposite (d : Nat) : Nat := (d + 2) % 4

/-- The edge-port side of a link, if it is one (R60): 0 for N of row 0, 1 for S of row 511. -/
def edgeSide (row d : Nat) : Option Nat :=
  if d == 0 && row == 0 then some 0 else if d == 2 && row == 511 then some 1 else none

/-- Index of an endpoint in `Canopy.edges`. -/
def edgeKey (unit index : Nat) : Nat := 65536 * unit + index

/-- Tokens on the edge link toward an endpoint. -/
def getEdge (s : State) (unit index : Nat) : List WireTok := Table.get [] s.canopy.edges (edgeKey unit index)

/-- Changing them. -/
def updEdge (unit index : Nat) (f : List WireTok → List WireTok) (s : State) : State :=
  { s with canopy := { s.canopy with edges := Table.upd [] s.canopy.edges (edgeKey unit index) f } }

/-! ### Images -/

/-- The last tile map entry that covers a tile, columns relative to the partition (R159). -/
def Image.entry (im : Image) (rc row : Nat) : Option MapEntry :=
  im.tiles.reverse.find? (fun e =>
    decide (e.colFirst ≤ rc) && decide (rc ≤ e.colLast) && decide (e.rowFirst ≤ row) && decide (row ≤ e.rowLast))

/-- A NOP: every selector NONE (R116, R119). -/
def nopWord : BitVec 96 := BitVec.ofNat 96 (0x1FFFFFF * 2 ^ 61)

/-- The block of a section that an index names; 0xFFFF names none (R159). -/
def blockAt {α : Type} (bs : List α) (i : Nat) : Option α := if i == 0xFFFF then none else bs[i]?

/-- Instruction word at an index; 64 NOPs where no entry or block covers the tile. -/
def Image.codeAt (im : Image) (rc row pc : Nat) : BitVec 96 :=
  ((((im.entry rc row).bind (fun e => blockAt im.code e.code)).getD [])).getD pc nopWord

/-- Route word of a tile (R159). -/
def Image.routeAt (im : Image) (rc row : Nat) : W32 :=
  ((im.entry rc row).bind (fun e => blockAt im.routes e.route)).getD 0

/-- Schedule of a tile (R59, R159). -/
def Image.schedAt (im : Image) (rc row : Nat) : BitVec 256 :=
  ((im.entry rc row).bind (fun e => blockAt im.scheds e.sched)).getD 0

/-- The edge-port binding of a column and side. -/
def Image.portAt (im : Image) (rc side : Nat) : Option EdgePort :=
  im.ports.find? (fun e => e.col == rc && e.side == side)

/-- The endpoint an edge port is bound to by a resident context, with that context (R60). -/
def boundPort (s : State) (p col side : Nat) : Option (Nat × EdgePort) :=
  let x := getPart s p
  (List.range 4).findSome? (fun c =>
    if (x.ctx c).state.resident then ((x.ctx c).image.portAt (col - x.firstCol) side).map (fun e => (c, e)) else none)

/-- Where an endpoint is bound: partition, context, column and row (R60). -/
def boundTo (s : State) (unit index : Nat) : Option (Nat × Nat × Nat × Nat) :=
  (List.range 8).findSome? (fun p =>
    let x := getPart s p
    if !x.valid then none
    else (List.range 4).findSome? (fun c =>
      if (x.ctx c).state.resident then
        ((x.ctx c).image.ports.find? (fun e => e.unit == unit && e.index == index)).map
          (fun e => (p, c, x.firstCol + e.col, if e.side == 0 then 0 else 511))
      else none))

/-! ### Tokens of a context (R64) -/

/-- Tiles of a partition that the table lists: index and tile. -/
def partTiles (s : State) (p : Nat) : List (Nat × Tile) :=
  s.canopy.tiles.filter (fun kv => (getPart s p).hasCol (kv.1 / 512))

/-- Tokens of a context in one input link. -/
def InLink.count (l : InLink) (c : Nat) : Nat :=
  (l.queue c).length + (match l.pass with | some k => if k.ctx == c then 1 else 0 | none => 0)
    + (l.wire.filter (fun w => w.tok.ctx == c)).length + ((l.spilled ++ l.behind).filter (fun k => k.ctx == c)).length

/-- Tokens of a context in one tile. -/
def Tile.count (t : Tile) (c : Nat) : Nat := ((List.range 4).map (fun d => (t.inp d).count c)).sum

/-- Tokens of a context in its partition, edge-port buffers included. -/
def tokenCount (s : State) (p c : Nat) : Nat :=
  ((partTiles s p).map (fun kv => kv.2.count c)).sum
    + (((getPart s p).ctx c).image.ports.map (fun e => ((getEdge s e.unit e.index).filter (fun w => w.tok.ctx == c)).length)).sum

/-- A late result that a pending bit stands for: a scratch word has none (R37). -/
def Micro.pends : Micro → Bool
  | .late (.g _) _ | .late (.pb _) _ => true
  | _ => false

/-- A tile has a queue entry or a pending bit of the context. -/
def Tile.outstanding (t : Tile) (c : Nat) : Bool :=
  t.vq.any (fun r => r.ctx == c) || t.dues.any (fun d => d.ctx == c && d.op.pends)
    || (match t.dot with | some d => d.ctx == c | none => false)
    || (match t.cvt with | some d => d.ctx == c | none => false)

/-- TOKENS_PRESENT of R64. -/
def tokensPresent (s : State) (p c : Nat) : Bool :=
  decide (0 < tokenCount s p c) || (partTiles s p).any (fun kv => kv.2.outstanding c)

/-- The sending side of a link with the credits of a context whole. -/
def OutLink.clear (o : OutLink) (c : Nat) : OutLink :=
  { o with used := o.used.set c 0, returns := o.returns.filter (fun r => r.1 != c) }

/-- A credit of a context is consumed, or is on its way back (R56). -/
def OutLink.take (o : OutLink) (c : Nat) : OutLink := { o with used := o.used.set c (o.used.getD c 0 + 1) }
def OutLink.free (o : OutLink) (c now : Nat) : OutLink := { o with returns := o.returns ++ [(c, now)] }

/-- The credits freed in earlier cycles are back (R56) (DEDUCED, log entry 20). -/
def OutLink.settle (o : OutLink) (now : Nat) : OutLink :=
  let back := o.returns.filter (fun r => decide (r.2 + 1 ≤ now))
  { o with
    used := back.foldl (fun u r => u.set r.1 (u.getD r.1 0 - 1)) o.used
    returns := o.returns.filter (fun r => !decide (r.2 + 1 ≤ now)) }

/-- A tile without the tokens of a context; its credits of that context are whole again. -/
def Tile.discard (t : Tile) (c : Nat) : Tile :=
  let t := (List.range 4).foldl (fun t d => t.updIn d (fun l =>
    { l with
      wire := l.wire.filter (fun w => w.tok.ctx != c)
      queues := Table.set [] l.queues c []
      pass := l.pass.bind (fun k => if k.ctx == c then none else some k)
      spilled := l.spilled.filter (fun k => k.ctx != c)
      behind := l.behind.filter (fun k => k.ctx != c)
      unit := l.unit.clear c })) t
  (List.range 4).foldl (fun t d => t.updOut d (fun o => o.clear c)) t

/-- Discard every token of a context in its partition (R65, R67, R350). -/
def discardTokens (p c : Nat) (s : State) : State :=
  let ports := ((getPart s p).ctx c).image.ports
  let s := { s with canopy := { s.canopy with tiles := Table.mapAll {} (fun k t =>
    if (getPart s p).hasCol (k / 512) then t.discard c else t) s.canopy.tiles } }
  ports.foldl (fun s e => updEdge e.unit e.index (fun ws => ws.filter (fun w => w.tok.ctx != c)) s) s

/-! ### Faults (R163 to R166) -/

/-- Order of R164. -/
def FaultRec.le (a b : FaultRec) : Bool :=
  decide (a.col < b.col) || (a.col == b.col &&
    (decide (a.row < b.row) || (a.row == b.row &&
      (decide (a.ctx < b.ctx) || (a.ctx == b.ctx && decide (a.code ≤ b.code))))))

/-- Add a record to the log of a partition, in the order of R164 within its cycle; one that finds the log full is lost. -/
def Partition.logFault (now : Nat) (x : Partition) (r : FaultRec) : Partition :=
  let base := match x.logMark with
    | some (t, i) => if t == now then i else x.log.length
    | none => x.log.length
  let l := x.log.take base ++ insertBy FaultRec.le r (x.log.drop base)
  if l.length ≤ 64 then { x with log := l, logMark := some (now, base) }
  else { x with log := l.take 64, logMark := some (now, base), lost := min 255 (x.lost + 1) }

/-- A DRAIN that has been served leaves its context LOADED with its inputs stopped (R349) (DEDUCED, log entry 13). -/
def closeInputs (p c : Nat) (s : State) : State :=
  updPart p (fun x => x.updCtx c (fun k => if k.state == .loaded then { k with inputsStopped := true } else k)) s

/-- End the DRAINs in flight on a partition that a stop has overtaken, those that still wait among them (R65, R349, R358). -/
def endDrains (p : Nat) (s : State) : State :=
  s.host.flights.foldl (fun s f =>
    if f.op == .drain && f.pkt.params.extractLsb' 0 8 == BitVec.ofNat 8 p && !f.phase.isDone then
      let s := if f.phase == .active then closeInputs p (fldN f.pkt.params 8 8) s else s
      complete f.id { status := stAborted, isPartial := true, progress := tokenCount s p (fldN f.pkt.params 8 8) } s
    else s) s

/-- No instruction issues after this cycle: contexts that ran become LOADED and may still issue in this cycle, and the
edge ports close (R163 steps 2 and 3, R358) (DEDUCED, log entry 42). -/
def stopPartition (p : Nat) (s : State) : State :=
  let now := s.canopy.now
  updPart p (fun x =>
    let x := (List.range 4).foldl (fun x c => x.updCtx c (fun k =>
      if k.state.issues then { k with state := .loaded, tail := some now, drainEnd := none } else k)) x
    { x with portsClosed := true, stopped := some now }) s

/-- Raise a fault in the present cycle: the record is logged, the faulting contexts become FAULTED and the partition
stops (R163). `rc` is the context the record names, `others` further faulting contexts, `count` false for an F10 raised
by a token's arrival (DEDUCED, log entry 42). -/
def raiseFault (p code col row rc index : Nat) (detail : W32) (others : List Nat) (count : Bool) (s : State) : State :=
  let now := s.canopy.now
  let x := getPart s p
  let secondary := match x.stopped, x.firstRec with
    | some f, some _ => decide (f < now)
    | _, _ => false
  let r : FaultRec :=
    { code := code, secondary := secondary, col := col, row := row, ctx := rc, index := index, cycle := now - x.start,
      imageId := if count then (x.ctx rc).imageId else 0, detail := detail }
  let hit := if count then rc :: others else []
  let s := if x.busy || (x.stopped != some now && x.firstRec.isNone) then stopPartition p s else s
  let s := updPart p (fun x =>
    let x := x.logFault now r
    let x := if secondary then x
      else { x with firstRec := match x.firstRec with
        | some r0 => if x.stopped == some now && !FaultRec.le r0 r then some r else some r0
        | none => some r }
    hit.foldl (fun x c => x.updCtx c (fun k =>
      if k.state.resident then { k with state := .faulted, faultCount := min 255 (k.faultCount + 1) } else k)) x) s
  endDrains p s

/-- The bytes of a fault record (R165), with its partition and place in the log. -/
def FaultRec.bytes (r : FaultRec) (p seq : Nat) : List Byte :=
  leBytes 1 r.code ++ leBytes 1 (b2n r.secondary) ++ leBytes 2 r.col ++ leBytes 2 r.row
    ++ leBytes 1 (r.ctx % 4 + 16 * (p % 8)) ++ leBytes 1 r.index ++ leBytes 8 r.cycle ++ w64Bytes r.imageId
    ++ leBytes 4 r.detail.toNat ++ leBytes 2 seq ++ leBytes 2 0

/-! ### Moves of VCORE (R362, R426) -/

/-- A setpoint within the profile's limits. -/
def clampMv (s : State) (mv : Nat) : Nat := max (max 650 s.power.minMv) (min (min 900 s.power.maxMv) mv)

/-- Write the next target to the regulator, 5 mV nearer the goal. -/
def avsNext (s : State) : State :=
  let sp := s.power.setpoint
  let g := s.power.goal
  if sp == g then s
  else
    let t := if sp < g then min g (sp + 5) else max g (sp - 5)
    { s with power := { s.power with avs := some { target := t, at_ := s.clk.tticks } } }

/-- Move VCORE to a setpoint (DEDUCED, log entry 24). -/
def avsMove (mv : Nat) (s : State) : State :=
  let s := { s with power := { s.power with goal := clampMv s mv } }
  if s.power.avs.isSome then s else avsNext s

/-- No move of VCORE is in progress. -/
def avsIdle (s : State) : Bool := s.power.avs.isNone && s.power.setpoint == s.power.goal

/-- A HEALTH_TEST is over: VCORE returns to its setpoint (R379) (DEDUCED, log entry 26). -/
def testOver (s : State) : State :=
  match s.power.testFrom with
  | some mv => avsMove mv { s with power := { s.power with testFrom := none } }
  | none => s

/-! ### Lasers (R369) -/

/-- The lasers are lit: not during a thermal stop (DEDUCED, log entry 25). -/
def lasersLit (s : State) : Bool := s.power.estop != some .thermal

end Sys2Proof.Machine
end

