-- ==== Sys2Proof/Machine/HostOps.lean ====
section
/-! DEFINITION. Parameters of a command, ownership of resources, and the replies that end a command. -/

namespace Sys2Proof

open Sys2Proof.Machine

/-- `len` parameter bytes from byte `k` on, little-endian (R334). -/
def Packet.at_ (p : Packet) (k len : Nat) : Nat := fldN p.params (8 * k) (8 * len)

/-- Bits `lo + w - 1 : lo` of the parameter field that starts at byte `k`. -/
def Packet.bits (p : Packet) (k lo w : Nat) : Nat := fldN p.params (8 * k + lo) w

/-- Parameter bytes as a string. -/
def Packet.bytes (p : Packet) (k len : Nat) : List Byte := leBytes len (p.at_ k len)

/-- The payload a command carries: PAYLOAD_LENGTH bytes. -/
def Packet.body (p : Packet) : List Byte := p.payload

/-! ### Classes of commands -/

/-- Commands that the hardware scheduler serves (R344). -/
def Op.hardware : Op → Bool
  | .nop | .getStatus | .readCsr | .writeCsr | .start | .stop | .step | .abort | .sqWrite | .sqRead | .sqMark | .sqRewind
  | .sqRelease | .sqFlush | .sqReset | .timeRead | .timeSet | .timeStep | .timeAdjFreq | .ringRead | .ringSealRead => true
  | _ => false

/-- Stepped long operations, SQ_WRITE apart (R345). -/
def Op.stepped : Op → Bool
  | .resetDomain | .loadImage | .drain | .memRead | .memWrite | .memFill | .scrub | .arbLoad | .arbVerify | .selectProfile
  | .writeProfile | .marginReplan | .healthTest | .attest | .fwUpdate | .safeModelStore => true
  | _ => false

/-- Commands that an ABORT can end (R348, R432). -/
def Op.abortable : Op → Bool
  | .loadImage | .step | .drain | .memRead | .memWrite | .memFill | .scrub | .sqWrite | .arbLoad | .arbVerify | .marginReplan
  | .healthTest => true
  | _ => false

/-- Commands that end what their session has in flight (R340, R341). -/
def Op.ending : Op → Bool
  | .closeSession | .openSession => true
  | _ => false

/-- Commands that never wait (R346) (DEDUCED, log entry 12). -/
def Op.neverWaits : Op → Bool
  | .abort | .stop | .nop | .identify | .getStatus | .readCsr | .timeRead => true
  | _ => false

/-- Commands served from the moment a host link is UP (R385). -/
def Op.servedInBoot : Op → Bool
  | .nop | .identify | .getStatus | .openSession | .closeSession | .readCsr | .readProfile | .getCert | .abort | .stop | .timeRead => true
  | _ => false

/-- Commands served after a thermal trip (R372), and in recovery but for FW_RECOVER (R398). -/
def Op.servedAlways : Op → Bool
  | .nop | .identify | .getStatus | .readCsr => true
  | _ => false

end Sys2Proof

namespace Sys2Proof.Machine

open Sys2Proof

/-- Session of a command. -/
def Flight.sess (f : Flight) : Nat := f.pkt.session.toNat

/-- A resource is owned by another session: one with no owner never is (R342) (DEDUCED, log entry 35). -/
def foreign (owner : Option Nat) (session : Nat) : Bool :=
  match owner with
  | some o => o != session
  | none => false

/-- A partition the profile in force defines (R342). -/
def partDefined (s : State) (p : Nat) : Bool := decide (p < 8) && (getPart s p).valid

/-- A partition owned by another session. -/
def partForeign (s : State) (p session : Nat) : Bool := foreign (getPart s p).owner session

/-- The stepped operation whose last step ended longest ago: its next step is the one in progress (R345) (DEDUCED, log entry 11). -/
def stepping (s : State) : Option Flight :=
  (s.host.flights.filter (fun f => f.phase == .active && f.op.stepped)).foldl (fun m f =>
    match m with
    | none => some f
    | some g => if f.lastStep < g.lastStep then some f else some g) none

/-- A reply of a status alone. -/
def answer (f : Flight) (status : Nat) (s : State) : State := complete f.id { status := status } s

/-- OK with nothing else. -/
def answerOk (f : Flight) (s : State) : State := answer f stOk s

/-- OK with a RESULT. -/
def answerResult (f : Flight) (result : List Byte) (s : State) : State := complete f.id { status := stOk, result := result } s

/-- OK with a payload. -/
def answerData (f : Flight) (payload : List Byte) (s : State) : State := complete f.id { status := stOk, payload := payload } s

/-- A reply with MORE set that an operation sends before its terminal reply (R337). -/
def replyBytes (opcode : Nat) (p : Packet) (r : Reply) : List Byte :=
  leBytes 1 1 ++ leBytes 1 (b2n r.abortLate + 2 * b2n r.isPartial + 4 * b2n r.more) ++ leBytes 2 opcode
    ++ leBytes 2 (p.tag.toNat + 4096 * p.session.toNat + 32768 * b2n p.bit15) ++ leBytes 2 r.status
    ++ leBytes 8 r.progress ++ leBytes 2 r.payload.length ++ List.replicate 14 0 ++ padTo 32 r.result ++ r.payload

/-- The route of a command's reply (R309, R400). -/
def routeOfPacket (p : Packet) : Route :=
  { uart := p.inPort == 255, sourceRouted := p.sourceRouted, dest := p.src, origin := p.origin, inPort := p.inPort, hops := p.route }

/-- Send a reply with MORE set. -/
def sendMore (f : Flight) (opcode : Nat) (r : Reply) (s : State) : State :=
  updSession f.sess (fun x => { x with outbox := x.outbox ++
    [.plain (routeOfPacket f.pkt) (replyBytes opcode f.pkt { r with more := true })] }) s

/-- Units that an operation has done when a step of it ends; a DRAIN counts the tokens that remain (DEDUCED, log entry 11). -/
def Flight.doneUnits (g : Flight) : Nat :=
  match g.phase with
  | .done _ r =>
    if g.op == .drain then r.progress else if r.status == stOk && !r.isPartial then max g.total r.progress else max g.progress r.progress
  | _ => g.progress

/-- The progress report that PROGRESS asks for after a step, ahead of the terminal reply (R337) (DEDUCED, log entry 11). -/
def reportStep (opcode id : Nat) (s : State) : State :=
  match findFlight s id with
  | none => s
  | some g =>
    if !g.pkt.flags.getLsbD 1 then s
    else
      let it : OutItem := .plain (routeOfPacket g.pkt) (replyBytes opcode g.pkt { more := true, status := stOk, progress := g.doneUnits })
      let before (x : OutItem) : Bool := x != .terminal g.id
      updSession g.sess (fun x => { x with outbox := x.outbox.takeWhile before ++ it :: x.outbox.dropWhile before }) s

end Sys2Proof.Machine
end

