-- ==== Sys2Proof/Machine/Operands.lean ====
section
/-! DEFINITION. The instruction word of a tile: fields, operand selectors, and the illegal encodings (R110 to R140). -/

namespace Sys2Proof.Machine

open Sys2Proof

/-- The fields of an instruction word (R110). -/
structure Fields where
  opc : Nat
  pred : Nat
  pneg : Bool
  dst : Nat
  a : Nat
  b : Nat
  c : Nat
  d : Nat
  mode : Nat
  addr : Nat
  ireg : Nat
  count : Nat
  reserved : Nat
  imm : W32
  deriving DecidableEq, Repr

/-- Field extraction (R110). -/
def fieldsOf (w : BitVec 96) : Fields :=
  { opc := fldN w 90 6, pred := fldN w 87 3, pneg := w.getLsbD 86, dst := fldN w 81 5, a := fldN w 76 5, b := fldN w 71 5,
    c := fldN w 66 5, d := fldN w 61 5, mode := fldN w 52 9, addr := fldN w 42 10, ireg := fldN w 38 4,
    count := fldN w 35 3, reserved := fldN w 32 3, imm := fld w 0 32 }

/-- What a selector field may hold (R119). -/
inductive Sel where
  | none | v | g | l | ls | gl | s20 | gsd | p | d24
  deriving DecidableEq, Repr

/-- A selector is allowed. -/
def Sel.allows : Sel → Nat → Bool
  | .none, n => n == 31
  | .v, n => decide (n ≤ 25)
  | .g, n => decide (n < 16)
  | .l, n => decide (16 ≤ n) && decide (n ≤ 19)
  | .ls, n => decide (16 ≤ n) && decide (n ≤ 21)
  | .gl, n => decide (n ≤ 19)
  | .s20, n => n == 20
  | .gsd, n => decide (n < 16) || n == 24 || n == 25
  | .p, n => decide (16 ≤ n) && decide (n ≤ 23)
  | .d24, n => n == 24

/-- Row of R119: destination, the four sources, and the mode bits the opcode defines; none for an opcode not listed. -/
def opcRow (opc mode : Nat) : Option (Sel × Sel × Sel × Sel × Sel × Nat) :=
  match opc with
  | 0x00 => some (.none, .none, .none, .none, .none, 0)
  | 0x01 => some (.none, .none, .none, .none, .none, 0)
  | 0x02 => some (.none, .none, .none, .none, .none, 0x1FF)
  | 0x03 => some (.g, .g, .none, .none, .none, 0)
  | 0x04 => some (.none, .none, .none, .none, .none, 0)
  | 0x05 => some (.none, .none, .none, .none, .none, 0)
  | 0x10 | 0x11 | 0x12 | 0x14 | 0x15 => some (.gsd, .v, .v, .none, .none, 0x3)
  | 0x13 => some (.gsd, .v, .v, .v, .none, 0x3)
  | 0x16 => some (.gsd, .v, .none, .none, .none, 0xF)
  | 0x17 => some (.gsd, .v, if mode % 8 == 2 then .g else .none, .none, .none, 0x7)
  | 0x18 | 0x19 | 0x1A | 0x1B | 0x1C | 0x1D | 0x1E | 0x1F => some (.gsd, .v, .v, .none, .none, 0)
  | 0x20 => some (.p, .v, .v, .none, .none, 0x1F)
  | 0x21 => some (.p, .v, .v, .none, .none, 0x1C)
  | 0x22 => some (.gsd, .v, .v, .none, .none, 0)
  | 0x28 => some (.gsd, .v, .none, .none, .none, 0)
  | 0x29 => some (.none, .v, .none, .none, .none, 0xF)
  | 0x2A => some (.d24, .g, .none, .none, .none, 0)
  | 0x2B => some (.none, .g, .s20, .none, .none, 0)
  | 0x30 => some (.g, .ls, .ls, .gl, .gl, 0x7F)
  | 0x31 => some (.g, .s20, if mode / 16 % 2 == 1 then .g else .none, .none, .none, 0x7F)
  | 0x32 => some (.gsd, .v, .none, .gl, .none, 0x1F)
  | _ => none

/-- Stochastic rounding is named (R127, R137). -/
def Fields.sr (f : Fields) : Bool :=
  (f.opc == 0x17 && f.mode % 8 == 2) || (f.opc == 0x31 && f.mode / 16 % 2 == 1)

/-- Source selectors in order. -/
def Fields.sources (f : Fields) : List Nat := [f.a, f.b, f.c, f.d]

/-- G[IREG] is read. -/
def Fields.usesIreg (f : Fields) : Bool := f.sources.contains 21 || f.dst == 25 || f.sr

/-- A G destination that the instruction also reads (R121, R135, R137). -/
def Fields.readsDst (f : Fields) : Bool := (f.opc == 0x30 && f.mode / 64 % 2 == 1) || f.opc == 0x31

/-- G registers read, without repeats (R115). -/
def Fields.regsRead (f : Fields) : List Nat :=
  (f.sources.filter (fun x => decide (x < 16)) ++ (if f.usesIreg then [f.ireg] else [])
    ++ (if f.readsDst then [f.dst] else [])).eraseDups

/-- Links popped at issue: for a DOT its scale links only (R113, R117). -/
def Fields.popsAtIssue (f : Fields) : List Nat :=
  ((if f.opc == 0x30 then [f.c, f.d] else f.sources).filter (fun x => decide (16 ≤ x) && decide (x ≤ 19))).eraseDups.map (· - 16)

/-- Links popped at all. -/
def Fields.pops (f : Fields) : List Nat :=
  (f.sources.filter (fun x => decide (16 ≤ x) && decide (x ≤ 19))).eraseDups.map (· - 16)

/-- What the legality of an encoding depends on beside the word. -/
structure IssueEnv where
  row : Nat
  route : W32
  /-- Depths of the active context's virtual queues, N to W. -/
  depths : List Nat
  fixedClass : Bool
  deriving DecidableEq, Repr

/-- Route table entries (R53, R159). -/
def routeOut (route : W32) (d : Nat) : Nat := fldN route (3 * d) 3
def routePass (route : W32) (d : Nat) : Bool := route.getLsbD (12 + d)

/-- A selector field breaks row 2 or row 3 of R140: 0 for neither. -/
def selRow (k : Sel) (n : Nat) : Nat :=
  if decide (26 ≤ n) && decide (n ≤ 30) then 2
  else if k == .none then (if n == 31 then 0 else 3)
  else if n == 31 then 3
  else if k.allows n then 0 else 2

/-- The rows of R140's table that an encoding meets at issue, but for the empty queue and the vault address (DEDUCED, log entry 19). -/
def illegalRows (f : Fields) (e : IssueEnv) : List Nat :=
  match opcRow f.opc f.mode with
  | none => [1]
  | some (kd, ka, kb, kc, kdd, modeMask) =>
    let sels := [selRow kd f.dst, selRow ka f.a, selRow kb f.b, selRow kc f.c, selRow kdd f.d]
    let fmtA := f.mode % 8
    let fmtB := f.mode / 8 % 8
    let links (x : Nat) : Bool := decide (16 ≤ x) && decide (x ≤ 19)
    (if sels.contains 2 then [2] else [])
    ++ (if sels.contains 3 || (f.count != 0 && f.opc != 0x30) || f.reserved != 0 || f.mode &&& (0x1FF - modeMask) != 0
        || (f.opc == 0x30 && 4 ≤ f.count) then [3] else [])
    ++ (if f.sources.contains 20 && f.sources.contains 21 && f.opc != 0x30 && f.opc != 0x31 && f.opc != 0x2B then [4] else [])
    ++ (if 3 < f.regsRead.length then [5] else [])
    ++ (if f.pops.any (fun d => routePass e.route d) then [6] else [])
    ++ (if f.opc == 0x29 && (f.mode % 16 == 0 ||
        (List.range 4).any (fun d => (f.mode.testBit d) && routeOut e.route d != 1)) then [7] else [])
    ++ (if f.opc == 0x03 && f.dst != f.a then [9] else [])
    ++ (if f.opc == 0x02 && (decide (4 ≤ f.mode) || (f.mode == 0 && fldN f.imm 0 16 == 0)
        || (f.mode == 2 && (fldN f.imm 2 4 == 0 || decide (e.depths.getD (fldN f.imm 0 2) 0 < fldN f.imm 2 4)))
        || (e.fixedClass && f.mode != 0 && fldN f.imm 16 16 == 0)) then [10] else [])
    ++ (if f.opc == 0x04 && e.row % 16 != 0 then [11] else [])
    ++ (if (decide (0x10 ≤ f.opc) && decide (f.opc ≤ 0x15) && (f.mode % 4 == 3 || (f.mode % 4 == 2 && f.opc != 0x13)))
        || (f.opc == 0x20 && decide (2 ≤ f.mode % 4)) || (f.opc == 0x16 && decide (9 ≤ f.mode % 16))
        || (f.opc == 0x17 && decide (5 ≤ f.mode % 8)) || ((f.opc == 0x20 || f.opc == 0x21) && decide (6 ≤ f.mode / 4 % 8))
        then [12] else [])
    ++ (if ((f.opc == 0x30 || f.opc == 0x31 || f.opc == 0x32) && decide (6 ≤ fmtA)) || (f.opc == 0x30 && decide (6 ≤ fmtB))
        then [14] else [])
    ++ (if f.opc == 0x30 && ((links f.c && (f.c == f.a || f.c == f.b)) || (links f.d && (f.d == f.a || f.d == f.b))
        || (links f.a && f.a == f.b)) then [15] else [])
    ++ (if f.opc == 0x32 && decide (fmtA < 6) && decide (64 < fldN f.imm 0 6 + 2 * mxWidth fmtA) then [16] else [])

/-- Contract latency of R146 in cycles. -/
def latencyOf (f : Fields) : Nat :=
  match f.opc with
  | 0x10 | 0x11 | 0x12 | 0x14 | 0x15 => 4
  | 0x13 => 5
  | 0x16 =>
    match f.mode % 16 with
    | 3 => 10
    | 0 | 4 => 12
    | 1 | 2 | 5 => 14
    | 6 => 16
    | 7 => 30
    | _ => 34
  | 0x17 | 0x32 => 3
  | 0x20 => 2
  | 0x31 => 8
  | _ => 1

/-- The instruction uses the vector unit (R137). -/
def usesVector (opc : Nat) : Bool :=
  (decide (0x10 ≤ opc) && decide (opc ≤ 0x17)) || opc == 0x20 || opc == 0x31 || opc == 0x32

/-! ### Results (R124 to R131, R138) -/

/-- Lane `i` of `w` bits. -/
def lane (x : W64) (w i : Nat) : Nat := x.toNat / 2 ^ (w * i) % 2 ^ w

/-- A word from lanes of `w` bits. -/
def ofLanes (w : Nat) (ls : List Nat) : W64 :=
  BitVec.ofNat 64 ((ls.zip (List.range ls.length)).foldl (fun acc p => acc + p.1 % 2 ^ w * 2 ^ (w * p.2)) 0)

/-- A vector operation lane by lane in the format VFMT 0 or 1. -/
def laneOp (fmt : Nat) (g : Nat → Nat → Nat → Nat) (a b : W64) : W64 :=
  if fmt == 0 then ofLanes 32 ((List.range 2).map (fun i => g 23 (lane a 32 i) (lane b 32 i)))
  else ofLanes 16 ((List.range 4).map (fun i => g 7 (lane a 16 i) (lane b 16 i)))

/-- VFMA (R124). -/
def vfma (fmt : Nat) (a b c : W64) : W64 :=
  if fmt == 0 then ofLanes 32 ((List.range 2).map (fun i =>
    fpFma 23 (fpDec 23 (lane a 32 i)) (fpDec 23 (lane b 32 i)) (fpDec 23 (lane c 32 i))))
  else if fmt == 1 then ofLanes 16 ((List.range 4).map (fun i =>
    fpFma 7 (fpDec 7 (lane a 16 i)) (fpDec 7 (lane b 16 i)) (fpDec 7 (lane c 16 i))))
  else ofLanes 32 ((List.range 2).map (fun i =>
    fpFma 23 (fpDec 7 (lane a 16 i)) (fpDec 7 (lane b 16 i)) (fpDec 23 (lane c 32 i))))

/-- VCVT (R127); the draw is the KCG output of a lane. -/
def vcvt (code : Nat) (draw : Nat → W64) (a : W64) : W64 :=
  match code with
  | 0 => ofLanes 32 ((List.range 2).map (fun i => bf16To32 (lane a 16 i)))
  | 1 => ofLanes 16 ((List.range 2).map (fun i => f32ToBf16 (lane a 32 i)))
  | 2 => ofLanes 16 ((List.range 2).map (fun i => f32ToBf16Sr (lane a 32 i) (fldN (draw i) 48 16)))
  | 3 => ofLanes 32 ((List.range 2).map (fun i => i32To32 (lane a 32 i)))
  | _ => ofLanes 32 ((List.range 2).map (fun i => f32ToI32 (lane a 32 i)))

/-- Integer opcodes (R128). -/
def intOp (opc : Nat) (a b : W64) : W64 :=
  let n := b.toNat % 64
  match opc with
  | 0x18 => a + b
  | 0x19 => a - b
  | 0x1A => a &&& b
  | 0x1B => a ||| b
  | 0x1C => a ^^^ b
  | 0x1D => a <<< n
  | 0x1E => a >>> n
  | _ => a.sshiftRight n

/-- FCMP (R129). -/
def fcmp (fmt cond : Nat) (a b : W64) : Bool :=
  let k := if fmt == 0 then 23 else 7
  let w := if fmt == 0 then 32 else 16
  let x := fpDec k (lane a w 0)
  let y := fpDec k (lane b w 0)
  let un := x.nan || y.nan
  match cond with
  | 0 => !un && fpLt x y
  | 1 => !un && !fpLt y x
  | 2 => !un && fpEq x y
  | 3 => un || !fpEq x y
  | 4 => un
  | _ => !un

/-- ICMP (R129). -/
def icmp (cond : Nat) (a b : W64) : Bool :=
  match cond with
  | 0 => a.slt b
  | 1 => a.sle b
  | 2 => a == b
  | 3 => a != b
  | 4 => a.ult b
  | _ => a.ule b

/-- Value of the opcodes that compute one register from operands A, B and C; `draw` is KCG's output of an element. -/
def resultOf (f : Fields) (draw : Nat → W64) (a b c : W64) : W64 :=
  match f.opc with
  | 0x10 => laneOp (f.mode % 4) (fun k x y => fpAdd k (fpDec k x) (fpDec k y)) a b
  | 0x11 => laneOp (f.mode % 4) (fun k x y => fpAdd k (fpDec k x) (fpDec k y).neg) a b
  | 0x12 => laneOp (f.mode % 4) (fun k x y => fpMul k (fpDec k x) (fpDec k y)) a b
  | 0x13 => vfma (f.mode % 4) a b c
  | 0x14 => laneOp (f.mode % 4) fpMin a b
  | 0x15 => laneOp (f.mode % 4) fpMax a b
  | 0x16 => ofLanes 32 ((List.range 2).map (fun i => vfn (f.mode % 16) (lane a 32 i)))
  | 0x17 => vcvt (f.mode % 8) draw a
  | 0x32 =>
    let fmt := f.mode % 8
    let o := fldN f.imm 0 6
    let w := mxWidth fmt
    let scale := fldN c (16 * (f.mode / 8 % 4)) 8
    ofLanes 32 [mxTo32 fmt (a.toNat / 2 ^ o % 2 ^ w) scale, mxTo32 fmt (a.toNat / 2 ^ (o + w) % 2 ^ w) scale]
  | _ => intOp f.opc a b

end Sys2Proof.Machine
end

