-- ==== Sys2Proof/Machine/Crypto.lean ====
section
/-! DEFINITION. CRC-32, CRC-64, SHA-384, the Reed-Solomon code of the vaults, and ECDSA over brainpoolP384r1. -/

namespace Sys2Proof.Machine

open Sys2Proof

/-! ### Cyclic redundancy checks -/

/-- CRC64_BYTE of R206. -/
def crc64Byte (c : W64) (b : Byte) : W64 :=
  (List.range 8).foldl (fun c _ =>
    if c.getLsbD 63 then (c <<< 1) ^^^ 0x42F0E1EBA9EA3693 else c <<< 1) (c ^^^ (b.setWidth 64 <<< 56))

/-- CRC-64 of a byte string from a starting value. -/
def crc64 (c : W64) (bs : List Byte) : W64 := bs.foldl crc64Byte c

/-- One byte of the reflected CRC-32 of IEEE 802.3. -/
def crc32Byte (c : W32) (b : Byte) : W32 :=
  (List.range 8).foldl (fun c _ =>
    if c.getLsbD 0 then (c >>> 1) ^^^ 0xEDB88320 else c >>> 1) (c ^^^ b.setWidth 32)

/-- CRC-32 of IEEE 802.3 of a byte string. -/
def crc32 (bs : List Byte) : W32 := ~~~(bs.foldl crc32Byte 0xFFFFFFFF)

/-! ### SHA-384 (FIPS 180-4) -/

/-- The primes below 410. -/
def shaPrimes : List Nat :=
  (List.range 410).filter (fun n => decide (2 ≤ n) && (List.range 19).all (fun d => decide (n ≤ d + 2) || n % (d + 2) != 0))

/-- The first 64 bits of the fractional part of the `k`-th root of `n`. -/
def rootFraction (k n : Nat) : W64 :=
  BitVec.ofNat 64 ((List.range 69).foldr (fun i r => if (r + 2 ^ i) ^ k ≤ n * 2 ^ (64 * k) then r + 2 ^ i else r) 0)

/-- The 80 round constants: the cube roots of the first 80 primes. -/
def shaK : List W64 := shaPrimes.map (rootFraction 3)

/-- The initial hash value of SHA-384: the square roots of the ninth to the sixteenth prime. -/
def shaInit : List W64 := ((shaPrimes.drop 8).take 8).map (rootFraction 2)

/-- Exclusive or of rotations of a word. -/
def rotations (rs : List Nat) (x : W64) : W64 := rs.foldl (fun a r => a ^^^ x.rotateRight r) 0

/-- Message schedule: the latest 16 words, newest first, extended by one. -/
def shaNext (w : List W64) : W64 :=
  let early := w.getD 14 0
  let late := w.getD 1 0
  (rotations [19, 61] late ^^^ (late >>> 6)) + (rotations [1, 8] early ^^^ (early >>> 7)) + w.getD 6 0 + w.getD 15 0

/-- One round on the eight working variables, a to h; `kw` is the round's constant plus its schedule word. -/
def shaRound (v : List W64) (kw : W64) : List W64 :=
  let x (i : Nat) : W64 := v.getD i 0
  let t := kw + x 7 + (x 6 ^^^ (x 4 &&& (x 5 ^^^ x 6))) + rotations [14, 18, 41] (x 4)
  let top := t + ((x 0 &&& (x 1 ||| x 2)) ||| (x 1 &&& x 2)) + rotations [28, 34, 39] (x 0)
  top :: slice v 0 3 ++ (t + x 3) :: slice v 4 3

/-- One 128-byte block. -/
def shaBlock (hs : List W64) (block : List Byte) : List W64 :=
  let ws := (chunks 8 17 block).map (fun c => BitVec.ofNat 64 (beNat c))
  let r := shaK.foldl (fun (st : List W64 × List W64 × List W64) k =>
    match st with
    | (v, pend, last) =>
      let w := match pend with
        | x :: _ => x
        | [] => shaNext last
      (shaRound v (k + w), pend.drop 1, (w :: last).take 16)) (hs, ws, [])
  (hs.zip r.1).map (fun p => p.1 + p.2)

/-- SHA-384 of a byte string, 48 bytes: the message, a 1 bit, zeros, and its length in bits, in blocks of 128 bytes. -/
def sha384 (m : List Byte) : List Byte :=
  let blocks := (m.length + 17 + 127) / 128
  let body := padTo (128 * blocks - 16) (m ++ [0x80]) ++ beBytes 16 (8 * m.length)
  (((List.range blocks).foldl (fun h i => shaBlock h (slice body (128 * i) 128)) shaInit).take 6).flatMap (fun w => beBytes 8 w.toNat)

/-! ### The code of R174 over GF(2^8) -/

/-- Multiplication by x modulo x^8 + x^4 + x^3 + x^2 + 1. -/
def gfDouble (a : Byte) : Byte := if a.getLsbD 7 then (a <<< 1) ^^^ 0x1D else a <<< 1

/-- Multiplication. -/
def gfMul (a b : Byte) : Byte :=
  ((List.range 8).foldl (fun (st : Byte × Byte) i =>
    (if b.getLsbD i then st.1 ^^^ st.2 else st.1, gfDouble st.2)) (0, a)).1

/-- ENCODE: the check symbols r[0], r[1], r[2] of the 33 symbols u[0] to u[32]. -/
def rsEncode (u : List Byte) : List Byte :=
  let r := u.reverse.foldl (fun (r : Byte × Byte × Byte) x =>
    let fb := x ^^^ r.2.2
    (gfMul fb 8, r.1 ^^^ gfMul fb 14, r.2.1 ^^^ gfMul fb 7)) (0, 0, 0)
  [r.1, r.2.1, r.2.2]

/-- A polynomial at a point, Horner from the highest coefficient. -/
def gfEval (c : List Byte) (x : Byte) : Byte := c.reverse.foldl (fun a b => gfMul a x ^^^ b) 0

/-- Outcome of DECODE (R174). -/
inductive RsKind where
  | clean
  | corrected (p : Nat) (e : Byte)
  | uncorrectable
  deriving DecidableEq, Repr

/-- DECODE of the 36 stored bytes. -/
def rsDecode (c : List Byte) : RsKind :=
  let s0 := gfEval c 1
  let s1 := gfEval c 2
  let s2 := gfEval c 4
  if s0 == 0 && s1 == 0 && s2 == 0 then .clean
  else if s0 != 0 && s1 != 0 && s2 != 0 && gfMul s1 s1 == gfMul s0 s2 then
    -- p ≤ 35 with s1 = s0 × alpha^p, where there is one
    match (List.range 36).foldl (fun (st : Option Nat × Byte) p =>
        (if st.1.isNone && st.2 == s1 then some p else st.1, gfDouble st.2)) (none, s0) with
    | (some p, _) => .corrected p s0
    | (none, _) => .uncorrectable
  else .uncorrectable

/-! ### ECDSA over brainpoolP384r1 -/

/-- Curve parameters of RFC 5639. -/
def ecP : Nat := 0x8CB91E82A3386D280F5D6F7E50E641DF152F7109ED5456B412B1DA197FB71123ACD3A729901D1A71874700133107EC53
def ecA : Nat := 0x7BC382C63D8C150C3C72080ACE05AFA0C2BEA28E4FB22787139165EFBA91F90F8AA5814A503AD4EB04A8C7DD22CE2826
def ecB : Nat := 0x04A8C7DD22CE28268B39B55416F0447C2FB77DE107DCD2A62E880EA53EEB62D57CB4390295DBC9943AB78696FA504C11
def ecGx : Nat := 0x1D1C64F068CF45FFA2A63A81B7C13F6B8847A3E77EF14FE3DB7FCAFE0CBD10E8E826E03436D646AAEF87B2E247D4AF1E
def ecGy : Nat := 0x8ABE1D7520F9C2A45CB1EB8E95CFD55262B70B29FEEC5864E19C054FF99129280E4646217791811142820341263C5315
def ecN : Nat := 0x8CB91E82A3386D280F5D6F7E50E641DF152F7109ED5456B31F166E6CAC0425A7CF3AB6AF6B7FC3103B883202E9046565

/-- Modular power, from the highest of `bits` exponent bits. -/
def powMod (m b e : Nat) : Nat → Nat → Nat
  | 0, acc => acc
  | i + 1, acc =>
    let sq := acc * acc % m
    powMod m b e i (if e.testBit i then sq * b % m else sq)

/-- Inverse modulo a prime. -/
def invMod (m a : Nat) : Nat := powMod m (a % m) (m - 2) 384 1

/-- A point of the curve, none at infinity. -/
abbrev Point := Option (Nat × Nat)

/-- Point addition. -/
def ecAdd : Point → Point → Point
  | none, q => q
  | p, none => p
  | some (x1, y1), some (x2, y2) =>
    if x1 == x2 && (y1 + y2) % ecP == 0 then none
    else
      let l :=
        if x1 == x2 then (3 * x1 * x1 + ecA) * invMod ecP (2 * y1) % ecP
        else (y2 + ecP - y1) * invMod ecP (x2 + ecP - x1) % ecP
      let x3 := (l * l + 2 * ecP - x1 - x2) % ecP
      some (x3, (l * (x1 + ecP - x3) + ecP - y1) % ecP)

/-- Scalar multiplication, from the highest bit. -/
def ecMul (k : Nat) (p : Point) : Nat → Point → Point
  | 0, acc => acc
  | i + 1, acc =>
    let d := ecAdd acc acc
    ecMul k p i (if k.testBit i then ecAdd d p else d)

/-- The point of an uncompressed public key of 96 bytes, big-endian x then y. -/
def ecPoint (key : List Byte) : Point := some (beAt key 0 48, beAt key 48 48)

/-- A point on the curve. -/
def ecOnCurve : Point → Bool
  | none => false
  | some (x, y) => decide (x < ecP) && decide (y < ecP) && (y * y % ecP == (x * x * x + ecA * x + ecB) % ecP)

/-- ECDSA verification of a 48-byte digest. -/
def ecdsaVerify (key digest : List Byte) (r s : Nat) : Bool :=
  if r == 0 || s == 0 || ecN ≤ r || ecN ≤ s || !ecOnCurve (ecPoint key) then false
  else
    let w := invMod ecN s
    let u1 := beNat digest * w % ecN
    let u2 := r * w % ecN
    match ecAdd (ecMul u1 (some (ecGx, ecGy)) 384 none) (ecMul u2 (ecPoint key) 384 none) with
    | none => false
    | some (x, _) => x % ecN == r

/-- The nonce, from 1 to n − 1, that a free number stands for (R213) (DESIGN CHOICE, log entry 3). -/
def signNonce (free : Nat) : Nat := 1 + free % (ecN - 1)

/-- ECDSA signature of a 48-byte digest with a private key and a free nonce: r then s, 48 big-endian bytes each. -/
def ecdsaSign (d free : Nat) (digest : List Byte) : List Byte :=
  let nonce := signNonce free
  match ecMul nonce (some (ecGx, ecGy)) 384 none with
  | none => List.replicate 96 0
  | some (x, _) =>
    let r := x % ecN
    beBytes 48 r ++ beBytes 48 (invMod ecN nonce * (beNat digest + r * d) % ecN)

/-- Uncompressed public key of a private key. -/
def ecPublic (d : Nat) : List Byte :=
  match ecMul d (some (ecGx, ecGy)) 384 none with
  | none => List.replicate 96 0
  | some (x, y) => beBytes 48 x ++ beBytes 48 y

end Sys2Proof.Machine
end

