-- ==== Sys2Proof/Machine/Fold.lean ====
section
/-! DEFINITION. Folds: what the fold unit does with each store and each FOLD_CUT a vault accepts (R206 to R208). -/

namespace Sys2Proof.Machine

open Sys2Proof

/-- LAYERS of R207 (DESIGN CHOICE, log entry 30). -/
def layersOf (s : State) (p : Nat) : Nat :=
  min 4096 ((List.range 4).foldl (fun a c =>
    let k := (getPart s p).ctx c
    if k.state != .empty then max a k.image.layers else a) 0)

/-- Vaults of a partition. -/
def Partition.vaultCount (x : Partition) : Nat := 32 * x.cols

/-- Relative vault id of a logical vault in a partition. -/
def Partition.relVault (x : Partition) (v : Nat) : Nat := v - 32 * x.firstCol

/-- The ring log is active for the partition. -/
def ringOn (s : State) (p : Nat) : Bool := s.ring.active && s.ring.part == some p

/-- A store accepted from segment row `r` (R206); `mask` marks the poisoned parts. -/
def foldStore (p v r word mask : Nat) (data : List Byte) (s : State) : State :=
  if !ringOn s p then s
  else
    let x := getPart s p
    let rv := x.relVault v
    let h : Nat := 2 ^ 31 + mask % 16 * 2 ^ 24 + word % 2 ^ 24
    let late := decide (s.ring.completed + 2 ≤ Table.get 0 s.ring.cuts rv)
    { s with ring := { s.ring with
        folds := Table.upd 0 s.ring.folds (16 * rv + r) (fun f => crc64 (crc64 f (leBytes 4 h)) data)
        skew := s.ring.skew || late } }

/-- Add a closed fold to the tables of a step. -/
def FoldTables.add (t : FoldTables) (index rv : Nat) (v : W64) (captured outOfRange : Bool) : FoldTables :=
  { t with
    table := Table.upd 0 t.table index (fun x => x ^^^ v)
    vstep := Table.upd 0 t.vstep rv (fun x => x ^^^ v)
    vcap := if captured then Table.upd 0 t.vcap rv (fun x => x ^^^ v) else t.vcap
    cutRange := t.cutRange || outOfRange }

/-- Entries 0 to LAYERS - 1 and the tail (R208). -/
def FoldTables.entries (t : FoldTables) (layers : Nat) : List W64 :=
  (List.range layers).map (fun i => Table.get 0 t.table i) ++ [Table.get 0 t.table 4096]

/-- Step completion (R208): the open tables become the held ones, and a ring record is due. -/
def stepDone (p : Nat) (s : State) : State :=
  let x := getPart s p
  let g := s.ring
  let layers := layersOf s p
  let es := g.openStep.entries layers
  let d : StepDone :=
    { deviceFold := if g.skew then 0 else es.foldl (fun a b => a ^^^ b) 0
      digest := if g.skew then List.replicate 48 0 else sha384 (es.flatMap w64Bytes)
      cutRange := g.openStep.cutRange, skew := g.skew
      images := (List.range 4).map (fun c => if (x.ctx c).state.resident then (x.ctx c).imageId else 0)
      seed := x.seedInForce, layers := layers, bays := x.bays }
  { s with ring := { g with
      held := g.openStep, heldStep := some (g.firstStep + BitVec.ofNat 64 g.completed)
      openStep := g.nextStep, nextStep := {}
      completed := g.completed + 1, due := g.due ++ [d]
      capture := if 4096 < g.captureReg.toNat then 0xFFFF else g.captureReg.toNat } }

/-- Every vault of the partition has accepted its step cut for the open step (DEDUCED, log entry 33). -/
def stepComplete (s : State) (p : Nat) : Bool :=
  (List.range (getPart s p).vaultCount).all (fun rv => decide (s.ring.completed < Table.get 0 s.ring.cuts rv))

/-- A FOLD_CUT with layer number `k` accepted by a vault (R207, R208) (DEDUCED, log entry 33). -/
def foldCut (p v k : Nat) (s : State) : State :=
  if !ringOn s p then s
  else
    let x := getPart s p
    let rv := x.relVault v
    let layers := layersOf s p
    let val := (List.range 16).foldl (fun a r => a ^^^ Table.get 0 s.ring.folds (16 * rv + r)) 0
    let index := if k < layers then k else 4096
    let range := k != 0xFFFF && decide (layers ≤ k)
    let done := Table.get 0 s.ring.cuts rv
    let ahead := done - s.ring.completed
    let captured := index == s.ring.capture
    let g := s.ring
    let g := { g with folds := (List.range 16).foldl (fun f r => Table.set 0 f (16 * rv + r) 0) g.folds }
    let g :=
      if ahead == 0 then { g with openStep := g.openStep.add index rv val captured range }
      else if ahead == 1 then { g with nextStep := g.nextStep.add index rv val captured range }
      else { g with skew := true }
    let g := if k == 0xFFFF then { g with cuts := Table.set 0 g.cuts rv (done + 1) } else g
    let s := { s with ring := g }
    if k == 0xFFFF && stepComplete s p then stepDone p s else s

end Sys2Proof.Machine
end

