-- ==== Sys2Proof/Machine/Vault.lean ====
section
/-! DEFINITION. Vault memory: addresses, error correction, reads and writes of a word, refresh, scrub and row repair (R168 to R178, R433). -/

namespace Sys2Proof.Machine

open Sys2Proof

/-! ### Addresses (R168, R169) -/

/-- Width of a vault word address. -/
def wordBits (s : State) : Nat := if s.part.x2 then 19 else 20

/-- Words a vault holds (DESIGN CHOICE, log entry 2). -/
def vaultWords (s : State) : Nat := 2 ^ wordBits s

/-- A bay is retired. -/
def graftOf (s : State) (b : Nat) : Graft := Table.get {} s.canopy.grafts b

/-- Physical bays that carry logical columns, in order (R72). -/
def liveBays (s : State) : List Nat := (List.range 20).filter (fun b => !(graftOf s b).retired)

/-- Logical columns (R72). -/
def logicalCols (s : State) : Nat := 32 * min 20 (liveBays s).length

/-- Logical vaults (R17). -/
def logicalVaults (s : State) : Nat := 32 * logicalCols s

/-- The physical column that carries a logical column (R70, R72). -/
def physCol (s : State) (col : Nat) : Nat :=
  let b := (liveBays s).getD (col / 32) 0
  let j := col % 32
  33 * b + (if j < (graftOf s b).failedPos then j else j + 1)

/-- The physical vault of a logical vault. -/
def physVault (s : State) (v : Nat) : Nat := 32 * physCol s (v / 32) + v % 32

/-- Fields of a vault word address. -/
def bankOf (word : Nat) : Nat := word % 16
def columnOf (word : Nat) : Nat := word / 16 % 64
def rowOf (word : Nat) : Nat := word / 1024 % 256
def dieOf (word : Nat) : Nat := word / 2 ^ 18

/-- The row of a word. -/
def rowId (s : State) (v word : Nat) : RowId :=
  { vault := physVault s v, bank := bankOf word, die := dieOf word, row := rowOf word }

/-- Location of a stored word of a physical vault, through the row redirections (R177), the latest first. A word of a row
under repair is redirected once it has been copied. -/
def physLoc (s : State) (pv word : Nat) : Nat :=
  let r : RowId := { vault := pv, bank := bankOf word, die := dieOf word, row := rowOf word }
  match s.vaults.redirects.find? (fun d => d.row == r && decide (columnOf word < d.copied)) with
  | some d => pv * 2 ^ 21 + 2 ^ 20 + ((r.die * 16 + r.bank) * 6 + d.spare) * 64 + columnOf word
  | none => pv * 2 ^ 21 + word

/-- Location of a stored word of a logical vault. -/
def wordLoc (s : State) (v word : Nat) : Nat := physLoc s (physVault s v) word

/-- The 36 stored bytes of a location; bytes nothing has written since boot are 0 (R433) (DESIGN CHOICE, log entry 5). -/
def storedWord (s : State) (loc : Nat) : List Byte :=
  (List.range 36).map (fun i => Table.get 0 s.vaults.mem (64 * loc + i))

/-- Memory with the 36 stored bytes of a location. -/
def setStored (loc : Nat) (c : List Byte) (mem : List Host.Cell) : List Host.Cell :=
  (List.range 36).foldl (fun m i => Table.set 0 m (64 * loc + i) (c.getD i 0)) mem

/-- The canonical form of vault memory. -/
abbrev Memory.wf (mem : List Host.Cell) : Bool := Table.wf 0 mem

/-! ### Words (R174, R175) -/

/-- What a read finds (R174). -/
inductive ReadKind where
  | clean
  | corrected
  | storedPoison (alsoCorrected : Bool)
  | uncorrectable
  deriving DecidableEq, Repr

/-- A stored word after DECODE: kind, the 32 data bytes as delivered, and whether they are poisoned. -/
def decodeWord (c : List Byte) : ReadKind × List Byte × Bool :=
  let k := rsDecode c
  let c' := match k with
    | .corrected p e => c.set p (c.getD p 0 ^^^ e)
    | _ => c
  let data := slice c' 3 32
  let sym := c'.getD 35 0
  match k with
  | .uncorrectable => (.uncorrectable, data, true)
  | .clean =>
    if sym == 0 then (.clean, data, false) else if sym == 0xFF then (.storedPoison false, data, true)
    else (.uncorrectable, data, true)
  | .corrected _ _ =>
    if sym == 0 then (.corrected, data, false) else if sym == 0xFF then (.storedPoison true, data, true)
    else (.uncorrectable, data, true)

/-- The 36 stored bytes of 32 data bytes with or without poison. -/
def encodeWord (data : List Byte) (poison : Bool) : List Byte :=
  let u := padTo 32 data ++ [if poison then 0xFF#8 else 0#8]
  rsEncode u ++ u

/-- Queue a row for repair, unless it is queued, under repair or left unrepaired (R174, R177). -/
def queueRepair (r : RowId) (s : State) : State :=
  if s.vaults.repairQueue.contains r || s.vaults.unrepaired.contains r
      || s.vaults.redirects.any (fun d => d.row == r && decide (d.copied < 64)) then s
  else { s with vaults := { s.vaults with repairQueue := s.vaults.repairQueue ++ [r] } }

/-- Queue a row for a scrub visit of all its words (R174). -/
def queueVisit (r : RowId) (s : State) : State :=
  if s.vaults.visits.contains (r, 0) then s else { s with vaults := { s.vaults with visits := s.vaults.visits ++ [(r, 0)] } }

/-- Sources of ECC_LAST. -/
def srcTile : Nat := 0
def srcScrub : Nat := 1
def srcQueue : Nat := 2
def srcHost : Nat := 3
def srcRepair : Nat := 4

/-- Read one word: the delivered bytes, their poison, and the counts of R174. A scrub's own corrected read is rewritten and
asks for no visit. -/
def readWord (v word source : Nat) (s : State) : (List Byte × Bool) × State :=
  let d := decodeWord (storedWord s (wordLoc s v word))
  let s := match d.1 with
    | .clean => s
    | .corrected =>
      let s := { s with vaults := { s.vaults with eccCorrected := satAdd s.vaults.eccCorrected 1 } }
      if source == srcScrub then s else queueVisit (rowId s v word) s
    | .storedPoison c =>
      { s with vaults := { s.vaults with
          poisonReads := satAdd s.vaults.poisonReads 1
          eccCorrected := if c then satAdd s.vaults.eccCorrected 1 else s.vaults.eccCorrected } }
    | .uncorrectable =>
      queueRepair (rowId s v word)
        { s with vaults := { s.vaults with
            eccUncorrected := satAdd s.vaults.eccUncorrected 1, eccLast := some (source, v, word) } }
  ((d.2.1, d.2.2), s)

/-- Write one word (R170, R175). -/
def writeWord (v word : Nat) (data : List Byte) (poison : Bool) (s : State) : State :=
  { s with vaults := { s.vaults with mem := setStored (wordLoc s v word) (encodeWord data poison) s.vaults.mem } }

/-! ### Ranges of device memory (R169), in 32-byte words from the device memory address -/

/-- Vault and word address of a 32-byte word of device memory. -/
def devVault (a : Nat) : Nat := a / 2 ^ 20
def devWord (a : Nat) : Nat := a % 2 ^ 20

/-- A range of device memory is valid: aligned, not empty, and every address in a vault (R169, R360). -/
def rangeValid (s : State) (addr len : Nat) : Bool :=
  addr % 32 == 0 && len % 32 == 0 && decide (0 < len) &&
    decide (addr + len ≤ logicalVaults s * 2 ^ 25) &&
    (!s.part.x2 || decide (addr % 2 ^ 25 + len ≤ 2 ^ 24))

/-- Logical vaults a valid range touches: first and last. -/
def rangeVaults (addr len : Nat) : Nat × Nat := (addr / 2 ^ 25, (addr + len - 1) / 2 ^ 25)

/-- Partitions whose vaults a range touches. -/
def rangeParts (s : State) (addr len : Nat) : List Nat :=
  let vs := rangeVaults addr len
  (List.range 8).filter (fun p =>
    let x := getPart s p
    x.valid && decide (vs.1 < 32 * (x.firstCol + x.cols)) && decide (32 * x.firstCol ≤ vs.2))

/-! ### Scrub (R176) and repair (R177, R178) -/

/-- Scrub one word: read it, and write back corrected data within the same occupancy. Clean, poisoned and uncorrectable
words are not rewritten. A corrected error counts toward the repair of its row when an earlier pass found one too (DEDUCED, log entry 39). -/
def scrubWord (v word : Nat) (s : State) : State :=
  let loc := wordLoc s v word
  let kind := (decodeWord (storedWord s loc)).1
  let r := readWord v word srcScrub s
  let s := r.2
  if kind == .corrected then
    let s := writeWord v word r.1.1 false s
    let row := rowId s v word
    let pass := s.vaults.passes
    if s.vaults.corrected.any (fun x => x.1 == row && x.2 != pass) then queueRepair row s
    else if s.vaults.corrected.contains (row, pass) then s
    else { s with vaults := { s.vaults with corrected := s.vaults.corrected ++ [(row, pass)] } }
  else s

/-- Free spare rows of a bank of a die (R177). -/
def freeSpares (s : State) (vault bank die : Nat) : List Nat :=
  (List.range 6).filter (fun i =>
    !s.vaults.redirects.any (fun d => d.row.vault == vault && d.row.bank == bank && d.row.die == die && d.spare == i))

/-- The logical vault of a physical vault, if a logical column uses it. -/
def logicalOf (s : State) (pv : Nat) : Option Nat :=
  ((List.range (logicalCols s)).find? (fun c => physCol s c == pv / 32)).map (fun c => 32 * c + pv % 32)

/-- SPARE_ROWS FEWEST_FREE. -/
def fewestFree (s : State) : Nat :=
  s.vaults.redirects.foldl (fun a d => min a (freeSpares s d.row.vault d.row.bank d.row.die).length) 6

end Sys2Proof.Machine
end

