-- ==== Sys2Proof/Machine/Tile.lean ====
section
/-! DEFINITION. What a tile does: scratch ports, links and credits, what is due in a cycle, and the issue of an instruction (R37 to R62, R110 to R140, R150 to R156). -/

namespace Sys2Proof.Machine

open Sys2Proof

/-- The place of a tile in its partition: partition, column, row, context. -/
structure At where
  p : Nat
  col : Nat
  row : Nat
  c : Nat
  index : Nat
  /-- Cycle of the issue an action belongs to. -/
  tag : Nat
  deriving DecidableEq, Repr

/-- The context of a place. -/
def At.ctx (a : At) (s : State) : Ctx := (getPart s a.p).ctx a.c

/-- Raise a fault of one context at a place. -/
def faultAt (a : At) (code : Nat) (detail : Nat) (s : State) : State :=
  raiseFault a.p code a.col a.row a.c a.index (BitVec.ofNat 32 detail) [] true s

/-! ### Scratch (R39 to R43, R156) -/

/-- A scratch access lies in the context's own allocation, where that is checked (R43, R156). -/
def ownsScratch (x : Partition) (c w : Nat) : Bool :=
  !x.byteMode || (decide ((x.ctx c).image.scratchBase ≤ w / 8) &&
    decide (w / 8 < (x.ctx c).image.scratchBase + (x.ctx c).image.granules))

/-- The port claim of an access. -/
def Claim.same (k : Claim) (at_ bank : Nat) (write : Bool) : Bool := k.at_ == at_ && k.bank == bank && k.write == write

/-- Register the claims of accesses in later cycles. -/
def addClaims (ks : List Claim) (t : Tile) : Tile := { t with claims := t.claims ++ ks }

/-- A claim of another user on the port in the cycle (R40). -/
def otherClaim (t : Tile) (at_ bank : Nat) (write : Bool) (user ctx tag : Nat) : Option Claim :=
  t.claims.find? (fun k => k.same at_ bank write && !(k.user == user && k.ctx == ctx && k.tag == tag))

/-- A claim that a double claim has already stopped. -/
def claimDead (t : Tile) (at_ bank : Nat) (write : Bool) (user ctx tag : Nat) : Bool :=
  t.claims.any (fun k => k.same at_ bank write && k.user == user && k.ctx == ctx && k.tag == tag && k.dead)

/-- Note an access made in this cycle, where its claim is not registered yet. -/
def noteClaim (at_ bank : Nat) (write : Bool) (user ctx index tag : Nat) (t : Tile) : Tile :=
  if t.claims.any (fun k => k.same at_ bank write && k.user == user && k.ctx == ctx && k.tag == tag) then t
  else addClaims [{ at_ := at_, bank := bank, write := write, user := user, ctx := ctx, index := index, tag := tag }] t

/-- Kill every claim on a port in a cycle. -/
def killClaims (at_ bank : Nat) (write : Bool) (t : Tile) : Tile :=
  { t with claims := t.claims.map (fun k => if k.same at_ bank write then { k with dead := true } else k) }

/-- What an issue has claimed and will not use any more (DEDUCED, log entry 19). -/
def dropClaims (ctx tag : Nat) (t : Tile) : Tile :=
  { t with claims := t.claims.filter (fun k => k.dead || !(k.tag == tag && k.ctx == ctx)) }

/-- Withdraw what an issue still has outstanding, once a read that it needs does not take place: a DOT, an MXCVT or a store
cannot complete without its word (R40, R163) (DEDUCED, log entry 19). -/
def cancelIssue (user ctx tag : Nat) (t : Tile) : Tile :=
  { dropClaims ctx tag t with
    dues := t.dues.filter (fun d => !(d.tag == tag && d.ctx == ctx))
    dot := t.dot.bind (fun d => if d.issued == tag && d.ctx == ctx then none else some d)
    cvt := t.cvt.bind (fun d => if d.issued == tag && d.ctx == ctx then none else some d)
    vq := if user == 3 || user == 4 then t.vq.filter (fun r => r.issued != tag) else t.vq }

/-- F01 between two claimants (R40, R166): neither access takes place, and both contexts are at fault. What else the other
claimant does goes on, unless the access is a read it needs (DEDUCED, log entry 19). -/
def bankConflict (a : At) (bank : Nat) (write : Bool) (user : Nat) (o : Claim) (s : State) : State :=
  let lo := min user o.user
  let hi := max user o.user
  let loCtx := if user ≤ o.user then a.c else o.ctx
  let hiCtx := if user ≤ o.user then o.ctx else a.c
  let loIndex := if user ≤ o.user then a.index else o.index
  let s := updTile a.col a.row (fun t =>
    let t := killClaims s.canopy.now bank write t
    if write then t else cancelIssue o.user o.ctx o.tag t) s
  raiseFault a.p 0x01 a.col a.row loCtx loIndex
    (BitVec.ofNat 32 (bank % 4 + 4 * lo + 32 * hi + 256 * hiCtx)) (if loCtx == hiCtx then [] else [hiCtx]) true s

/-- One scratch read: none where the access does not take place, after its fault (R40, R41, R43) (DESIGN CHOICE, log entry 21). -/
def readScratch (a : At) (user w : Nat) (s : State) : Option Val × State :=
  let now := s.canopy.now
  let t := getTile s a.col a.row
  if claimDead t now (w % 4) false user a.c a.tag then (none, s)
  else if !ownsScratch (getPart s a.p) a.c w then (none, faultAt a 0x08 (0 + 256 * w) s)
  else
    match otherClaim t now (w % 4) false user a.c a.tag with
    | some o => (none, bankConflict a (w % 4) false user o s)
    | none =>
      let x := t.word w
      if !x.written then (none, faultAt a 0x0C w s)
      else
        let s := updTile a.col a.row (noteClaim now (w % 4) false user a.c a.index a.tag) s
        let s := if x.err == 1 then updPart a.p (fun p => { p with scratchCorrected := satAdd p.scratchCorrected 1 }) s else s
        (some { v := x.data, poison := x.poison || decide (2 ≤ x.err) }, s)

/-- One scratch write (R40, R41, R43). -/
def writeScratch (a : At) (user w : Nat) (v : Val) (s : State) : State :=
  let now := s.canopy.now
  let t := getTile s a.col a.row
  if claimDead t now (w % 4) true user a.c a.tag then s
  else if !ownsScratch (getPart s a.p) a.c w then faultAt a 0x08 (0 + 256 * w) s
  else
    match otherClaim t now (w % 4) true user a.c a.tag with
    | some o => bankConflict a (w % 4) true user o s
    | none => updTile a.col a.row (fun t =>
        noteClaim now (w % 4) true user a.c a.index a.tag (t.setWord w { data := v.v, poison := v.poison, written := true })) s

/-! ### Vault ownership (R156) -/

/-- A page of a vault lies in a spill-queue region (R180, R156). -/
def inSpillRegion (s : State) (v page : Nat) : Bool :=
  s.queues.any (fun kv => decide (kv.2.firstVault ≤ v) && decide (v < kv.2.firstVault + kv.2.vaults)
    && decide (kv.2.firstPage ≤ page) && decide (page < kv.2.firstPage + kv.2.pages))

/-- A page lies in the compatibility spill area of the partition (R159). -/
def inCompatArea (s : State) (x : Partition) (page : Nat) : Bool :=
  (List.range 4).any (fun c => (x.ctx c).state.resident && decide (vaultWords s / 128 - (x.ctx c).image.compatPages ≤ page)
    && (x.ctx c).image.compat)

/-- A vault access is within the context's own ranges, where that is checked (R156) (DEDUCED, log entry 19). -/
def ownsVault (s : State) (x : Partition) (c v word : Nat) : Bool :=
  let page := word / 128
  let rc := v / 32 - x.firstCol
  !x.byteMode || ((x.ctx c).image.ranges.any (fun r => decide (r.colFirst ≤ rc) && decide (rc ≤ r.colLast)
      && decide (r.segFirst ≤ v % 32) && decide (v % 32 ≤ r.segLast)
      && decide (r.pageFirst ≤ page) && decide (page ≤ r.pageLast))
    && !inSpillRegion s v page && !inCompatArea s x page)

/-- The vault of a tile (R17). -/
def vaultOf (col row : Nat) : Nat := 32 * col + row / 16

/-! ### Links and credits (R49 to R59) -/

/-- Tokens the buffer of an edge-port endpoint takes: at least one, the spec gives no figure (DEDUCED, log entry 20). -/
def edgeDepth : Nat := Config.edgeTokens + 1

/-- WR once the cells of the present cycle are there (R186). -/
def Spill.ahead (x : Spill) : Nat := x.wr + (x.arrived.filter (fun a => a.source == x.writer)).length

/-- The tail buffer of a spill queue has room for a cell (R189). -/
def sqReady (q : Spill) : Bool := q.vaults == 0 || decide (q.ahead - q.moved < 64)

/-- A FLUSH has to wait for room in the tail buffer (R189) (DEDUCED, log entry 45). -/
def Spill.flushHeld (x : Spill) : Bool := !x.assembly.isEmpty && !sqReady x

/-- A credit for context `c` on output `d` (R56, R60); the endpoint of a trigger channel always takes a token (R251) (DEDUCED, log entry 20). -/
def hasCredit (s : State) (p col row d c : Nat) : Bool :=
  match edgeSide row d with
  | some side =>
    match boundPort s p col side with
    | some (_, e) => !(getPart s p).portsClosed
        && (e.unit == 5 || decide (((getTile s col row).out d).used.getD c 0 < edgeDepth))
    | none => false
  | none =>
    match neighbour col row d with
    | some (c2, r2) =>
      decide (((getTile s col row).out d).used.getD c 0 < ((getTile s c2 r2).inp (opposite d)).depth c)
    | none => false

/-- The route word of a context in a tile. -/
def routeOf (s : State) (p col row c : Nat) : W32 :=
  let x := getPart s p
  (x.ctx c).image.routeAt (col - x.firstCol) row

/-- The slot in force grants output `d` to the context (R59); BYTE mode has no slots. -/
def granted (s : State) (p col row d c : Nat) : Bool :=
  let x := getPart s p
  x.byteMode || ((x.ctx c).image.schedAt (col - x.firstCol) row).getLsbD (4 * ((s.canopy.now - x.start) % 64) + d)

/-- Outputs that select input `i` for a context (R53). -/
def selecting (route : W32) (i : Nat) : List Nat := (List.range 4).filter (fun d => routeOut route d == 4 + i)

/-- The pass-through token of a context ready at an input: in the register, else at the head of its queue. -/
def passReady (l : InLink) (c : Nat) : Option Tok :=
  match l.pass with
  | some k => if k.ctx == c then some k else (l.queue c).head?
  | none => (l.queue c).head?

/-- Whether context `c` has a pass-through token ready for output `d`. -/
def passWants (s : State) (p col row d c : Nat) : Bool :=
  let route := routeOf s p col row c
  let r := routeOut route d
  decide (4 ≤ r) && routePass route (r - 4) && (passReady ((getTile s col row).inp (r - 4)) c).isSome

/-- The context the output chooses, round-robin from its pointer, among those with a token ready and a credit (R58);
`send` is the context whose SEND stands ready for this output. -/
def chooses (s : State) (p col row d : Nat) (send : Option Nat) : Option Nat :=
  let o := (getTile s col row).out d
  if o.placedAt == some s.canopy.now then none
  else ((List.range 4).map (fun i => (o.ptr + i) % 4)).find? (fun c =>
    (send == some c || passWants s p col row d c) && hasCredit s p col row d c)

/-- Place a token on output `d` (R50, R56). -/
def placeToken (p col row d : Nat) (k : Tok) (s : State) : State :=
  let now := s.canopy.now
  let free : Bool := match edgeSide row d with
    | some side => (boundPort s p col side).any (fun b => b.2.unit == 5)
    | none => false
  let s := updTile col row (fun t => t.updOut d (fun o =>
    { (if free then o else o.take k.ctx) with ptr := (k.ctx + 1) % 4, placedAt := some now })) s
  let s := updPart p (fun x => { x with activity := now }) s
  match edgeSide row d with
  | some side =>
    match boundPort s p col side with
    | some (_, e) => updEdge e.unit e.index (fun ws => ws ++ [{ tok := k, at_ := now }]) s
    | none => s
  | none =>
    match neighbour col row d with
    | some (c2, r2) => updTile c2 r2 (fun t => t.updIn (opposite d) (fun l => { l with wire := l.wire ++ [{ tok := k, at_ := now }] })) s
    | none => s

/-- Change the sending side of the link into input `i`: the neighbour's output, or that of a unit (R56, R60). -/
def updSender (col row i : Nat) (g : OutLink → OutLink) (s : State) : State :=
  if (edgeSide row i).isSome then updTile col row (fun t => t.updIn i (fun l => { l with unit := g l.unit })) s
  else
    match neighbour col row i with
    | some (c2, r2) => updTile c2 r2 (fun t => t.updOut (opposite i) g) s
    | none => s

/-- The sending side of the link into input `i`. -/
def senderOf (s : State) (col row i : Nat) : OutLink :=
  if (edgeSide row i).isSome then ((getTile s col row).inp i).unit
  else
    match neighbour col row i with
    | some (c2, r2) => (getTile s c2 r2).out (opposite i)
    | none => {}

/-- A token has left input `i`: its credit is freed in this cycle (R56). -/
def freeCredit (col row i c : Nat) (s : State) : State := updSender col row i (fun o => o.free c s.canopy.now) s

/-- Pop the head of a virtual queue. -/
def popToken (col row i c : Nat) (s : State) : State :=
  freeCredit col row i c (updTile col row (fun t => t.updIn i (fun l => l.updQueue c (fun q => q.drop 1))) s)

/-- What stops a token from leaving now. -/
inductive Gate where
  /-- It leaves. -/
  | go
  /-- It waits, or its SEND holds. -/
  | hold
  /-- A fault with this code and detail, further faulting contexts, and the links that carry nothing for it. -/
  | bad (code detail : Nat) (others links : List Nat)
  deriving DecidableEq, Repr

/-- Links as a mask. -/
def maskBits (ls : List Nat) : Nat := ls.foldl (fun a d => a + 2 ^ d) 0

/-- The pass-through tokens of a tile that are ready in a slot that grants every output they leave on: context and outputs. -/
def readyPasses (s : State) (p col row : Nat) : List (Nat × List Nat) :=
  (List.range 4).flatMap (fun i => (List.range 4).filterMap (fun c =>
    let route := routeOf s p col row c
    let outs := selecting route i
    if routePass route i && (passReady ((getTile s col row).inp i) c).isSome && !outs.isEmpty && outs.all (fun d => granted s p col row d c) then
      some (c, outs)
    else none))

/-- The rules of R48, R58 and R59 for a token of context `c` that is ready for the outputs `ds`. `isSend` for a SEND, `held`
when that SEND was held for a credit before; `rivals` are the tokens of the tile that are ready beside it in this slot. -/
def gateOf (s : State) (p col row c : Nat) (ds : List Nat) (isSend held : Bool) (rivals : List (Nat × List Nat)) : Gate :=
  let x := getPart s p
  let fixed := (x.ctx c).image.fixedClass
  let isEdge (d : Nat) : Bool := (edgeSide row d).isSome
  let busy (d : Nat) : Bool := ((getTile s col row).out d).placedAt == some s.canopy.now
  let clash (d : Nat) : Bool := ((getTile s col row).out d).clashAt == some s.canopy.now
  let lose : Gate := if fixed then .bad 0x09 3 [] [] else .hold
  let open_ := ds.all (fun d => granted s p col row d c)
  if x.byteMode then
    if ds.all (fun d => hasCredit s p col row d c && chooses s p col row d (if isSend then some c else none) == some c) then .go else lose
  else if (!isSend && !open_) || ds.any clash then .hold
  else
    let shared (d : Nat) : List Nat := if granted s p col row d c && !busy d then
        (rivals.filter (fun r => r.1 != c && r.2.contains d && granted s p col row d r.1)).map (fun r => r.1)
      else []
    let links := ds.filter (fun d => !(shared d).isEmpty)
    let others := (links.flatMap shared).eraseDups
    if !links.isEmpty then .bad 0x03 (maskBits links + 16 * maskBits (c :: others)) others links
    else if !open_ then
      if held then lose else .bad 0x03 (maskBits (ds.filter (fun d => !granted s p col row d c)) + 16 * 2 ^ c) [] []
    else
      match ds.find? (fun d => !isEdge d && !hasCredit s p col row d c) with
      | some d => .bad 0x04 d [] []
      | none => if ds.all (fun d => hasCredit s p col row d c && !busy d) then .go else lose

/-- Links on which a collision has been reported in this cycle: neither token is placed, and no further fault arises (R59). -/
def useLinks (col row : Nat) (ls : List Nat) (s : State) : State :=
  updTile col row (fun t => ls.foldl (fun t d => t.updOut d (fun o => { o with clashAt := some s.canopy.now })) t) s

/-! ### What is due in a cycle -/

/-- Results that become visible at once. -/
def setDst (c : Nat) (d : LateDst) (v : Val) (t : Tile) : Tile :=
  match d with
  | .g i => t.updCtx c (fun x => x.setReg i v)
  | .pb i => t.updCtx c (fun x => x.setPred i (v.v.getLsbD 0))
  | .scratch _ | .block _ => t

/-- Write a result at a place: register, predicate or scratch word; PB0 keeps its value (R42) (DEDUCED, log entry 22). -/
def writeDst (a : At) (d : LateDst) (v : Val) (s : State) : State :=
  match d with
  | .scratch w => writeScratch a 0 w v s
  | .block w => writeScratch a 5 w v s
  | d => updTile a.col a.row (setDst a.c d v) s

/-- Add something due, in order of its cycle (DEDUCED, log entry 22). -/
def addDue (d : Due) (t : Tile) : Tile := { t with dues := insertBy (fun x y => decide (x.at_ ≤ y.at_)) d t.dues }

/-- KCG output for an element position, under the seed in force of the partition (R100). -/
def drawAt (s : State) (p : Nat) (key idx : W64) (pos : Nat) : W64 := kcgAt (getPart s p).seedInForce key idx pos

/-- The MXCVT has all its words: the block is formed, its events are counted in this cycle, and its late results are due
(R95 to R97, R108, R137) (DEDUCED, log entry 43). -/
def finishCvt (a : At) (k : Cvt) (s : State) : State :=
  let vs := k.words.flatMap (fun w => [lane w 32 0, lane w 32 1])
  let blk := mxConvert k.fmt k.given k.sr (drawAt s a.p k.key k.idx) vs
  let bits := (blk.codes.zip (List.range 32)).foldl (fun acc p => acc + p.1 * 2 ^ (mxWidth k.fmt * p.2)) 0
  let last := k.issued + 7
  let entry := blk.scale + 256 * k.tag.toNat
  let old := k.old.toNat
  let sh := 2 ^ (16 * k.entry)
  let dst := BitVec.ofNat 64 (old - old / sh % 65536 * sh + entry * sh)
  let s := updPart a.p (fun x => { x with sat := satAdd x.sat blk.saturated, nonfinite := satAdd x.nonfinite blk.nonfinite }) s
  updTile a.col a.row (fun t =>
    let t := { t with cvt := none }
    let t := addDue { at_ := last, tag := k.issued, ctx := k.ctx, index := k.index, op := .late (.g k.dst) { v := dst } } t
    (List.range (mxWords k.fmt)).foldl (fun t i =>
      addDue { at_ := last, tag := k.issued, ctx := k.ctx, index := k.index, op := .late (.block ((k.out + i) % 1024)) { v := BitVec.ofNat 64 (bits / 2 ^ (64 * i)) } } t) t) s

/-- Scratch read i of an MXCVT (R137): four words; a poisoned one is consumed (R139). -/
def doCvtRead (a : At) (i : Nat) (s : State) : State :=
  match (getTile s a.col a.row).cvt with
  | none => s
  | some k =>
    let stop (s : State) : State := updTile a.col a.row (fun t =>
      { dropClaims k.ctx k.issued t with
        cvt := none, dues := t.dues.filter (fun d => match d.op with | .cvtRead _ => false | _ => true) }) s
    let r := (List.range 4).foldl (fun (st : Option (List W64) × State) j =>
      match st.1 with
      | none => st
      | some ws =>
        match readScratch a 5 ((k.addr + 4 * i + j) % 1024) st.2 with
        | (none, s) => (none, s)
        | (some v, s) => if v.poison then (none, faultAt a 0x07 20 s) else (some (ws ++ [v.v]), s)) (some [], s)
    match r with
    | (none, s) => stop s
    | (some ws, s) =>
      let k := { k with words := k.words ++ ws }
      let s := updTile a.col a.row (fun t => { t with cvt := some k }) s
      if i == 3 then finishCvt a k s else s

/-- The store read of an STV (R132): the four words, or the store is not performed (R163). -/
def doStoreRead (a : At) (issued : Nat) (s : State) : State :=
  match (getTile s a.col a.row).vq.find? (fun r => r.issued == issued) with
  | none => s
  | some q =>
    let r := (List.range 4).foldl (fun (st : Option (List Val) × State) j =>
      match st.1 with
      | none => st
      | some ws =>
        match readScratch a 4 ((q.scr + j) % 1024) st.2 with
        | (none, s) => (none, s)
        | (some v, s) => (some (ws ++ [v]), s)) (some [], s)
    match r with
    | (none, s) => updTile a.col a.row (fun t => { t with vq := t.vq.filter (fun r => r.issued != issued) }) s
    | (some ws, s) =>
      updTile a.col a.row (fun t => { t with vq := t.vq.map (fun r => if r.issued == issued then { r with data := some ws } else r) }) s

/-- End the DOT in progress: its destination keeps its value, and it claims no port any more (R136). -/
def stopDot (a : At) (s : State) : State :=
  updTile a.col a.row (fun t =>
    { dropClaims a.c a.tag t with dot := none, dues := t.dues.filter (fun d => match d.op with | .dotWord _ _ => false | _ => true) }) s

/-- One data word of a DOT operand: from its link or from scratch, which selector `sel` names (R135, R136). A poisoned token
has left its queue when its fault is raised, and so has operand A's token when B's word faults (DEDUCED, log entry 43). -/
def dotOperand (a : At) (d : Dot) (link : Option Nat) (base sel user word : Nat) (s : State) : Option W64 × State :=
  match link with
  | some l =>
    match ((getTile s a.col a.row).inp l).queue d.ctx with
    | [] => (none, s)
    | k :: _ =>
      let s := popToken a.col a.row l d.ctx s
      if k.poison then (none, faultAt a 0x07 (16 + l + 32) s) else (some k.data, s)
  | none =>
    match readScratch a user ((base + word) % 1024) s with
    | (none, s) => (none, s)
    | (some v, s) => if v.poison then (none, faultAt a 0x07 (sel + 32) s) else (some v.v, s)

/-- The DOT block is consumed: its result joins the running sum; the last one becomes the late result (R91 to R93, R145) (DEDUCED, log entry 43; DESIGN CHOICE, log entry 8). -/
def finishBlock (a : At) (j : Nat) (d : Dot) (s : State) : State :=
  let packed (ws : List W64) : Nat := (ws.zip (List.range ws.length)).foldl (fun acc p => acc + p.1.toNat * 2 ^ (64 * p.2)) 0
  let r := blockResult d.fmtA d.fmtB (fldN d.scaleA (16 * j) 8) (fldN d.scaleB (16 * j) 8) (packed d.wordsA) (packed d.wordsB)
  let sum := BitVec.ofNat 32 (fAdd32 d.sum.toNat r)
  if j + 1 == d.blocks then
    updTile a.col a.row (fun t => addDue { at_ := d.issued + d.blocks * d.lanes + 5, tag := d.issued, ctx := d.ctx, index := d.index, op := .late (.g d.dst) { v := sum.setWidth 64 } } { t with dot := none }) s
  else updTile a.col a.row (fun t => { t with dot := some { d with sum := sum, wordsA := [], wordsB := [] } }) s

/-- A data token that a DOT's word needs from its link is not present (R136) (DEDUCED, log entry 43). -/
def dotEmpty (t : Tile) (c : Nat) (link : Option Nat) : Bool :=
  match link with
  | some l => ((t.inp l).queue c).isEmpty
  | none => false

/-- Word k of block j of the DOT in progress, by the cases of R136: the tag check at k = 0, then the links, then the data. The
counters move in the block's first cycle, once that cycle's words have been taken (DEDUCED, log entry 43). -/
def doDotWord (a : At) (j k : Nat) (s : State) : State :=
  match (getTile s a.col a.row).dot with
  | none => s
  | some d =>
    let x := (getTile s a.col a.row).ctx d.ctx
    let tagA : Nat := fldN d.scaleA (16 * j + 8) 4
    let tagB : Nat := fldN d.scaleB (16 * j + 8) 4
    if k == 0 && (tagA != x.dseqA.toNat || tagB != x.dseqB.toNat) then
      stopDot a (faultAt a 0x06 (x.dseqA.toNat + 16 * tagA + 256 * x.dseqB.toNat + 4096 * tagB + 65536 * j) s)
    else
      let wA := mxWords d.fmtA
      let wB := mxWords d.fmtB
      -- an A read and a B read in one bank in one cycle (R136)
      let bankA := (d.baseA + j * wA + k) % 4
      let bankB := (d.baseB + j * wB + k) % 4
      if d.linkA.isNone && d.linkB.isNone && k < wA && k < wB && bankA == bankB then
        stopDot a (raiseFault a.p 0x01 a.col a.row a.c a.index (BitVec.ofNat 32 (bankA + 4 * 1 + 32 * 2 + 256 * a.c)) [] true s)
      else if (decide (k < wA) && dotEmpty (getTile s a.col a.row) d.ctx d.linkA) || (decide (k < wB) && dotEmpty (getTile s a.col a.row) d.ctx d.linkB) then
        let p := getPart s a.p
        stopDot a (if p.padded || (p.ctx a.c).image.fixedClass then faultAt a 0x09 4 s else faultAt a 0x0B 8 s)
      else
        let ra := if k < wA then (match dotOperand a d d.linkA d.baseA d.selA 1 (j * wA + k) s with
          | (none, s) => (none, s)
          | (some w, s) => (some [w], s)) else (some [], s)
        match ra with
        | (none, s) => stopDot a s
        | (some va, s) =>
          let rb := if k < wB then (match dotOperand a d d.linkB d.baseB d.selB 2 (j * wB + k) s with
            | (none, s) => (none, s)
            | (some w, s) => (some [w], s)) else (some [], s)
          match rb with
          | (none, s) => stopDot a s
          | (some vb, s) =>
            let d := { d with wordsA := d.wordsA ++ va, wordsB := d.wordsB ++ vb }
            let s := updTile a.col a.row (fun t =>
              { (if k == 0 then t.updCtx d.ctx (fun x => { x with dseqA := x.dseqA + 1, dseqB := x.dseqB + 1 }) else t) with dot := some d }) s
            if k + 1 == max wA wB then finishBlock a j d s else s

/-- A load's data reaches its scratch words (R132, R150); a queue-mode return waits while a bank's write port is taken. -/
def doLoadReturn (a : At) (issued : Nat) (s : State) : State :=
  match (getTile s a.col a.row).vq.find? (fun r => r.issued == issued) with
  | none => s
  | some q =>
    let vals := match q.loaded with | some (_, vs) => vs | none => []
    let s := (List.range 4).foldl (fun s j => writeScratch a 3 ((q.scr + j) % 1024) (vals.getD j {}) s) s
    updTile a.col a.row (fun t => { t with vq := t.vq.filter (fun r => r.issued != issued) }) s

/-- Perform one thing that is due. -/
def doDue (col row : Nat) (d : Due) (s : State) : State :=
  match partOf s col with
  | none => s
  | some p =>
    let a : At := { p := p, col := col, row := row, c := d.ctx, index := d.index, tag := d.tag }
    match d.op with
    | .late dst v => writeDst a dst v s
    | .cvtRead i => doCvtRead a i s
    | .storeRead n => doStoreRead a n s
    | .dotWord j k => doDotWord a j k s
    | .loadReturn n => doLoadReturn a n s
    | .free n => updTile col row (fun t => { t with vq := t.vq.filter (fun r => r.issued != n) }) s

/-- Reads come before the writes of their cycle (R40). -/
def Micro.isRead : Micro → Bool
  | .cvtRead _ | .storeRead _ | .dotWord _ _ => true
  | _ => false

/-- Perform what is due in a tile by this cycle and satisfies `sel`, in order (DESIGN CHOICE, log entry 8). -/
def runDues (col row : Nat) (sel : Due → Bool) (s : State) : State :=
  let now := s.canopy.now
  let ds := (getTile s col row).dues.filter (fun d => decide (d.at_ ≤ now) && sel d)
  ds.foldl (fun s d =>
    if (getTile s col row).dues.contains d then
      doDue col row d (updTile col row (fun t => { t with dues := t.dues.erase d }) s)
    else s) s

/-- The reads due by this cycle. -/
def dueReads (col row : Nat) (s : State) : State := runDues col row (fun d => d.op.isRead) s

/-! ### WAIT (R122) -/

/-- A pending bit of a context is set: a late result outstanding, a DOT or an MXCVT in progress. -/
def pendingReg (t : Tile) (c i : Nat) : Bool :=
  t.dues.any (fun d => d.ctx == c && (match d.op with | .late (.g k) _ => k == i | _ => false))
  || (match t.dot with | some d => d.ctx == c && d.dst == i | none => false)
  || (match t.cvt with | some d => d.ctx == c && d.dst == i | none => false)

/-- The pending bit of a predicate; PB0 has none (R37). -/
def pendingPred (t : Tile) (c i : Nat) : Bool :=
  i != 0 && t.dues.any (fun d => d.ctx == c && (match d.op with | .late (.pb k) _ => k == i | _ => false))

/-- Some pending bit of the context is set. -/
def pendingAny (t : Tile) (c : Nat) : Bool :=
  (List.range 16).any (pendingReg t c) || (List.range 8).any (pendingPred t c)

/-- The condition of a WAIT holds in this cycle. -/
def waitHolds (now : Nat) (t : Tile) (c : Nat) (w : Waiting) : Bool :=
  match w.mode with
  | 0 => decide (w.since + fldN w.imm 0 16 - 1 ≤ now)
  | 1 => decide ((t.vq.filter (fun r => r.ctx == c)).length ≤ fldN w.imm 0 5)
  | 2 => decide (fldN w.imm 2 4 ≤ ((t.inp (fldN w.imm 0 2)).queue c).length)
  | _ => !pendingAny t c

/-- Look at a waiting context: the condition is noted in the first cycle it holds in, but not past the bound of an image
of the fixed-latency class (R48, R122). -/
def checkWait (fixed : Bool) (c now : Nat) (t : Tile) : Tile :=
  match (t.ctx c).waiting with
  | some w => if w.met.isNone && !(fixed && decide (w.since + fldN w.imm 16 16 < now)) && waitHolds now t c w then t.updCtx c (fun x => { x with waiting := some { w with met := some now } }) else t
  | none => t

/-- A context issues in this cycle wherever it is active. -/
def issuable (s : State) (k : Ctx) : Bool :=
  (k.state.issues && (match k.lastIssue with | some n => decide (s.canopy.now ≤ n) | none => true)) || k.tail == some s.canopy.now

/-- A context of a fixed-latency class image that still issues has waited past its bound (R48, R122, R163). -/
def waitExpired (s : State) (p col row c : Nat) : Option Nat :=
  match ((getTile s col row).ctx c).waiting with
  | some w =>
    if w.met.isNone && issuable s ((getPart s p).ctx c) && ((getPart s p).ctx c).image.fixedClass && decide (w.since + fldN w.imm 16 16 < s.canopy.now) then some w.index
    else none
  | none => none

/-- F09 of a WAIT past its bound. -/
def expireWait (p col row c index : Nat) (s : State) : State :=
  let a : At := { p := p, col := col, row := row, c := c, index := index, tag := s.canopy.now }
  faultAt a 0x09 1 (updTile col row (fun t => t.updCtx c (fun x => { x with waiting := none })) s)

/-! ### Issue (R117) -/

/-- Mark a cycle in which an instruction issued, moving the program counter (R120). -/
def issued (a : At) (pc : Nat) (s : State) : State :=
  let now := s.canopy.now
  updPart a.p (fun x => { x with activity := now })
    (updTile a.col a.row (fun t => { t.updCtx a.c (fun x => { x with pc := BitVec.ofNat 6 pc, heldAt := none, creditHeld := false }) with issuedAt := some now }) s)

/-- Hold the context in this cycle (R48) (DEDUCED, log entry 19). -/
def holdAt (a : At) (s : State) : State :=
  updTile a.col a.row (fun t => t.updCtx a.c (fun x => { x with heldAt := some s.canopy.now })) s

/-- An instruction that stops its context with a fault uses its cycle. -/
def faultIssue (a : At) (code detail : Nat) (s : State) : State :=
  faultAt a code detail (updTile a.col a.row (fun t => { t with issuedAt := some s.canopy.now }) s)

/-- Value of a source selector; a scratch word is read apart. -/
def sourceVal (t : Tile) (c : Nat) (f : Fields) (scr : Val) (sel : Nat) : Val :=
  if sel < 16 then (t.ctx c).reg sel
  else if sel < 20 then
    match ((t.inp (sel - 16)).queue c).head? with
    | some k => { v := k.data, poison := k.poison }
    | none => {}
  else if sel < 22 then scr
  else if sel == 22 then { v := f.imm.setWidth 64 }
  else if sel == 23 then { v := f.imm.signExtend 64 }
  else if sel == 24 then { v := f.imm ++ f.imm }
  else {}

/-- Address of a direct or indexed scratch operand (R111, R112). -/
def scratchAddr (t : Tile) (c : Nat) (f : Fields) (indexed : Bool) : Nat :=
  if indexed then (f.addr + fldN ((t.ctx c).reg f.ireg).v 0 10) % 1024 else f.addr

/-- Destination of a one-result instruction. -/
def dstOf (t : Tile) (c : Nat) (f : Fields) : LateDst :=
  if f.dst < 16 then .g f.dst
  else if f.dst < 24 then .pb (f.dst - 16)
  else .scratch (scratchAddr t c f (f.dst == 25))

/-- The selectors whose operand the instruction consumes (R139), in order, with their values. -/
def consumed (t : Tile) (c : Nat) (f : Fields) (scr : Val) : List (Nat × Val) :=
  let v := sourceVal t c f scr
  let moved := f.opc == 0x22 || f.opc == 0x28 || f.opc == 0x29
  let srcs :=
    if moved then []
    else if f.opc == 0x2A || f.opc == 0x2B then [f.a]
    else if f.opc == 0x30 then [f.c, f.d]
    else if f.opc == 0x31 then (if f.sr then [f.b] else [])
    else f.sources.filter (· != 31)
  srcs.map (fun x => (x, v x))
    ++ (if f.usesIreg then [(f.ireg, (t.ctx c).reg f.ireg)] else [])
    ++ (if f.readsDst then [(f.dst, (t.ctx c).reg f.dst)] else [])

/-- Enter a vault request: its service cycle follows R150 (DEDUCED, log entry 39). -/
def enterRequest (a : At) (kind : VKind) (word scr : Nat) (s : State) : State :=
  let now := s.canopy.now
  let start := (getPart s a.p).start
  updTile a.col a.row (fun t =>
    let v := match t.lastV with
      | some (n, v0) => if start ≤ n then max (now + 16) (v0 + 1) else now + 16
      | none => now + 16
    let r : VReq := { ctx := a.c, kind := kind, index := a.index, word := word, scr := scr, issued := now, service := v }
    let t := { t with vq := t.vq ++ [r], lastV := some (now, v) }
    if kind == .store then
      addClaims ((List.range 4).map (fun j =>
          { at_ := now + 1, bank := (scr + j) % 4, write := false, user := 4, ctx := a.c, index := a.index, tag := now }))
        (addDue { at_ := now + 1, tag := now, ctx := a.c, index := a.index, op := .storeRead now } t)
    else t) s

/-- Start a DOT with its scale words (R135, R136). -/
def startDot (a : At) (f : Fields) (scaleA scaleB : W64) (s : State) : State :=
  let now := s.canopy.now
  updTile a.col a.row (fun t =>
    let x := t.ctx a.c
    let idx := fldN (x.reg f.ireg).v 0 10
    let fmtA := f.mode % 8
    let fmtB := f.mode / 8 % 8
    let lanes := mxLanes fmtA fmtB
    let n := f.count + 1
    let isLink (k : Nat) : Bool := decide (k < 20)
    let d : Dot :=
      { ctx := a.c, index := a.index, issued := now, fmtA := fmtA, fmtB := fmtB
        linkA := if isLink f.a then some (f.a - 16) else none
        linkB := if isLink f.b then some (f.b - 16) else none
        baseA := if f.a == 21 then (f.addr + idx) % 1024 else f.addr
        baseB := if f.b == 21 then (fldN f.imm 0 10 + idx) % 1024 else fldN f.imm 0 10
        selA := f.a, selB := f.b, scaleA := scaleA, scaleB := scaleB
        blocks := n, lanes := lanes, dst := f.dst
        sum := if f.mode.testBit 6 then fld (x.reg f.dst).v 0 32 else 0 }
    let words := max (mxWords fmtA) (mxWords fmtB)
    let t := { t with dot := some d, lanesUntil := now + n * lanes + 1 }
    let t := (List.range n).foldl (fun t j => (List.range words).foldl (fun t k =>
      addDue { at_ := now + 1 + j * lanes + k, tag := now, ctx := a.c, index := a.index, op := .dotWord j k } t) t) t
    let scr (link : Option Nat) (base user w : Nat) : List Claim :=
      if link.isSome then []
      else (List.range n).flatMap (fun j => (List.range w).map (fun k =>
        { at_ := now + 1 + j * lanes + k, bank := (base + j * w + k) % 4, write := false, user := user, ctx := a.c, index := a.index, tag := now }))
    addClaims (scr d.linkA d.baseA 1 (mxWords fmtA) ++ scr d.linkB d.baseB 2 (mxWords fmtB)) t) s

/-- Start an MXCVT (R137): its tag is CSEQ, which then increments, as they stand at issue (DEDUCED, log entry 43). -/
def startCvt (a : At) (f : Fields) (s : State) : State :=
  let now := s.canopy.now
  updTile a.col a.row (fun t =>
    let x := t.ctx a.c
    let fmt := f.mode % 8
    let k : Cvt :=
      { ctx := a.c, index := a.index, issued := now, fmt := fmt
        given := if f.mode.testBit 3 then some (fldN f.imm 24 8) else none
        sr := f.sr, key := (x.reg f.b).v, idx := (x.reg f.ireg).v, entry := f.mode / 32 % 4
        tag := x.cseq, old := (x.reg f.dst).v, dst := f.dst, addr := f.addr, out := fldN f.imm 0 10 }
    let t := { t with cvt := some k, vecUntil := now + 5 }
    let t := t.updCtx a.c (fun x => { x with cseq := x.cseq + 1 })
    let t := (List.range 4).foldl (fun t i => addDue { at_ := now + 1 + i, tag := now, ctx := a.c, index := a.index, op := .cvtRead i } t) t
    addClaims ((List.range 4).flatMap (fun i => (List.range 4).map (fun b =>
        { at_ := now + 1 + i, bank := b, write := false, user := 5, ctx := a.c, index := a.index, tag := now }))
      ++ (List.range (mxWords fmt)).map (fun i =>
        { at_ := now + 7, bank := (k.out + i) % 4, write := true, user := 5, ctx := a.c, index := a.index, tag := now })) t) s

/-- The effect of an instruction that has passed every case of R117. `va` to `vd` are its operand values. -/
def execute (at_ : At) (f : Fields) (va vb vc vd : Val) (mask : List Nat) (s : State) : State :=
  let now := s.canopy.now
  let t := getTile s at_.col at_.row
  let next := ((t.ctx at_.c).pc.toNat + 1) % 64
  let finish (dst : LateDst) (lat : Nat) (v : Val) : State :=
    if lat == 1 then issued at_ next (writeDst at_ dst v s)
    else if dst == .pb 0 then issued at_ next s
    else issued at_ next (updTile at_.col at_.row (fun t =>
      let t := addDue { at_ := now + lat - 1, tag := now, ctx := at_.c, index := at_.index, op := .late dst v } t
      match dst with
      | .scratch w => addClaims [{ at_ := now + lat - 1, bank := w % 4, write := true, user := 0, ctx := at_.c, index := at_.index, tag := now }] t
      | _ => t) s)
  match f.opc with
  | 0x00 => issued at_ next s
  | 0x01 =>
    let target := fldN f.imm 0 2
    let st := ((getPart s at_.p).ctx target).state
    if target == at_.c then issued at_ next s
    else if st == .empty then faultIssue at_ 0x0A (target + 16) s
    else
      let s := issued at_ next s
      if issuable s ((getPart s at_.p).ctx target) then updTile at_.col at_.row (fun t => { t with active := target }) s else s
  | 0x02 =>
    let w : Waiting := { since := now, mode := f.mode, imm := f.imm, index := at_.index }
    updTile at_.col at_.row (fun t => checkWait ((getPart s at_.p).ctx at_.c).image.fixedClass at_.c now (t.updCtx at_.c (fun x => { x with waiting := some w }))) (issued at_ next s)
  | 0x03 =>
    let n := va.v.toNat
    if 2 ≤ n then issued at_ (fldN f.imm 0 6) (writeDst at_ (.g f.dst) { v := va.v - 1 } s)
    else issued at_ next (writeDst at_ (.g f.dst) {} s)
  | 0x04 => issued at_ next (enterRequest at_ (.fold (fldN f.imm 0 16)) 0 0 s)
  | 0x05 => issued at_ next (updTile at_.col at_.row (fun t => t.updCtx at_.c (fun x =>
      { x with dseqA := fld f.imm 0 4, dseqB := fld f.imm 4 4, cseq := fld f.imm 8 4 })) s)
  | 0x20 => finish (dstOf t at_.c f) 2 { v := BitVec.ofNat 64 (b2n (fcmp (f.mode % 4) (f.mode / 4 % 8) va.v vb.v)) }
  | 0x21 => finish (dstOf t at_.c f) 1 { v := BitVec.ofNat 64 (b2n (icmp (f.mode / 4 % 8) va.v vb.v)) }
  | 0x22 => finish (dstOf t at_.c f) 1 (if (t.ctx at_.c).pred (fldN f.imm 0 3) then va else vb)
  | 0x28 => finish (dstOf t at_.c f) 1 va
  | 0x29 => issued at_ next (mask.foldl (fun s d =>
      placeToken at_.p at_.col at_.row d { data := va.v, ctx := at_.c, poison := va.poison } s) s)
  | 0x2A => issued at_ next (enterRequest at_ .load ((fldN va.v 0 32 + f.imm.toNat) % 2 ^ 32) f.addr s)
  | 0x2B => issued at_ next (enterRequest at_ .store ((fldN va.v 0 32 + f.imm.toNat) % 2 ^ 32) f.addr s)
  | 0x30 => issued at_ next (startDot at_ f vc.v vd.v s)
  | 0x31 => issued at_ next (startCvt at_ f s)
  | _ =>
    let draw := drawAt s at_.p vb.v ((t.ctx at_.c).reg f.ireg).v
    finish (dstOf t at_.c f) (latencyOf f) { v := resultOf f draw va.v vb.v vc.v }

/-- The scratch word an instruction other than DOT, MXCVT and STV reads, if any. -/
def scratchSource (t : Tile) (c : Nat) (f : Fields) : Option Nat :=
  if f.opc == 0x30 || f.opc == 0x31 || f.opc == 0x2B then none
  else if f.sources.contains 20 then some f.addr
  else if f.sources.contains 21 then some (scratchAddr t c f true)
  else none

/-- Cycles from an issue to the arrival of its G or PB result, none where it writes neither (R118, R137, R145) (DEDUCED, log entry 22). -/
def arrivalOf (f : Fields) : Option Nat :=
  if f.dst == 16 || 23 < f.dst then none
  else if f.opc == 0x30 then some ((f.count + 1) * mxLanes (f.mode % 8) (f.mode / 8 % 8) + 5)
  else if f.opc == 0x31 then some 7
  else some (latencyOf f - 1)

/-- A late result of the context claims the register write port in a cycle (R118) (DEDUCED, log entry 22). -/
def portClaimed (t : Tile) (c at_ : Nat) : Bool :=
  t.dues.any (fun d => d.ctx == c && d.at_ == at_ && d.op.pends)
    || (match t.dot with | some d => d.ctx == c && d.issued + d.blocks * d.lanes + 5 == at_ | none => false)
    || (match t.cvt with | some k => k.ctx == c && k.issued + 7 == at_ | none => false)

/-- A register or predicate the instruction uses has its pending bit set, or the unit it needs is occupied (R117, R136, R137). -/
def notReady (now : Nat) (t : Tile) (c : Nat) (f : Fields) : Bool :=
  f.regsRead.any (pendingReg t c)
    || (decide (f.dst < 16) && pendingReg t c f.dst)
    || (decide (16 ≤ f.dst) && decide (f.dst ≤ 23) && pendingPred t c (f.dst - 16))
    || (f.opc == 0x22 && pendingPred t c (fldN f.imm 0 3))
    || (f.opc == 0x30 && decide (now < t.lanesUntil))
    || (usesVector f.opc && decide (now < t.vecUntil))

/-- A link the instruction pops at issue has no token for its context (R117). -/
def emptyLink (t : Tile) (c : Nat) (f : Fields) : Bool := f.popsAtIssue.any (fun d => ((t.inp d).queue c).isEmpty)

/-- Outputs a SEND names (R131). -/
def sendMask (f : Fields) : List Nat := (List.range 4).filter (fun d => f.mode.testBit d)

/-- What stops a SEND from leaving; nothing stops another instruction (R117). -/
def sendGate (a : At) (f : Fields) (s : State) : Gate :=
  if f.opc == 0x29 then
    gateOf s a.p a.col a.row a.c (sendMask f) true ((getTile s a.col a.row).ctx a.c).creditHeld (readyPasses s a.p a.col a.row)
  else .go

/-- The vault queue has no room for the request of an LDV, STV or FOLD_CUT (R117). -/
def vaultFull (t : Tile) (f : Fields) : Bool :=
  (f.opc == 0x2A || f.opc == 0x2B || f.opc == 0x04) && decide (16 ≤ t.vq.length)

/-- The instruction's own result would meet a late one on the register write port (R118) (DEDUCED, log entries 19, 22). -/
def portTaken (now : Nat) (t : Tile) (c : Nat) (f : Fields) : Bool := (arrivalOf f).any (fun n => portClaimed t c (now + n))

/-- The scratch operand of the instruction with its poison bit, before the read is counted. -/
def peekScratch (t : Tile) (c : Nat) (f : Fields) : Val :=
  match scratchSource t c f with
  | some w => { v := (t.word w).data, poison := (t.word w).poison || decide (2 ≤ (t.word w).err) }
  | none => {}

/-- The first operand that the instruction consumes poisoned, by its selector (R117, R139). -/
def poisoned (t : Tile) (c : Nat) (f : Fields) : Option Nat :=
  ((consumed t c f (peekScratch t c f)).find? (fun p => p.2.poison)).map (fun p => p.1)

/-- LDV and STV access the vault (R132). -/
def usesVault (f : Fields) : Bool := f.opc == 0x2A || f.opc == 0x2B

/-- The vault word address of an LDV or STV (R132). -/
def vaultWord (t : Tile) (c : Nat) (f : Fields) : Nat := (fldN ((t.ctx c).reg f.a).v 0 32 + f.imm.toNat) % 2 ^ 32

/-- The scratch operand of the instruction as it is read at issue, with what the read leaves: none where it does not take place. -/
def scratchOperand (a : At) (f : Fields) (s : State) : Option Val × State :=
  match scratchSource (getTile s a.col a.row) a.c f with
  | some w => readScratch a 0 w s
  | none => (some {}, s)

/-- The scratch word an instruction names as its destination (R112). -/
def scratchDst (t : Tile) (c : Nat) (f : Fields) : Option Nat :=
  if f.dst == 24 || f.dst == 25 then some (scratchAddr t c f (f.dst == 25)) else none

/-- The scratch destination lies outside the context's allocation (R43, R156). -/
def dstOutside (a : At) (f : Fields) (s : State) : Option Nat :=
  if f.opc == 0x2A then none
  else (scratchDst (getTile s a.col a.row) a.c f).filter (fun w => !ownsScratch (getPart s a.p) a.c w)

/-- The tokens an instruction takes leave their links (R113). -/
def takeTokens (a : At) (f : Fields) (s : State) : State := f.popsAtIssue.foldl (fun s d => popToken a.col a.row d a.c s) s

/-- What the encoding rules look at beside the word (R140). -/
def envOf (s : State) (a : At) : IssueEnv :=
  { row := a.row, route := routeOf s a.p a.col a.row a.c, depths := (List.range 4).map (fun d => ((getTile s a.col a.row).inp d).depth a.c)
    fixedClass := ((getPart s a.p).ctx a.c).image.fixedClass }

/-- Of two contexts in collision the record names the lower (R164, R166); its INSTR_INDEX is that of the SEND (DEDUCED, log entry 19). -/
def gateFault (a : At) (code detail : Nat) (others links : List Nat) (s : State) : State :=
  let c := (a.c :: others).foldl min a.c
  raiseFault a.p code a.col a.row c a.index (BitVec.ofNat 32 detail) ((a.c :: others).filter (· != c)) true
    (updTile a.col a.row (fun t => { t with issuedAt := some s.canopy.now }) (useLinks a.col a.row links s))

/-- The cases of R117 from "Illegal encoding" to the instruction's own scratch read, for one whose predicate is true: what stops
or holds it, none if nothing does. The write port of R118 is tested after the Resource case, and its hold is a hold of R48 (DEDUCED, log entry 19). -/
def issueStop (a : At) (f : Fields) (s : State) : Option State :=
  let now := s.canopy.now
  let x := getPart s a.p
  let t := getTile s a.col a.row
  let queueMode := !x.padded && !(x.ctx a.c).image.fixedClass
  let word := vaultWord t a.c f
  match illegalRows f (envOf s a) with
  | r :: _ => some (faultIssue a 0x0B r s)
  | [] =>
    if notReady now t a.c f then some (if x.padded then faultIssue a 0x09 2 s else holdAt a s)
    else if emptyLink t a.c f then some (if queueMode then faultIssue a 0x0B 8 s else faultIssue a 0x09 4 s)
    else
      match sendGate a f s with
      | .hold => some (updTile a.col a.row (fun t => t.updCtx a.c (fun x => { x with creditHeld := true })) (holdAt a s))
      | .bad code detail others links => some (gateFault a code detail others links s)
      | .go =>
        if vaultFull t f then some (if x.padded then faultIssue a 0x05 0 s else holdAt a s)
        else if portTaken now t a.c f then some (if queueMode then holdAt a s else faultIssue a 0x09 5 s)
        else
          match poisoned t a.c f with
          | some sel => some (faultIssue a 0x07 sel s)
          | none =>
            if usesVault f && decide (vaultWords s ≤ word) then some (faultIssue a 0x0B 13 s)
            else if usesVault f && !ownsVault s x a.c (vaultOf a.col a.row) word then some (faultIssue a 0x08 (1 + 256 * (word / 128)) s)
            else none

/-- The cases of R117 for an instruction whose predicate is true: what `issueStop` says, else its scratch read and its effect (DEDUCED, log entry 19). -/
def issueCases (a : At) (f : Fields) (s : State) : State :=
  match issueStop a f s with
  | some t => t
  | none =>
    let t := getTile s a.col a.row
    match scratchOperand a f s with
    | (none, s) => updTile a.col a.row (fun t => { t with issuedAt := some s.canopy.now }) s
    | (some scr, s) =>
      let v := sourceVal t a.c f scr
      match dstOutside a f s with
      | some w => faultIssue a 0x08 (256 * w) s
      | none => execute a f (v f.a) (v f.b) (v f.c) (v f.d) (sendMask f) (takeTokens a f s)

/-- An instruction's predicate bit is pending (R117). -/
def predPending (a : At) (f : Fields) (s : State) : Bool := pendingPred (getTile s a.col a.row) a.c f.pred

/-- Its predicate, taken with its sense, is false (R46). -/
def predFalse (a : At) (f : Fields) (s : State) : Bool := ((getTile s a.col a.row).ctx a.c).pred f.pred == f.pneg

/-- An instruction reaches issue in the active context (R117): the cases before "Illegal encoding" (DESIGN CHOICE, log entry 37). -/
def issueWord (a : At) (f : Fields) (s : State) : State :=
  if predPending a f s then (if (getPart s a.p).padded then faultIssue a 0x09 2 s else holdAt a s)
  else if predFalse a f s then issued a ((((getTile s a.col a.row).ctx a.c).pc.toNat + 1) % 64) s
  else issueCases a f s

/-- The scratch word of its context's allocation that an instruction reads at issue, if it comes so far. -/
def ownRead (a : At) (f : Fields) (s : State) : Option Nat :=
  if predPending a f s || predFalse a f s || (issueStop a f s).isSome then none
  else (scratchSource (getTile s a.col a.row) a.c f).filter (ownsScratch (getPart s a.p) a.c)

/-- The opcode is in the table of R119 (DESIGN CHOICE, log entry 37). -/
def opcListed (opc : Nat) : Bool := (opcRow opc 0).isSome

/-- The place of the active context of a tile, when it may issue in this cycle (DESIGN CHOICE, log entry 8). -/
def issuePlace (s : State) (col row : Nat) : Option At :=
  match partOf s col with
  | none => none
  | some p =>
    let t := getTile s col row
    let c := t.active
    if s.canopy.paused || t.issuedAt == some s.canopy.now || t.endedAt == some s.canopy.now || !issuable s ((getPart s p).ctx c) then none
    else
      match (t.ctx c).waiting with
      | some w =>
        match w.met with
        | some m => if m < s.canopy.now then some { p := p, col := col, row := row, c := c, index := (t.ctx c).pc.toNat, tag := s.canopy.now } else none
        | none => none
      | none => some { p := p, col := col, row := row, c := c, index := (t.ctx c).pc.toNat, tag := s.canopy.now }

/-- The instruction word at the program counter of a place (DESIGN CHOICE, log entry 37). -/
def wordAt (s : State) (a : At) : BitVec 96 :=
  let x := getPart s a.p
  (x.ctx a.c).image.codeAt (a.col - x.firstCol) a.row a.index

/-- The reads due by this cycle in a tile. The instruction that issues in it has claimed the bank of its own scratch read, so that
of a double claim neither access takes place, whichever is looked at first (R40). Where it takes a token of a link from which a
DOT's word takes one too, the DOT's leaves first (DEDUCED, log entries 19, 43). -/
def runReads (col row : Nat) (s : State) : State :=
  if (getTile s col row).dues.all (fun d => !(decide (d.at_ ≤ s.canopy.now) && d.op.isRead)) then s
  else
  let t := dueReads col row s
  match (issuePlace s col row).bind (fun a => (ownRead a (fieldsOf (wordAt s a)) t).map (fun w => (a, w))) with
  | some (a, w) => dueReads col row (updTile col row (noteClaim s.canopy.now (w % 4) false 0 a.c a.index a.tag) s)
  | none => t

/-- The state in which the instruction at a place issues: the reads due in this cycle have been made, and a WAIT that has
been met is over (R40, R122) (DESIGN CHOICE, log entry 37). -/
def atIssue (a : At) (s : State) : State :=
  updTile a.col a.row (fun t => t.updCtx a.c (fun x => { x with waiting := none })) (runReads a.col a.row s)

/-- A tile issues the instruction at its program counter, if that is one of those `sel` admits (DESIGN CHOICE, log entry 37). -/
def issueTile (sel : Nat → Bool) (col row : Nat) (s : State) : State :=
  match issuePlace s col row with
  | none => s
  | some a =>
    let f := fieldsOf (wordAt s a)
    if sel f.opc then issueWord a f (atIssue a s) else s

end Sys2Proof.Machine
end

