-- ==== Sys2Proof/Machine/Auxiliary.lean ====
section
/-! DEFINITION. Banks, calendar slots and the auxiliary traffic of the vaults (R171 to R173). -/

namespace Sys2Proof.Machine

open Sys2Proof

/-! ### Spill-queue regions -/

/-- A spill queue. -/
def getQueue (s : State) (q : Nat) : Spill := Table.get {} s.queues q

/-- Changing a spill queue. -/
def updQueue (q : Nat) (f : Spill → Spill) (s : State) : State := { s with queues := Table.upd {} s.queues q f }

/-- Capacity in cells (R179, R180). -/
def Spill.capacity (x : Spill) : Nat := if x.vaults == 0 then 128 else x.vaults * x.pages * 64

/-- Device memory word of the first half of ring position `i` of a region (R180). -/
def Spill.position (x : Spill) (n : Nat) : Nat :=
  let i := n % x.capacity
  (x.firstVault + i % x.vaults) * 2 ^ 20 + x.firstPage * 128 + i / x.vaults * 2

/-- The word that the oldest cell of the tail buffer next writes to the region (R188). -/
def Spill.regionWrite (x : Spill) : Option Nat :=
  if x.vaults == 0 || !x.tail.any (fun kv => kv.1 == x.moved) then none else some (x.position x.moved + b2n x.half)

/-- The cell that the head buffer takes next (R188). -/
def Spill.headNext (x : Spill) : Nat := max x.filled x.rd

/-- The word that the head buffer next reads from the region (R188). -/
def Spill.regionRead (x : Spill) : Option Nat :=
  let n := x.headNext
  if x.vaults != 0 && decide (n < x.moved) && decide (n < x.wr) && decide (n - x.rd < 64) then
    some (x.position n + b2n (!x.fetched.isEmpty))
  else none

/-! ### Banks and slots -/

/-- A bank of a physical vault is not occupied. -/
def bankFree (s : State) (pv bank : Nat) : Bool :=
  decide (Table.get 0 s.vaults.bankUntil (16 * pv + bank) ≤ s.canopy.now) && decide (Table.get 0 s.vaults.auxUntil (16 * pv + bank) ≤ s.clk.aclk)

/-- Cycles since the START of the partition whose calendar a physical vault keeps (R171). -/
def calendarOf (s : State) (pv : Nat) : Option Nat :=
  match (logicalOf s pv).bind (fun v => partOf s (v / 32)) with
  | some p => if (getPart s p).padded && (getPart s p).busy then some (s.canopy.now - (getPart s p).start) else none
  | none => none

/-- Occupy a bank by a request under a contract: 40 cycles of the canopy (R151, LC-1) (DESIGN CHOICE, log entry 2). -/
def occupy (pv bank until_ : Nat) (s : State) : State :=
  { s with vaults := { s.vaults with bankUntil := Table.set 0 s.vaults.bankUntil (16 * pv + bank) until_ } }

/-- ACLK cycles for which an access occupies its bank on this stepping (R3). -/
def bankCycles (s : State) : Nat := if s.part.b0 then 32 else 40

/-- Occupy a bank by an access under no contract, served in this cycle (DESIGN CHOICE, log entry 2). -/
def occupyBank (pv bank : Nat) (s : State) : State :=
  { s with vaults := { s.vaults with auxUntil := Table.set 0 s.vaults.auxUntil (16 * pv + bank) (s.clk.aclk + bankCycles s) } }

/-- The vault has served in this cycle. -/
def markServed (pv : Nat) (s : State) : State :=
  { s with vaults := { s.vaults with servedAt := Table.set 0 s.vaults.servedAt pv (s.clk.aclk + 1) } }

/-- A physical vault has served in this cycle. -/
def servedNow (s : State) (pv : Nat) : Bool := Table.get 0 s.vaults.servedAt pv == s.clk.aclk + 1

/-! ### Tile requests -/

/-- A request of a tile that has not been served. -/
def nextRequest (t : Tile) : Option VReq := t.vq.find? (fun r => r.loaded.isNone)

/-- The oldest request of a tile is ready to be served by the physical vault: in queue mode 16 cycles after its issue
and with its bank free (DEDUCED, log entry 39). -/
def requestReady (s : State) (pv col row : Nat) : Bool :=
  match nextRequest (getTile s col row) with
  | some q => decide (q.issued + 16 ≤ s.canopy.now) && !(q.kind == .store && q.data.isNone)
      && ((match q.kind with | .fold _ => true | _ => false) || bankFree s pv (bankOf q.word))
  | none => false

/-- A tile request of a logical vault is ready. -/
def tileReady (s : State) (v : Nat) : Bool :=
  !s.canopy.paused && (List.range 16).any (fun i => requestReady s (physVault s v) (v / 32) (v % 32 * 16 + i))

/-! ### Auxiliary accesses that wait -/

/-- Rank of an access in the order of priority (R173). -/
def AuxKind.rank : AuxKind → Nat
  | .overdue => 1
  | .repair => 2
  | .cell => 3
  | .host => 4
  | .refresh => 5
  | .scrub => 6

/-- ACLK cycles within which every row is refreshed: 32 ms, or 16 ms above 85 °C (R173) (DESIGN CHOICE, log entry 4). -/
def refreshLimit (s : State) : Nat := (if 85 < s.power.maxC then 800000 else 1600000) * max 1 s.clk.units

/-- Key of a row in the table of refreshes. -/
def RowId.key (r : RowId) : Nat := ((r.vault * 16 + r.bank) * 4 + r.die) * 256 + r.row

/-- The refresh of a row has reached its deadline (R173) (DEDUCED, log entry 39). -/
def refreshDue (s : State) (r : RowId) : Bool :=
  decide (max s.vaults.refreshBase (Table.get 0 s.vaults.refreshed r.key) + refreshLimit s ≤ s.clk.aclk)

/-- Dies of a stack (R168). -/
def dies (s : State) : Nat := if s.part.x2 then 2 else 4

/-- Banks of a physical vault with a row whose refresh has reached its deadline. -/
def dueBanks (s : State) (pv : Nat) : List Nat :=
  if s.clk.aclk < s.vaults.refreshBase + refreshLimit s then []
  else (List.range 16).filter (fun b => (List.range (dies s)).any (fun d => (List.range 256).any (fun r =>
    refreshDue s { vault := pv, bank := b, die := d, row := r })))

/-- The row under repair, or else the next row queued for repair (R177). -/
def nextRepair (s : State) : Option RowId :=
  match s.vaults.redirects.find? (fun d => decide (d.copied < 64)) with
  | some d => some d.row
  | none => s.vaults.repairQueue.head?

/-- Physical vault and bank of the next access of the background scrub (R174, R176). -/
def nextScrub (s : State) : Option (Nat × Nat) :=
  if !s.vaults.scrubEnable then none
  else match s.vaults.visits with
    | v :: _ => some (v.1.vault, v.1.bank)
    | [] => some (physVault s (s.vaults.scrubAt / 2 ^ 20), bankOf (s.vaults.scrubAt % 2 ^ 20))

/-- Address of a memory command (R360). -/
def memAddr (f : Flight) : Nat := f.pkt.at_ 0 5

/-- Address and LENGTH of a LOAD_IMAGE, and the length of its range. -/
def loadAddr (f : Flight) : Nat := f.pkt.at_ 1 5
def loadLen (f : Flight) : Nat := f.pkt.at_ 6 4
def loadBytes (f : Flight) : Nat := 32 * ceilDiv (loadLen f) 32

/-- Range of an FW_UPDATE: address and whole words (R397). -/
def fwAddr (f : Flight) : Nat := f.pkt.at_ 0 5
def fwLen (f : Flight) : Nat := f.pkt.at_ 5 4
def fwBytes (f : Flight) : Nat := 32 * ceilDiv (fwLen f) 32

/-- The next device memory word that an operation reads or writes: that of a memory command, or of a LOAD_IMAGE or FW_UPDATE
that reads its image (R356, R360, R397). -/
def wordNext (f : Flight) : Option Nat :=
  let next (base done len : Nat) : Option Nat := if f.phase == .active && decide (done < len) then some ((base + done) / 32) else none
  match f.op with
  | .memRead | .memWrite | .memFill | .scrub => next (memAddr f) (f.progress + f.bytes.length) f.total
  | .loadImage => if f.stage == 0 then next (loadAddr f) f.bytes.length (loadBytes f) else none
  | .fwUpdate => if f.stage == 0 then next (fwAddr f) f.bytes.length (fwBytes f) else none
  | _ => none

/-- Kinds and banks of the auxiliary accesses that wait at a physical vault. A refresh before its deadline waits once it
has been offered (DEDUCED, log entry 39). -/
def auxWants (s : State) (pv : Nat) : List (AuxKind × Nat) :=
  let word (k : AuxKind) (a : Nat) : Option (AuxKind × Nat) :=
    if physVault s (devVault a) == pv then some (k, bankOf (devWord a)) else none
  (dueBanks s pv).map (fun b => (.overdue, b))
    ++ (match nextRepair s with
      | some r => if r.vault == pv then [(.repair, r.bank)] else []
      | none => [])
    ++ s.queues.flatMap (fun kv => (kv.2.regionWrite.toList ++ kv.2.regionRead.toList).filterMap (word .cell))
    ++ ((stepping s).bind wordNext).toList.filterMap (word .host)
    ++ (s.vaults.auxWait.filter (fun w => w.vault == pv && w.kind == .refresh)).map (fun w => (w.kind, w.bank))
    ++ (match nextScrub s with
      | some x => if x.1 == pv then [(.scrub, x.2)] else []
      | none => [])

/-- An access that has been offered waits (R172). -/
def noteWait (k : AuxKind) (pv bank : Nat) (s : State) : State :=
  if (calendarOf s pv).isSome || s.vaults.auxWait.any (fun w => w.vault == pv && w.bank == bank && w.kind == k) then s
  else { s with vaults := { s.vaults with
    auxWait := s.vaults.auxWait ++ [{ vault := pv, bank := bank, kind := k, since := s.clk.aclk }] } }

/-- An access has waited 1,024 cycles (R172). -/
def hasAged (s : State) (w : AuxWait) : Bool := decide (w.since + 1024 ≤ s.clk.aclk)

/-- A tile request of a physical vault is ready. -/
def tileFirst (s : State) (pv : Nat) : Bool :=
  match logicalOf s pv with
  | some v => tileReady s v
  | none => false

/-- An access that waits has waited 1,024 cycles. -/
def waitedLong (s : State) (k : AuxKind) (pv bank : Nat) : Bool :=
  s.vaults.auxWait.any (fun w => w.vault == pv && w.bank == bank && w.kind == k && hasAged s w)

/-- An access of a vault that still waits has waited 1,024 cycles and finds its bank free: it goes ahead of tile requests (R172). -/
def agedReady (s : State) (pv : Nat) : Bool :=
  s.vaults.auxWait.any (fun w => w.vault == pv && hasAged s w && bankFree s pv w.bank && (auxWants s pv).contains (w.kind, w.bank))

/-! ### Service -/

/-- An access of a higher priority could be served in the same cycle: one that itself leaves the cycle to a tile request could not
(R172, R173) (DEDUCED, log entry 39). -/
def outranked (s : State) (k : AuxKind) (pv bank : Nat) : Bool :=
  (auxWants s pv).any (fun w => decide (w.1.rank < k.rank) && (if (calendarOf s pv).isSome then w.2 == bank
    else bankFree s pv w.2 && (waitedLong s w.1 pv w.2 || !tileFirst s pv)))

/-- An auxiliary access is served: its bank is occupied, and it waits no more. -/
def served (k : AuxKind) (pv bank : Nat) (s : State) : State :=
  let s := markServed pv (occupyBank pv bank s)
  { s with vaults := { s.vaults with auxWait := s.vaults.auxWait.filter (fun w => !(w.vault == pv && w.bank == bank && w.kind == k)) } }

/-- An auxiliary access can be served in this cycle (R171 to R173). Under a calendar it needs a slot of its bank; elsewhere it
leaves the cycle to a ready tile request until it has waited 1,024 cycles (DEDUCED, log entry 26). -/
def auxOpen (k : AuxKind) (pv bank : Nat) (s : State) : Bool :=
  !s.vaults.retraining && !s.vaults.selfRefresh && !servedNow s pv && !outranked s k pv bank &&
    match calendarOf s pv with
    | some cyc => !s.canopy.paused && cyc % 64 == 63 && cyc / 64 % 16 == bank
    | none =>
      bankFree s pv bank &&
        (waitedLong s k pv bank || !tileFirst s pv)

/-- Serve an auxiliary access with its effect, or have it wait. -/
def auxAccess (k : AuxKind) (pv bank : Nat) (effect : State → State) (s : State) : State :=
  if auxOpen k pv bank s then effect (served k pv bank s) else noteWait k pv bank s

/-- Serve an access to a word of device memory, or have it wait (DEDUCED, log entry 26). -/
def wordAccess (k : AuxKind) (a : Nat) (effect : State → State) (s : State) : State :=
  auxAccess k (physVault s (devVault a)) (bankOf (devWord a)) effect s

/-! ### Words of host operations -/

/-- The operation's next word of device memory is accessed, or waits for its bank and its slot as every auxiliary access does (R171 to R173) (DEDUCED, log entry 26). -/
def accessNext (f : Flight) (effect : Nat → State → State) (s : State) : State :=
  match wordNext f with
  | some a => wordAccess .host a (effect a) s
  | none => s

/-- An operation with its next image word read; PROGRESS of a LOAD_IMAGE counts the image bytes read (R349). -/
def Flight.withWord (g : Flight) (w : List Byte) : Flight :=
  let b := g.bytes ++ w
  { g with bytes := b, progress := if g.op == .loadImage then min (loadLen g) b.length else g.progress }

/-- An operation reads the next word of its image into `bytes`. -/
def readImage (f : Flight) (s : State) : State :=
  accessNext f (fun a s =>
    let r := readWord (devVault a) (devWord a) srcHost s
    updFlight f.id (fun g => g.withWord r.1.1) r.2) s

/-- The image of an operation has been read whole. -/
def imageRead (s : State) (f : Flight) : Option Flight := (findFlight s f.id).filter (fun g => (wordNext g).isNone)

/-- A step is not over: words of it are still to be accessed (R345) (DEDUCED, log entry 11). -/
def Flight.midStep (g : Flight) : Bool :=
  g.phase == .active && (match g.op with
    | .memRead | .memWrite | .memFill | .scrub => decide (0 < g.stepLeft)
    | .loadImage | .fwUpdate => g.stage == 0
    | _ => false)

end Sys2Proof.Machine
end

