-- ==== Sys2Proof/Machine/Links.lean ====
section
/-! DEFINITION. Tokens in transit and vault requests of tiles: arrival, pass-through, credits, service and return (R49 to R59, R69, R150 to R152). -/

namespace Sys2Proof.Machine

open Sys2Proof

/-- The SEND that stands ready in a tile in this cycle: its context and index, and its outputs. -/
def sendReady (s : State) (col row : Nat) : Option (At × List Nat) :=
  match issuePlace s col row with
  | none => none
  | some a =>
    let t := getTile s col row
    let f := fieldsOf (wordAt s a)
    if f.opc == 0x29 && !pendingPred t a.c f.pred && ((t.ctx a.c).pred f.pred != f.pneg)
        && !f.regsRead.any (pendingReg t a.c) && !f.popsAtIssue.any (fun d => ((t.inp d).queue a.c).isEmpty) then
      some (a, (List.range 4).filter (fun d => f.mode.testBit d))
    else none

/-- Its context and outputs. -/
def sendWants (s : State) (col row : Nat) : Option (Nat × List Nat) := (sendReady s col row).map (fun w => (w.1.c, w.2))

/-- A partition's tokens move: a context runs, or this is the cycle its run ended in (DEDUCED, log entry 20). -/
def tokensMove (s : State) (p : Nat) : Bool :=
  (List.range 4).any (fun c => issuable s ((getPart s p).ctx c)) && !s.canopy.paused

/-- A token of a sample frame was lost: the frame of its word is not delivered again (R245) (DESIGN CHOICE, log entry 3). -/
def loseSampleWord (p col row d at_ : Nat) (s : State) : State :=
  match (edgeSide row d).bind (boundPort s p col) with
  | some (_, e) =>
    if e.unit == 8 then
      { s with trig := { s.trig with streams := Table.upd {} s.trig.streams (e.index % 16) (fun x =>
        { x with lost := ((x.recent.find? (fun r => r.1 == at_)).map (fun r => r.2)) <|> x.lost }) } }
    else s
  | none => s

/-- TOKEN_ARRIVAL: the oldest token on an input link arrives (R50, R55, R57); `parityOk` is what the receiver finds (R49) (DEDUCED, log entry 20). -/
def tokenArrival (col row d : Nat) (parityOk : Bool) (s : State) : State :=
  match partOf s col, ((getTile s col row).inp d).wire with
  | some p, w :: rest =>
    if s.canopy.now < w.at_ + 1 then s
    else
      let s := updTile col row (fun t => t.updIn d (fun l => { l with wire := rest })) s
      let s := if parityOk then s else updPart p (fun x => { x with linkParity := satAdd x.linkParity 1 }) s
      let k : Tok := { w.tok with poison := w.tok.poison || !parityOk }
      let c := k.ctx
      let st := ((getPart s p).ctx c).state
      if st == .empty || st == .loading then
        freeCredit col row d c (raiseFault p 0x0A col row c 0xFF (BitVec.ofNat 32 (c % 4 + 4 * d)) [] false s)
      else
        let route := routeOf s p col row c
        let outs := selecting route d
        let l := (getTile s col row).inp d
        let moved := c == 0 && !l.spilled.isEmpty
        let canTake := outs.all (fun o => granted s p col row o c && hasCredit s p col row o c)
        if routePass route d && (l.queue c).isEmpty && !moved && l.pass.isNone && canTake && tokensMove s p then
          updTile col row (fun t => t.updIn d (fun l => { l with pass := some k })) s
        else if l.depth c ≤ (l.queue c).length + (if c == 0 then l.behind.length else 0) then
          loseSampleWord p col row d w.at_ (raiseFault p 0x09 col row c 0xFF 6 [] true s)
        else if moved then updTile col row (fun t => t.updIn d (fun l => { l with behind := l.behind ++ [k] })) s
        else updTile col row (fun t => t.updIn d (fun l => l.updQueue c (fun q => q ++ [k]))) s
  | _, _ => s

/-- PASS_TOKEN_DEPART: the pass-through token of context `c` at input `d` leaves on every output that selects it, when
all of them can take it in this cycle (R55, R58, R59) (DEDUCED, log entry 19). -/
def passDepart (col row d c : Nat) (s : State) : State :=
  match partOf s col with
  | none => s
  | some p =>
    let route := routeOf s p col row c
    let outs := selecting route d
    let l := (getTile s col row).inp d
    match passReady l c with
    | none => s
    | some k =>
      if !routePass route d || outs.isEmpty || !tokensMove s p then s
      else
        let send := sendWants s col row
        let x := getPart s p
        let sendAt (o : Nat) : Option Nat := match send with
          | some (c2, m) => if m.contains o then some c2 else none
          | none => none
        let lost := !outs.all (fun o => chooses s p col row o (sendAt o) == some c)
        let rivals := readyPasses s p col row ++ send.toList
        let gate := if !x.byteMode then gateOf s p col row c outs false false rivals
          else if !lost then .go
          else if (x.ctx c).image.fixedClass then .bad 0x09 3 [] []
          else .hold
        match gate with
        | .hold => s
        | .bad code detail others links =>
          let index := match sendReady s col row with
            | some (a, _) => if others.contains a.c then a.index else 0xFF
            | none => 0xFF
          raiseFault p code col row ((c :: others).foldl min c) index (BitVec.ofNat 32 detail)
            ((c :: others).filter (· != (c :: others).foldl min c)) true (useLinks col row links s)
        | .go =>
          let s := outs.foldl (fun s o => placeToken p col row o k s) s
          let s := updTile col row (fun t => t.updIn d (fun l =>
            match l.pass with
            | some k2 => if k2.ctx == c then { l with pass := none } else l.updQueue c (fun q => q.drop 1)
            | none => l.updQueue c (fun q => q.drop 1))) s
          freeCredit col row d c s

/-- CREDIT_RETURN: the credits freed in earlier cycles reach the sender (R56). -/
def creditReturn (col row d : Nat) (s : State) : State :=
  updTile col row (fun t => t.updOut d (fun o => o.settle s.canopy.now)) s

/-! ### Vault requests -/

/-- A bank is in its calendar span at cycle `a` of the partition's count (R171). -/
def calendarClash (a bank : Nat) : Bool :=
  let near (slot : Nat) : Bool :=
    decide (slot ≤ a + 39) && decide (a ≤ slot + 39) && slot / 64 % 16 == bank
  near (a / 64 * 64 + 63) || near ((a / 64 + 1) * 64 + 63) || (decide (64 ≤ a) && near (a / 64 * 64 - 1))

/-- Drop a request: it is not served and its entry is removed (R163). -/
def dropRequest (col row issued : Nat) (s : State) : State :=
  updTile col row (fun t => { t with vq := t.vq.filter (fun r => r.issued != issued) }) s

/-- Serve a request (R150, R170): `last` is the cycle in which its effect on the tile falls. -/
def serveRequest (p col row : Nat) (r : VReq) (padded : Bool) (s : State) : State :=
  let v := vaultOf col row
  let at_ := if padded then r.service else s.canopy.now
  let mark (vals : List Val) (due : List Due) (claims : List Claim) (s : State) : State :=
    updTile col row (fun t =>
      let t := { t with vq := t.vq.map (fun q => if q.issued == r.issued then { q with loaded := some (at_, vals) } else q) }
      due.foldl (fun t d => addDue d t) (addClaims claims t)) s
  let freeDue : Due := { at_ := at_, tag := r.issued, ctx := r.ctx, index := r.index, op := .free r.issued }
  match r.kind with
  | .load =>
    let w := readWord v r.word srcTile s
    let vals := (bytesW64 w.1.1).map (fun x => { v := x, poison := w.1.2 : Val })
    if padded then
      mark vals [{ at_ := at_ + 143, tag := r.issued, ctx := r.ctx, index := r.index, op := .loadReturn r.issued }]
        ((List.range 4).map (fun j => { at_ := at_ + 143, bank := (r.scr + j) % 4, write := true, user := 3, ctx := r.ctx, index := r.index, tag := r.issued })) w.2
    else mark vals [] [] w.2
  | .store =>
    let vals := r.data.getD []
    let bytes := vals.flatMap (fun x => w64Bytes x.v)
    let mask := (vals.zip (List.range 4)).foldl (fun a q => a + b2n q.1.poison * 2 ^ q.2) 0
    let s := writeWord v r.word bytes (vals.any (·.poison)) s
    mark [] [freeDue] [] (foldStore p v (row % 16) r.word mask (padTo 32 bytes) s)
  | .fold k => mark [] [freeDue] [] (foldCut p v k s)

/-- F02 of a request (R151, R166). -/
def vaultConflict (p col row : Nat) (r : VReq) (port : Bool) (s : State) : State :=
  let a : At := { p := p, col := col, row := row, c := r.ctx, index := r.index, tag := r.issued }
  faultAt a 0x02 (bankOf r.word + 16 * b2n port + 256 * (r.word % 2 ^ 20)) (dropRequest col row r.issued s)

/-- The row of a segment whose request the vault serves next in queue mode: the first ready one after the row it served last (R152). -/
def vaultTurn (s : State) (pv col row : Nat) : Option Nat :=
  ((List.range 16).map (fun i => (Table.get 0 s.vaults.rotation pv + 1 + i) % 16)).find? (fun i => requestReady s pv col (row / 16 * 16 + i))

/-- Requests of the other rows of a segment that are served in the same cycle under a contract (R151). -/
def vaultRivals (s : State) (col row : Nat) (r : VReq) : List (Nat × VReq) :=
  ((List.range 16).map (fun i => row / 16 * 16 + i)).filterMap (fun r2 =>
    if r2 == row then none
    else ((getTile s col r2).vq.find? (fun q => q.service == r.service && q.loaded.isNone)).map (fun q => (r2, q)))

/-- VAULT_SERVICE: the oldest unserved request of a tile is presented to its vault (R150 to R152, R171). In padded mode only
tile requests and the calendar occupy a bank, for 40 cycles on every stepping. In queue mode the rotation of R152 starts at row
1 of the segment, and an auxiliary access that has waited 1,024 cycles goes first (R172) (DEDUCED, log entry 39). -/
def vaultService (col row : Nat) (s : State) : State :=
  match partOf s col, nextRequest (getTile s col row) with
  | some p, some r =>
    let x := getPart s p
    let now := s.canopy.now
    let v := vaultOf col row
    let pv := physVault s v
    let isFold := match r.kind with | .fold _ => true | _ => false
    let ready := !(r.kind == .store && r.data.isNone)
    let occ := Table.get 0 s.vaults.bankUntil (16 * pv + bankOf r.word)
    if x.padded then
      if now < r.service || !ready then s
      else
        let cyc := r.service - x.start
        let rivals := vaultRivals s col row r
        if !rivals.isEmpty then
          rivals.foldl (fun s q => vaultConflict p col q.1 q.2 true s) (vaultConflict p col row r true s)
        else if x.busy && cyc % 64 == 63 then vaultConflict p col row r true s
        else if !isFold && (decide (r.service < occ) || (x.busy && calendarClash cyc (bankOf r.word))) then
          vaultConflict p col row r false s
        else
          let s := if isFold then s else occupy pv (bankOf r.word) (r.service + 40) s
          serveRequest p col row r true s
    else
      if vaultTurn s pv col row != some (row % 16) || servedNow s pv || agedReady s pv then s
      else
        let s := markServed pv { s with vaults := { s.vaults with rotation := Table.set 0 s.vaults.rotation pv (row % 16) } }
        let s := if isFold then s else occupyBank pv (bankOf r.word) s
        serveRequest p col row r false s
  | _, _ => s

/-- WAIT_CONDITION_MET: the conditions of the tile's waiting contexts are looked at (R122). -/
def waitMet (col row : Nat) (s : State) : State :=
  let s := runReads col row s
  let now := s.canopy.now
  let fixed (c : Nat) : Bool := match partOf s col with
    | some p => ((getPart s p).ctx c).image.fixedClass
    | none => false
  updTile col row (fun t => if t.endedAt == some now then t else (List.range 4).foldl (fun t c => checkWait (fixed c) c now t) t) s

/-- The writes due in this cycle may be performed: its issue is over or held, or no instruction can issue in it. -/
def writesOpen (s : State) (col row : Nat) : Bool :=
  let t := getTile s col row
  t.issuedAt == some s.canopy.now || (t.ctx t.active).heldAt == some s.canopy.now || (issuePlace s col row).isNone

/-- The end of a cycle begins in a tile: its WAITs have been looked at, and its writes follow (DEDUCED, log entry 20). -/
def endCycle (col row : Nat) (s : State) : State :=
  if (getTile s col row).endedAt == some s.canopy.now then s
  else updTile col row (fun t => { t with endedAt := some s.canopy.now }) (waitMet col row s)

/-- Writes of a tile that are due by this cycle, performed at its end. -/
def runWrites (col row : Nat) (sel : Due → Bool) (s : State) : State :=
  let s := runReads col row s
  if writesOpen s col row && (getTile s col row).dues.any (fun d => decide (d.at_ ≤ s.canopy.now) && sel d) then
    runDues col row sel (endCycle col row s)
  else s

/-- LATE_RESULT: the late results of a tile that reach their contract cycle are written (R118, R145). -/
def lateResult (col row : Nat) (s : State) : State := runWrites col row (fun d => match d.op with | .late _ _ => true | _ => false) s

/-- A load that has been served in an earlier cycle, in queue mode. -/
def returning (s : State) (t : Tile) : Option VReq :=
  t.vq.find? (fun r => r.kind == .load && (match r.loaded with | some (n, _) => decide (n < s.canopy.now) | none => false))

/-- VAULT_LOAD_RETURN: a served load's data is written (R150); in queue mode it waits while the issuing instruction
holds a bank's write port (R40). -/
def vaultLoadReturn (col row : Nat) (s : State) : State :=
  match partOf s col with
  | none => s
  | some p =>
    if (getPart s p).padded then runWrites col row (fun d => match d.op with | .loadReturn _ => true | _ => false) s
    else
      let s := runReads col row s
      let t := getTile s col row
      match returning s t with
      | none => s
      | some r =>
        let taken := (List.range 4).any (fun j => (otherClaim t s.canopy.now ((r.scr + j) % 4) true 3 r.ctx r.issued).isSome)
        if taken || !writesOpen s col row then s
        else doLoadReturn { p := p, col := col, row := row, c := r.ctx, index := r.index, tag := r.issued } r.issued (endCycle col row s)

/-- DOT_BLOCK: the words of the DOT in progress that are due are read or popped (R136). -/
def dotBlock (col row : Nat) (s : State) : State := runDues col row (fun d => match d.op with | .dotWord _ _ => true | _ => false) s

/-- WAIT_BOUND_EXPIRY: a waiting context of a fixed-latency class image has passed its bound (R48, R122). -/
def waitExpiry (col row : Nat) (s : State) : State :=
  match partOf s col with
  | none => s
  | some p =>
    let s := waitMet col row s
    (List.range 4).foldl (fun s c =>
      match waitExpired s p col row c with
      | some i => expireWait p col row c i s
      | none => s) s

/-- A token that has not left its pass-through register in its cycle enters its virtual queue (R55). -/
def parkPasses (t : Tile) : Tile :=
  (List.range 4).foldl (fun t d => t.updIn d (fun l => match l.pass with
    | some k => { (l.updQueue k.ctx (fun q => k :: q)) with pass := none }
    | none => l)) t

/-- The end of a cycle in a tile: what is still due in it is performed, reads first (DEDUCED, log entry 20). -/
def tileCycleEnd (col row : Nat) (s : State) : State :=
  let s := waitExpiry col row s
  let s := runDues col row (fun _ => true) s
  updTile col row (fun t => parkPasses { t with claims := t.claims.filter (fun k => decide (s.canopy.now < k.at_)) }) s

end Sys2Proof.Machine
end

