-- ==== Sys2Proof/Machine/Spill.lean ====
section
/-! DEFINITION. Spill queues: cells, pointers, movement between the buffers and the region, and the endpoints (R179 to R192). -/

namespace Sys2Proof.Machine

open Sys2Proof

/-- Writers and readers of SQ_CFG (R181, R192). -/
def wrCanopy : Nat := 1
def wrHost : Nat := 2
def wrEport : Nat := 3
def wrCapture : Nat := 4
def wrSampler : Nat := 5
def rdCanopy : Nat := 1
def rdHost : Nat := 2
def rdEport : Nat := 3

/-- FULL of R184. -/
def Spill.full (x : Spill) : Bool := x.wr - x.rel == x.capacity

/-- Released cells leave the buffers, and a movement of one of them between the buffers and the region is dropped. -/
def Spill.trim (x : Spill) : Spill :=
  let x := { x with tail := x.tail.filter (fun kv => decide (x.rel ≤ kv.1))
                    half := x.half && decide (x.rel ≤ x.moved), moved := max x.moved x.rel }
  { x with head := x.head.filter (fun kv => decide (x.rd ≤ kv.1))
           fetched := if x.filled < x.rd then [] else x.fetched, filled := max x.filled x.rd }

/-- Store a cell at WR. -/
def Spill.store (x : Spill) (c : SqCell) : Spill := { x with tail := Table.put x.tail x.wr c, wr := x.wr + 1 }

/-- The oldest cell is released to make room in circular mode (R185). -/
def Spill.dropOldest (x : Spill) : Spill :=
  let rel := x.rel + 1
  let x := { x with rel := rel, rdWord := if x.rd < rel then 0 else x.rdWord, rd := max x.rd rel
                    markValid := x.markValid && decide (rel ≤ x.mkCell) }
  x.trim

/-- Commit a cell from a source (R185). -/
def Spill.commit (x : Spill) (source : Nat) (c : SqCell) : Spill :=
  if x.writer != source || x.frozen then { x with discardCount := satAdd x.discardCount 1 }
  else if x.full && !x.circular then { x with overrun := true, overrunNow := true, overrunCount := satAdd x.overrunCount 1 }
  else if x.full then x.dropOldest.store c
  else x.store c

/-- A commit of the cell would store it. -/
def Spill.accepts (x : Spill) (source : Nat) : Bool := x.writer == source && !x.frozen && (!x.full || x.circular)

/-- CTRL_REJECTED is set (R183, R185). -/
def Spill.reject (x : Spill) : Spill := { x with ctrlRejected := true, rejectedNow := true }

/-- 1 is written to OVERRUN, to POISON_SEEN, to CTRL_REJECTED: a set in the same CCLK cycle wins (R20) (DEDUCED, log entry 42). -/
def Spill.clearOverrun (x : Spill) : Spill := { x with overrun := x.overrunNow }
def Spill.clearPoison (x : Spill) : Spill := { x with poisonSeen := x.poisonNow }
def Spill.clearRejected (x : Spill) : Spill := { x with ctrlRejected := x.rejectedNow }

/-- MARK (R185). -/
def Spill.mark (x : Spill) : Spill := { x with mkCell := x.rd, mkWord := x.rdWord, markValid := true }

/-- REWIND with a mark (R185, R188): a point outside the head buffer refills it from the region. -/
def Spill.rewind (x : Spill) : Spill :=
  if x.mkCell == x.rd then { x with rdWord := x.mkWord }
  else { x with rd := x.mkCell, rdWord := x.mkWord, head := [], filled := x.mkCell, fetched := [] }

/-- RELEASE of n cells; the answer's second part is how many were freed (R185). -/
def Spill.release (x : Spill) (n : Nat) : Spill × Nat :=
  let k := min n (x.rd - x.rel)
  let rel := x.rel + k
  (({ x with rel := rel, markValid := x.markValid && decide (rel ≤ x.mkCell) } : Spill).trim, k)

/-- FLUSH (R185). -/
def Spill.flush (x : Spill) : Spill :=
  if x.assembly.isEmpty then x
  else
    let c : SqCell := { words := x.assembly ++ List.replicate (8 - x.assembly.length) {} }
    ({ x with assembly := [] } : Spill).commit wrCanopy c

/-- SQ_RESET but for ownership (R185). -/
def Spill.reset (x : Spill) : Spill :=
  { x with
    wr := 0, rd := 0, rdWord := 0, rel := 0, mkCell := 0, mkWord := 0, markValid := false, frozen := false
    overrun := false, poisonSeen := false, ctrlRejected := false, overrunNow := false, poisonNow := false, rejectedNow := false, assembly := [], tail := [], head := []
    moved := 0, half := false, filled := 0, fetched := [] }

/-- The cell at the read point, where it is on die: in the head buffer, or in either buffer of a queue without a region (R179, R189). -/
def Spill.atRead (x : Spill) : Option SqCell :=
  if x.rd < x.wr then ((if x.vaults == 0 then x.tail else x.head).find? (fun kv => kv.1 == x.rd)).map (fun kv => kv.2) else none

/-- A word as it is delivered: one whose parity fails is poisoned (R190) (DESIGN CHOICE, log entry 21). -/
def SqWord.delivered (w : SqWord) : SqWord := { w with poison := w.poison || w.bad, bad := false }

/-- The next word to deliver, where it is on die. -/
def Spill.nextWord (x : Spill) : Option SqWord := x.atRead.map (fun c => (c.words.getD x.rdWord {}).delivered)

/-- The read point moves on by one word (R182, R185); a poisoned delivery is counted (R190). -/
def Spill.advance (x : Spill) (poison : Bool) : Spill :=
  let x := if poison then { x with poisonCount := satAdd x.poisonCount 1, poisonSeen := true, poisonNow := true } else x
  if x.rdWord == 7 then ({ x with rd := x.rd + 1, rdWord := 0 } : Spill).trim else { x with rdWord := x.rdWord + 1 }

/-- Deliver up to `n` words from the read point, as far as they are on die (R185, R189, R192). -/
def readWords (q : Nat) : Nat → State → List SqWord × State
  | 0, s => ([], s)
  | n + 1, s =>
    match (getQueue s q).nextWord with
    | some w =>
      let rest := readWords q n (updQueue q (fun x => x.advance w.poison) s)
      (w :: rest.1, rest.2)
    | none => ([], s)

/-- Write one word of the oldest cell of the tail buffer to its region position; after the second the cell has moved (R188) (DESIGN CHOICE, log entry 21). -/
def writeHalf (q a : Nat) (s : State) : State :=
  let x := getQueue s q
  match x.tail.find? (fun kv => kv.1 == x.moved) with
  | some kv =>
    let ws := (slice kv.2.words (4 * b2n x.half) 4).map SqWord.delivered
    updQueue q (fun x => if x.half then { x with tail := Table.erase x.tail kv.1, moved := x.moved + 1, half := false } else { x with half := true })
      (writeWord (devVault a) (devWord a) (ws.flatMap (fun w => w64Bytes w.v)) (ws.any (·.poison)) s)
  | none => s

/-- SQ_CELL_TO_REGION (R188): the oldest cell of the tail buffer goes to its region position, one word in each auxiliary access. -/
def cellToRegion (q : Nat) (s : State) : State :=
  match (getQueue s q).regionWrite with
  | some a => wordAccess .cell a (writeHalf q a) s
  | none => s

/-- Read one word of the next cell of the head buffer from its region position; after the second the cell is there (R188, R190). -/
def readHalf (q a : Nat) (s : State) : State :=
  let r := readWord (devVault a) (devWord a) srcQueue s
  let ws : List SqWord := (bytesW64 r.1.1).map (fun w => { v := w, poison := r.1.2 })
  updQueue q (fun x =>
    if x.fetched.isEmpty then { x with fetched := ws }
    else { x with head := Table.put x.head x.headNext { words := x.fetched ++ ws }, filled := x.headNext + 1, fetched := [] }) r.2

/-- SQ_CELL_TO_HEAD (R188): the next cell from the read point on enters the head buffer, from the region by one word in each
auxiliary access, or straight from the tail buffer where the region holds nothing between. -/
def cellToHead (q : Nat) (s : State) : State :=
  let x := getQueue s q
  match x.regionRead with
  | some a => wordAccess .cell a (readHalf q a) s
  | none =>
    if x.vaults == 0 || x.headNext != x.rd || x.rd < x.moved then s
    else match x.tail.find? (fun kv => kv.1 == x.rd) with
      | some kv => updQueue q (fun x => { x with head := Table.put x.head x.rd kv.2, filled := x.rd + 1, fetched := [] }) s
      | none => s

/-! ### Edge links toward a context (R60, R154, R182) -/

/-- Place a token on the edge link from an endpoint to the tile it is bound to: at most one a cycle, with a credit, to a
context whose inputs are open. None where it cannot be placed. -/
def edgeDeliver (unit index : Nat) (v : W64) (poison : Bool) (s : State) : Option State :=
  match boundTo s unit index with
  | none => none
  | some (p, c, col, row) =>
    let x := getPart s p
    let d := if row == 0 then 0 else 2
    let l := (getTile s col row).inp d
    let unit := l.unit.settle s.canopy.now
    if x.portsClosed || (x.ctx c).inputsStopped || s.canopy.paused || decide (l.depth c ≤ unit.used.getD c 0)
        || l.wire.any (fun w => w.at_ == s.canopy.now) then none
    else
      some (updPart p (fun x => { x with activity := s.canopy.now })
        (updTile col row (fun t => t.updIn d (fun l =>
          { l with unit := unit.take c, wire := l.wire ++ [{ tok := { data := v, ctx := c, poison := poison }, at_ := s.canopy.now }] })) s))

/-- The oldest token that has crossed the edge link to an endpoint, and the state without it, its credit freed: at most one
a cycle (R56, R153, R154), and none in a paused cycle. -/
def edgeTake (unit index : Nat) (s : State) : Option (Tok × State) :=
  match getEdge s unit index with
  | w :: _ =>
    if s.canopy.paused || s.canopy.now < w.at_ + 1 || Table.get 0 s.canopy.taken (edgeKey unit index) == s.canopy.now + 1 then none
    else
      let s := updEdge unit index (fun ws => ws.drop 1) s
      let s := { s with canopy := { s.canopy with taken := Table.set 0 s.canopy.taken (edgeKey unit index) (s.canopy.now + 1) } }
      some (w.tok, match boundTo s unit index with
        | some (_, _, col, row) =>
          if unit == 5 then s
          else updTile col row (fun t => t.updOut (if row == 0 then 0 else 2) (fun o => o.free w.tok.ctx s.canopy.now)) s
        | none => s)
  | [] => none

/-! ### Operations of one cycle (R186) -/

/-- A control operation acts on a queue in this cycle. -/
def queueControl (q : Nat) (f : Spill → Spill) (s : State) : State := updQueue q (fun x => f { x with ctrlAt := s.clk.aclk + 1 }) s

/-- A delivery comes first in its cycle: once a control operation has acted, the next is in the next cycle (R186) (DEDUCED, log entry 45). -/
def readsNow (s : State) (q : Nat) : Bool := (getQueue s q).ctrlAt != s.clk.aclk + 1

/-- What a control word does (R183, R185) (DEDUCED, log entry 45). -/
def Spill.controlWord (k : Tok) (x : Spill) : Spill :=
  let op : Nat := fldN k.data 60 4
  if k.poison || fldN k.data 32 28 != 0 then x.reject
  else
    match op with
    | 1 => x.mark
    | 2 => if x.markValid then x.rewind else x.reject
    | 3 => (x.release (fldN k.data 0 32)).1
    | 4 => x.flush
    | _ => x.reject

/-- A control word is a FLUSH that acts (R183). -/
def isFlush (k : Tok) : Bool := !k.poison && fldN k.data 32 28 == 0 && fldN k.data 60 4 == 4

/-- SQ_CONTROL_WORD (R183): a control word from an image acts, or is rejected. A FLUSH stays at the endpoint while the tail buffer
has no room for its cell (R189) (DEDUCED, log entry 45). -/
def sqControlWord (q : Nat) (s : State) : State :=
  match edgeTake 1 (256 + q) s with
  | none => s
  | some (k, t) => if isFlush k && (getQueue s q).flushHeld then s else queueControl q (fun x => x.controlWord k) t

/-- A unit commits a cell, which reaches the queue at the end of the cycle, after every other operation on it (R186) (DEDUCED, log entry 45). -/
def arriveCell (q : Nat) (a : Arrival) (s : State) : State := updQueue q (fun x => { x with arrived := x.arrived ++ [a] }) s

/-- A cell of data words. -/
def cellOf (words : List W64) : SqCell := { words := words.map (fun w => { v := w }) }

/-- A unit other than the host commits a cell (R185, R186) (DEDUCED, log entry 45). -/
def commitCell (q source : Nat) (words : List W64) (s : State) : State := arriveCell q { source := source, cell := cellOf words } s

/-- A data word joins the cell in assembly; the eighth commits it (R182). -/
def Spill.assemble (x : Spill) (w : SqWord) : Spill :=
  let ws := x.assembly ++ [w]
  if ws.length == 8 then ({ x with assembly := [] } : Spill).commit wrCanopy { words := ws } else { x with assembly := ws }

/-- A queue after a cell of the cycle, and the SQ_WRITEs whose cells have been stored. -/
def Spill.land (r : Spill × List Nat) (a : Arrival) : Spill × List Nat :=
  (r.1.commit a.source a.cell, r.2 ++ (if r.1.accepts a.source then a.flight.toList else []))

/-- What arrived in a cycle takes effect at its end, after every other operation on the queue (R186) (DEDUCED, log entry 45). -/
def Spill.landed (x : Spill) : Spill × List Nat :=
  x.arrived.foldl Spill.land (x.incoming.foldl Spill.assemble { x with incoming := [], arrived := [] }, [])

/-- The queue once the cycle's arrivals are there (DEDUCED, log entry 45). -/
def Spill.settle (x : Spill) : Spill := x.landed.1

/-- The end of a cycle in a queue: a control word of an image that falls in it acts first (R186). An SQ_WRITE counts its cells stored (DEDUCED, log entry 45). -/
def settleQueue (q : Nat) (s : State) : State :=
  let s := sqControlWord q s
  let r := (getQueue s q).landed
  r.2.foldl (fun s id => updFlight id (fun g => { g with acc := [g.acc.getD 0 0 + 1] }) s) (updQueue q (fun _ => r.1) s)

/-- The end of a cycle in the queues (R186) (DEDUCED, log entry 45). -/
def settleQueues (s : State) : State :=
  (s.queues.filter (fun kv => !kv.2.incoming.isEmpty || !kv.2.arrived.isEmpty)).foldl (fun s kv => settleQueue kv.1 s) s

/-- SQ_DATA_TOKEN (R182): a data word arrives at the write endpoint; one that would complete a cell waits until the tail
buffer has room for it (R189) (DEDUCED, log entry 45). -/
def sqDataToken (q : Nat) (s : State) : State :=
  let x := getQueue s q
  if x.assembly.length + x.incoming.length == 7 && !sqReady x then s
  else
    match edgeTake 1 q s with
    | none => s
    | some (k, s) => updQueue q (fun x => { x with incoming := x.incoming ++ [{ v := k.data, poison := k.poison }] }) s

/-- SQ_READ_DELIVERY (R182, R185, R190): the next word leaves at the read endpoint, poisoned where its parity fails. A delivery
comes first in its cycle: once a control operation has acted, the next is in the next cycle (R186) (DEDUCED, log entry 45). -/
def sqReadDelivery (q : Nat) (parityOk : Bool) (s : State) : State :=
  let x := getQueue s q
  if x.reader != rdCanopy || !readsNow s q then s
  else
    match x.nextWord with
    | none => s
    | some w =>
      let poison := w.poison || !parityOk
      match edgeDeliver 2 q w.v poison s with
      | none => s
      | some s => updQueue q (fun x => x.advance poison) s

/-! ### Rows of the table -/

/-- A queue of the part. -/
def isQueue (q : Nat) : Bool := decide (q < 256)

/-- SQ_DATA_TOKEN (R182). -/
def execSqDataToken (q : Nat) (s : State) : Host.Outcome State Fault Refusal := guardUnit (isQueue q) (sqDataToken q s)

/-- SQ_CONTROL_WORD (R183). -/
def execSqControlWord (q : Nat) (s : State) : Host.Outcome State Fault Refusal := guardUnit (isQueue q) (sqControlWord q s)

/-- SQ_READ_DELIVERY (R185). -/
def execSqReadDelivery (q : Nat) (parityOk : Bool) (s : State) : Host.Outcome State Fault Refusal :=
  guardUnit (isQueue q) (sqReadDelivery q parityOk s)

/-- POISON_SEEN_CLEAR (R20): 1 is written to SQ_STATUS POISON_SEEN. -/
def execPoisonSeenClear (q : Nat) (s : State) : Host.Outcome State Fault Refusal :=
  guardUnit (isQueue q) (updQueue q Spill.clearPoison s)

/-- CTRL_REJECTED_CLEAR (R20): 1 is written to SQ_STATUS CTRL_REJECTED. -/
def execCtrlRejectedClear (q : Nat) (s : State) : Host.Outcome State Fault Refusal :=
  guardUnit (isQueue q) (updQueue q Spill.clearRejected s)

/-- OVERRUN_CLEAR (R184): 1 is written to SQ_STATUS OVERRUN. -/
def execOverrunClear (q : Nat) (s : State) : Host.Outcome State Fault Refusal :=
  guardUnit (isQueue q) (updQueue q Spill.clearOverrun s)

end Sys2Proof.Machine
end

