-- ==== Sys2Proof/Machine/Arbor.lean ====
section
/-! DEFINITION. The arbor: traversal, scores, samples and results, and the arbor commands (R217 to R237). -/

namespace Sys2Proof.Machine

open Sys2Proof

/-- An engine. -/
def getEngine (s : State) (e : Nat) : Engine := Table.get {} s.arbor.engines e

/-- Changing an engine. -/
def updEngine (e : Nat) (f : Engine → Engine) (s : State) : State :=
  { s with arbor := { s.arbor with engines := Table.upd {} s.arbor.engines e f } }

/-- The ensemble that starts at an engine. -/
def getEns (s : State) (e : Nat) : Ensemble := Table.get {} s.arbor.ensembles e

/-- Changing an ensemble. -/
def updEns (e : Nat) (f : Ensemble → Ensemble) (s : State) : State :=
  { s with arbor := { s.arbor with ensembles := Table.upd {} s.arbor.ensembles e f } }

/-- First engine of the ensemble an engine belongs to. -/
def ensembleOf (s : State) (e : Nat) : Option Nat :=
  (s.arbor.ensembles.find? (fun kv => decide (kv.1 ≤ e) && decide (e < kv.1 + kv.2.engines))).map (·.1)

/-- Slots in use (R219). -/
def Ensemble.slots (x : Ensemble) : Nat := x.samples.length + (if x.gathering.isSome then 1 else 0)

/-! ### Evaluation (R221 to R230) -/

/-- Step of R224: whether the sample goes left. -/
def goesLeft (x t : W32) (defaultLeft : Bool) : Bool :=
  let a := fpDec 23 x.toNat
  let b := fpDec 23 t.toNat
  if a.nan then defaultLeft else !b.nan && fpLt a b

/-- What a walk of an engine's chain finds. -/
structure Walk where
  leaves : List W32 := []
  corrected : Nat := 0
  /-- An uncorrectable word stopped it. -/
  broken : Bool := false
  deriving DecidableEq, Repr

/-- End of a chain (R221). -/
def chainEnd : Nat := 0x3FFFF

/-- Walk node words from a node on (R221 to R224, R237); at most 24 are read. -/
def walkNodes (x : Engine) (features : List W32) : Nat → Nat → Walk → Walk
  | 0, _, w => w
  | n + 1, node, w =>
    let c := Table.get {} x.nodes node
    if 2 ≤ c.err then { w with broken := true }
    else
      let w := if c.err == 1 then { w with corrected := w.corrected + 1 } else w
      let v : W32 := BitVec.ofNat 32 (fldN c.data 18 32)
      let next := fldN c.data 0 18
      if fldN c.data 63 1 == 1 then
        let w := { w with leaves := w.leaves ++ [v] }
        if next == chainEnd then w else walkNodes x features n next w
      else
        let left := goesLeft (features.getD (fldN c.data 50 12) 0) v (fldN c.data 62 1 == 1)
        walkNodes x features n (if left then next else next + 1) w

/-- Key of R229. -/
def ternaryKey (x : Engine) (features : List W32) : Nat :=
  (List.range x.predicates).foldl (fun a k =>
    let p := Table.get {} x.preds k
    if goesLeft (features.getD p.feature 0) p.threshold p.defaultLeft then a + 2 ^ k else a) 0

/-- An entry matches a key (R229). -/
def TEntry.matchesKey (e : TEntry) (key : BitVec 512) : Bool := e.valid && ((key ^^^ e.value) &&& e.mask) == 0

/-- Leaves of an engine in TERNARY mode, and how many trees had none (R229). -/
def ternaryLeaves (x : Engine) (features : List W32) : List W32 × Nat :=
  let key := BitVec.ofNat 512 (ternaryKey x features)
  (List.range x.trees).foldl (fun acc j =>
    match x.entries.find? (fun kv => kv.2.tree == j && kv.2.matchesKey key) with
    | some kv => (acc.1 ++ [kv.2.leaf], acc.2)
    | none => (acc.1 ++ [BitVec.ofNat 32 (nanCode 23)], acc.2 + 1)) ([], 0)

/-- Evaluate one engine on a sample: its leaves, or none where it no longer serves; with the errors of R237. -/
def evalEngine (e : Nat) (features : List W32) (s : State) : Option (List W32) × State :=
  let x := getEngine s e
  let ternary (s : State) : Option (List W32) × State :=
    let r := ternaryLeaves x features
    (some r.1, { s with arbor := { s.arbor with tcamMiss := satAdd s.arbor.tcamMiss r.2 } })
  match x.mode with
  | .ternary => ternary s
  | .node =>
    let w := walkNodes x features 24 x.root {}
    let s := { s with arbor := { s.arbor with nodeCorrected := satAdd s.arbor.nodeCorrected w.corrected } }
    if !w.broken then (some w.leaves, s)
    else
      let s := { s with arbor := { s.arbor with nodeUncorrected := satAdd s.arbor.nodeUncorrected 1 } }
      if x.safeLoaded then ternary (updEngine e (fun x => { x with mode := .ternary }) s)
      else (none, updEngine e (fun x => { x with mode := .retired }) s)
  | _ => (none, s)

/-- Evaluate the engines of an ensemble in order. -/
def evalEngines (features : List W32) : List Nat → State → List (Option (List W32)) × State
  | [], s => ([], s)
  | e :: es, s =>
    let r := evalEngine e features s
    let rest := evalEngines features es r.2
    (r.1 :: rest.1, rest.2)

/-- Token of R220. -/
def resultToken (score seq : Nat) (ternary failed : Bool) : W64 :=
  BitVec.ofNat 64 (score + seq % 65536 * 2 ^ 32 + b2n ternary * 2 ^ 48 + b2n failed * 2 ^ 49)

/-- The result of a sample that starts (R225, R230): token and poison. -/
def evalSample (first : Nat) (m : Sample) (s : State) : (W64 × Bool) × State :=
  let x := getEns s first
  let members := (List.range x.engines).map (fun i => first + i)
  if m.poison then
    ((resultToken (nanCode 23) m.seq false false, true), { s with arbor := { s.arbor with poison := satAdd s.arbor.poison 1 } })
  else
    let failed (s : State) : (W64 × Bool) × State :=
      ((resultToken (nanCode 23) m.seq false true, true), { s with arbor := { s.arbor with failed := satAdd s.arbor.failed 1 } })
    if members.any (fun e => (getEngine s e).mode == .idle || (getEngine s e).mode == .retired) then failed s
    else
      let r := evalEngines m.features members s
      if r.1.any (·.isNone) then failed r.2
      else
        let leaves := r.1.flatMap (fun l => l.getD [])
        let score := leaves.foldl (fun a l => fAdd32 a l.toNat) x.base.toNat
        ((resultToken score m.seq (members.any (fun e => (getEngine r.2 e).mode == .ternary)) false, false), r.2)

/-! ### Samples (R219, R226 to R228) -/

/-- A MAC's sample goes ahead of one that a higher MAC completed in the same cycle and that has not started (R278). -/
def Sample.yields (m old : Sample) : Bool :=
  match m.source, old.source with
  | .frame a _, .frame b _ => decide (a < b) && old.at_ == m.at_ && old.started.isNone
  | _, _ => false

/-- A sample becomes complete and enters the queue (R220, R226, R278). -/
def Ensemble.finish (x : Ensemble) (m : Sample) : Ensemble :=
  let first := x.samples.takeWhile (fun y => !m.yields y)
  let behind := x.samples.dropWhile (fun y => !m.yields y)
  { x with samples := first ++ { m with seq := (x.seq + 65536 - behind.length) % 65536 } :: behind.map (fun y => { y with seq := (y.seq + 1) % 65536 })
           seq := (x.seq + 1) % 65536 }

/-- ARB_SAMPLE_TOKEN (R219, R228): a token that has crossed to the input endpoint joins the sample. While all 64 slots are in
use, the one being gathered among them, no token is taken and no credit freed. -/
def sampleToken (first : Nat) (s : State) : State :=
  let x := getEns s first
  if s.arbor.stopped || x.engines == 0 || 64 ≤ x.slots then s
  else
    match edgeTake 3 first s with
    | none => s
    | some (k, s) =>
      updEns first (fun x =>
        let m : Sample := x.gathering.getD { source := .endpoint, features := [] }
        let fs := m.features ++ [BitVec.ofNat 32 (lane k.data 32 0), BitVec.ofNat 32 (lane k.data 32 1)]
        let m := { m with features := fs.take x.features, poison := m.poison || k.poison, at_ := s.canopy.now }
        if x.features ≤ fs.length then ({ x with gathering := none } : Ensemble).finish m else { x with gathering := some m }) s

/-- A whole sample is written into a slot, none where all 64 are in use or the arbor accepts none (R219, R228, R369). -/
def writeSample (first : Nat) (m : Sample) (s : State) : Option State :=
  let x := getEns s first
  if s.arbor.stopped || x.engines == 0 || 64 ≤ x.slots then none else some (updEns first (fun x => x.finish { m with at_ := s.canopy.now }) s)

/-- A sample that finds no slot takes that of the queue's last one, where that is of a higher MAC and completed in this cycle
(R278): the MAC and the frame that lose it (DEDUCED, log entry 32). -/
def takeSlot (first : Nat) (m : Sample) (s : State) : Option ((Nat × Nat) × State) :=
  let m := { m with at_ := s.canopy.now }
  let x := getEns s first
  if s.arbor.stopped || x.engines == 0 then none
  else
    x.samples.getLast?.bind (fun y => match y.source with
      | .frame b serial =>
        if m.yields y then
          some ((b, serial), updEns first (fun x => ({ x with samples := x.samples.dropLast, seq := (x.seq + 65535) % 65536 } : Ensemble).finish m) s)
        else none
      | _ => none)

/-- ARB_SAMPLE_START (R226): at most one a cycle, the oldest first. -/
def sampleStart (first : Nat) (s : State) : State :=
  let x := getEns s first
  if x.engines == 0 || s.canopy.paused || x.startedAt == some s.canopy.now then s
  else
    match x.samples.findIdx? (fun m => m.started.isNone) with
    | none => s
    | some i =>
      match x.samples[i]? with
      | none => s
      | some m =>
        let r := evalSample first m s
        updEns first (fun x => { x with
          startedAt := some s.canopy.now
          samples := x.samples.modify i (fun m => { m with started := some (s.canopy.now, r.1.1, r.1.2) }) }) r.2

/-- Drop the sample whose result has left. -/
def Ensemble.pop (x : Ensemble) : Ensemble := { x with samples := x.samples.drop 1 }

/-- ARB_RESULT (R226, R227): the oldest sample's result is ready at its contract cycle; at an output bound to a queue-mode
partition it may leave earlier. -/
def arbResult (first : Nat) (s : State) : State :=
  let x := getEns s first
  match x.samples with
  | [] => s
  | m :: _ =>
    match m.started with
    | none => s
    | some (c, tok, poison) =>
      let due := c + x.depth + 6
      let free := updEns first (fun x => x.pop)
      let count (s : State) : State :=
        if (boundTo s 4 first).isSome && decide (due < s.canopy.now) then { s with arbor := { s.arbor with late := satAdd s.arbor.late 1 } } else s
      let early := match boundTo s 4 first with
        | some (p, _) => m.source == .endpoint && !(getPart s p).padded
        | none => false
      if s.canopy.paused || (s.canopy.now < due && !early) then s
      else
        match m.source with
        | .endpoint =>
          if (boundTo s 4 first).isNone then free s
          else
            match edgeDeliver 4 first tok poison s with
            | none => s
            | some s' => free (count s')
        | .frame mac serial => free (count { s with arbor := { s.arbor with toReply := s.arbor.toReply ++ [(mac, serial, tok, poison)] } })
        | .command id => complete id { status := stOk, result := w64Bytes tok } (free (count s))

/-- Samples and undelivered results of an ensemble are discarded (R234, R235). -/
def Ensemble.discard (x : Ensemble) : Ensemble := { x with gathering := none, samples := [] }

/-- The frame of a discarded sample waits for no result; the fields its descriptor would take from one are free values (DEDUCED, log entry 32). -/
def loseSample (s : State) (m : Sample) : State :=
  match m.source with
  | .frame mac serial =>
    let r := takeFree s
    let lose (f : RxFrame) : RxFrame := if f.serial == serial then { f with discarded := some (BitVec.ofNat 64 r.1) } else f
    { r.2 with eth := { r.2.eth with macs := Table.upd {} r.2.eth.macs mac (fun x => { x with frames := x.frames.map lose }) } }
  | _ => s

/-- The samples of an ensemble are lost to their frames (DEDUCED, log entry 32). -/
def loseSamples (first : Nat) (s : State) : State := (getEns s first).samples.foldl loseSample s

/-! ### Verification (R222, R236) -/

/-- A node keeps the rules of R222. -/
def nodeOk (features depth node : Nat) (w : W64) : Bool :=
  let level := node / 8192
  let next := fldN w 0 18
  if fldN w 63 1 == 1 then
    if next == chainEnd then decide (level ≤ depth) else decide (level < next / 8192) && decide (next / 8192 ≤ 23)
  else next / 8192 == level + 1 && decide (next % 8192 ≤ 8190) && decide (level + 1 ≤ 23) && decide (fldN w 50 12 < features)

/-- Nodes that a node leads to (DESIGN CHOICE, log entry 21). -/
def nodeNext (w : W64) : List Nat :=
  let next := fldN w 0 18
  if fldN w 63 1 == 1 then (if next == chainEnd then [] else [next]) else [next, next + 1]

/-- What a verification finds: nodes reached, or the first failure and whether its word is uncorrectable. -/
inductive Verdict where
  | verified (nodes : Nat)
  | failed (node : Nat) (uncorrectable : Bool)
  deriving DecidableEq, Repr

/-- Walk the reachable nodes in ascending index, which is ascending level (R236) (DESIGN CHOICE, log entry 21). -/
def verifyNodes (x : Engine) (features depth : Nat) : Nat → List Nat → Nat → Verdict
  | 0, _, n => .verified n
  | _ + 1, [], n => .verified n
  | fuel + 1, node :: rest, n =>
    let c := Table.get {} x.nodes node
    if 2 ≤ c.err then .failed node true
    else if !nodeOk features depth node c.data then .failed node false
    else
      let add := (nodeNext c.data).foldl (fun l k => if l.contains k then l else insertBy (fun a b => decide (a ≤ b)) k l) rest
      verifyNodes x features depth fuel add (n + 1)

/-- The verdict on an engine of an ensemble. -/
def verdictOf (s : State) (e first : Nat) : Verdict :=
  verifyNodes (getEngine s e) (getEns s first).features (getEns s first).depth 196608 [(getEngine s e).root] 0

/-! ### Commands (R235) -/

/-- Engines of the part. -/
def isEngine (e : Nat) : Bool := decide (e < 64)

/-- Words of an ARB_LOAD's payload. -/
def loadWords (f : Flight) : List W64 := bytesW64 f.pkt.payload

/-- ARB_LOAD: its tests, then steps (R235, R345). -/
def serveArbLoad (f : Flight) (s : State) : State :=
  let e := f.pkt.at_ 0 1
  let n := f.pkt.payload.length / 8
  let x := getEngine s e
  if !isEngine e then answer f stBadParam s
  else if foreign x.owner f.sess then answer f stDenied s
  else if x.mode == .node || n == 0 || f.pkt.payload.length % 8 != 0 || 512 < n || 196608 < f.pkt.at_ 1 4 + n then answer f stBadParam s
  else updFlight f.id (fun f => { f with phase := .active, total := n }) (updEngine e (fun x => { x with verified := false }) s)

/-- One step of an ARB_LOAD: `n` words. -/
def stepArbLoad (n : Nat) (f : Flight) (s : State) : State :=
  let e := f.pkt.at_ 0 1
  let first := f.pkt.at_ 1 4
  let ws := slice (loadWords f) f.progress n
  let s := updEngine e (fun x => { x with
    verified := false
    nodes := (ws.zipIdx).foldl (fun t wi => Table.set {} t (first + f.progress + wi.2) { data := wi.1 }) x.nodes }) s
  updFlight f.id (fun f => { f with progress := f.progress + ws.length }) s

/-- ARB_READ. -/
def serveArbRead (f : Flight) (s : State) : State :=
  let e := f.pkt.at_ 0 1
  let a := f.pkt.at_ 1 4
  let n := f.pkt.at_ 5 2
  let x := getEngine s e
  if !isEngine e then answer f stBadParam s
  else if foreign x.owner f.sess then answer f stDenied s
  else if n == 0 || 512 < n || 196608 < a + n then answer f stBadParam s
  else answerData f ((List.range n).flatMap (fun i => w64Bytes (Table.get {} x.nodes (a + i)).data)) s

/-- ARB_VERIFY: its tests, then steps. -/
def serveArbVerify (f : Flight) (s : State) : State :=
  let e := f.pkt.at_ 0 1
  if !isEngine e then answer f stBadParam s
  else if foreign (getEngine s e).owner f.sess then answer f stDenied s
  else
    match ensembleOf s e with
    | none => answer f stBadParam s
    | some first =>
      let n := match verdictOf s e first with
        | .verified n => n
        | .failed _ _ => 1
      updFlight f.id (fun f => { f with phase := .active, total := max 1 n }) (updEngine e (fun x => { x with verified := false }) s)

/-- The verdict of an ARB_VERIFY, at the end of its last step. -/
def finishArbVerify (f : Flight) (s : State) : State :=
  let e := f.pkt.at_ 0 1
  match ensembleOf s e with
  | none => answer f stBadParam s
  | some first =>
    match verdictOf s e first with
    | .verified n => complete f.id { status := stOk, progress := n } (updEngine e (fun x => { x with verified := true }) s)
    | .failed node bad =>
      let s := if bad then { s with arbor := { s.arbor with nodeUncorrected := satAdd s.arbor.nodeUncorrected 1 } } else s
      complete f.id { status := stBadParam, progress := node } s

/-- A predicate item (R235). -/
def predicateItem (b : List Byte) : Predicate :=
  let w := leAt b 0 8
  { feature := w % 4096, defaultLeft := w / 32768 % 2 == 1, threshold := BitVec.ofNat 32 (w / 2 ^ 32) }

/-- An entry item (R235). -/
def entryItem (b : List Byte) : TEntry :=
  { value := BitVec.ofNat 512 (leAt b 0 64), mask := BitVec.ofNat 512 (leAt b 64 64), leaf := BitVec.ofNat 32 (leAt b 128 4)
    tree := leAt b 132 1 % 16, valid := leAt b 132 1 / 128 % 2 == 1 }

/-- ARB_TCAM_LOAD. -/
def serveArbTcamLoad (f : Flight) (s : State) : State :=
  let e := f.pkt.at_ 0 1
  let isFirst := f.pkt.bits 1 0 1 == 1
  let isLast := f.pkt.bits 1 1 1 == 1
  let from_ := f.pkt.at_ 2 2
  let kind := f.pkt.at_ 4 1
  let trees := f.pkt.at_ 5 2
  let size := if kind == 0 then 8 else 144
  let n := f.pkt.payload.length / size
  let x := getEngine s e
  if !isEngine e then answer f stBadParam s
  else if foreign x.owner f.sess then answer f stDenied s
  else if x.mode == .ternary || 1 < kind || n == 0 || f.pkt.payload.length % size != 0
      || (if kind == 0 then 512 else 4096) < from_ + n || (isLast && (trees == 0 || 16 < trees)) || x.tcamFailed then answer f stBadParam s
  else
    let items := (chunks size (n + 1) f.pkt.payload).zipIdx
    answerOk f (updEngine e (fun x =>
      let x := if isFirst then
          { x with safeLoaded := false, predicates := 0, trees := 0, entries := Table.mapAll {} (fun _ t => { t with valid := false }) x.entries }
        else x
      let x := if kind == 0 then
          { x with preds := items.foldl (fun t bi => Table.set {} t (from_ + bi.2) (predicateItem bi.1)) x.preds
                   predicates := max x.predicates (from_ + n) }
        else { x with entries := items.foldl (fun t bi => Table.set {} t (from_ + bi.2) (entryItem bi.1)) x.entries }
      if isLast then { x with safeLoaded := true, trees := trees } else x) s)

/-- An engine leaves an ensemble: IDLE unless RETIRED. -/
def Engine.toIdle (x : Engine) : Engine := if x.mode == .retired then x else { x with mode := .idle }

/-- An ensemble endpoint is bound by a loaded image. -/
def ensembleBound (s : State) (first : Nat) : Bool := (boundTo s 3 first).isSome || (boundTo s 4 first).isSome

/-- ARB_ENSEMBLE. -/
def serveArbEnsemble (f : Flight) (s : State) : State :=
  let first := f.pkt.at_ 0 1
  let n := f.pkt.at_ 1 1
  let fs := f.pkt.at_ 2 2
  let d := f.pkt.at_ 4 1
  let old := getEns s first
  let named := if n == 0 then old.engines else n
  let engines := (List.range named).map (fun i => first + i)
  let roots := (chunks 4 65 f.pkt.payload).map leNat
  if 63 < first || 64 < first + n || (n == 0 && old.engines == 0) then answer f stBadParam s
  else if engines.any (fun e => foreign (getEngine s e).owner f.sess) then answer f stDenied s
  else if n != 0 && (fs == 0 || 4096 < fs || d == 0 || 23 < d || roots.any (fun r => decide (8191 < r))) then answer f stBadParam s
  else if n != 0 && engines.any (fun e => match ensembleOf s e with
      | some g => g != first
      | none => false) then answer f stBadParam s
  else if n != 0 && f.pkt.payload.length != 4 * n then answer f stBadParam s
  else if ensembleBound s first then answer f stBadParam s
  else if n == 0 then
    let s := loseSamples first s
    let s := engines.foldl (fun s e => updEngine e (fun x => { x with owner := none }) s) s
    answerOk f (updEns first (fun _ => {}) s)
  else
    let s := (List.range old.engines).foldl (fun s i => updEngine (first + i) Engine.toIdle s) (loseSamples first s)
    let s := engines.zipIdx.foldl (fun s ei => updEngine ei.1 (fun x =>
      { x.toIdle with verified := false, root := roots.getD ei.2 0, owner := some (x.owner.getD f.sess) }) s) s
    answerOk f (updEns first (fun _ =>
      ({ engines := n, features := fs, depth := d, base := BitVec.ofNat 32 (f.pkt.at_ 8 4) } : Ensemble)) s)

/-- ARB_MODE (R233, R234). -/
def serveArbMode (f : Flight) (s : State) : State :=
  let e := f.pkt.at_ 0 1
  let m := f.pkt.at_ 1 1
  let x := getEngine s e
  let ok := match m with
    | 0 => x.mode != .retired
    | 1 => x.verified
    | 2 => x.safeLoaded
    | _ => false
  if !isEngine e then answer f stBadParam s
  else if foreign x.owner f.sess then answer f stDenied s
  else if !ok then answer f stBadParam s
  else answerOk f (updEngine e (fun x => { x with mode := if m == 0 then .idle else if m == 1 then .node else .ternary }) s)

/-- The sample of an ARB_EVAL enters the queue; its features are those in `acc`. -/
def enterEval (f : Flight) (s : State) : State :=
  updEns (f.pkt.at_ 0 1) (fun x => x.finish { source := .command f.id, features := f.acc.map (BitVec.ofNat 32), at_ := s.canopy.now }) s

/-- The samples that waited for the end of an emergency stop are accepted, in order (R369) (DEDUCED, log entry 16). -/
def resumeEvals (s : State) : State :=
  (s.host.flights.filter (fun g => g.op == .arbEval && g.phase == .active && g.stage == 1)).foldl (fun s g =>
    if 64 ≤ (getEns s (g.pkt.at_ 0 1)).slots then answer g stBadParam s
    else enterEval g (updFlight g.id (fun g => { g with stage := 0 }) s)) s

/-- ARB_EVAL (R235): earlier commands gather, the last evaluates and replies with its result token. During an emergency stop,
in which the arbor accepts no sample (R369), the sample waits for its end (DEDUCED, log entry 16). -/
def serveArbEval (f : Flight) (s : State) : State :=
  let first := f.pkt.at_ 0 1
  let isLast := f.pkt.bits 1 0 1 == 1
  let off := f.pkt.at_ 2 2
  let fs := bytesW32 f.pkt.payload
  let x := getEns s first
  if !isEngine first then answer f stBadParam s
  else if foreign (getEngine s first).owner f.sess then answer f stDenied s
  else
    let have_ := if off == 0 then [] else x.staging
    let all := have_ ++ fs
    if x.engines == 0 || f.pkt.payload.length % 4 != 0 || fs.isEmpty || off != have_.length || x.features < all.length
        || (isLast && all.length < x.features) || (isLast && 64 ≤ x.slots) then answer f stBadParam s
    else if !isLast then answerOk f (updEns first (fun x => { x with staging := all }) s)
    else
      let g := { f with phase := .active, stage := b2n s.arbor.stopped, acc := all.map BitVec.toNat }
      let s := updFlight f.id (fun f => { f with phase := .active, stage := g.stage, acc := g.acc }) (updEns first (fun x => { x with staging := [] }) s)
      if s.arbor.stopped then s else enterEval g s

/-! ### Rows of the table -/

/-- ARB_SAMPLE_TOKEN (R219). -/
def execArbSampleToken (first : Nat) (s : State) : Host.Outcome State Fault Refusal := guardUnit (isEngine first) (sampleToken first s)

/-- ARB_SAMPLE_START (R226). -/
def execArbSampleStart (first : Nat) (s : State) : Host.Outcome State Fault Refusal := guardUnit (isEngine first) (sampleStart first s)

end Sys2Proof.Machine
end

