-- ==== Sys2Proof/Machine/Time.lean ====
section
/-! DEFINITION. The timebase: the tick, pulses, references, and the setting and stepping of the time (R315 to R325). -/

namespace Sys2Proof.Machine

open Sys2Proof

/-- Nanoseconds in a second. -/
def nsPerSec : Nat := 1000000000

/-- The time as whole nanoseconds. -/
def Timebase.total (t : Timebase) : Nat := t.sec.toNat * nsPerSec + t.ns.toNat

/-- One TCLK tick of R316; the answer's second part says whether NS carried into SEC. -/
def Timebase.tick (t : Timebase) : Timebase × Bool :=
  let acc := t.ns.toNat * 2 ^ 32 + t.frac.toNat + t.inc.toNat
  let carry := decide (nsPerSec ≤ acc / 2 ^ 32)
  let acc' := if carry then acc - nsPerSec * 2 ^ 32 else acc
  ({ t with sec := if carry then t.sec + 1 else t.sec, ns := BitVec.ofNat 30 (acc' / 2 ^ 32), frac := BitVec.ofNat 32 acc' }, carry)

/-- Start the pulse of a carrying tick while PPS_OUT is enabled (R321). -/
def Timebase.pulse (now : Nat) (t : Timebase) : Timebase :=
  if t.ppsEnable then { t with ppsEnd := some (now + t.ppsWidth.toNat * 1000000) } else t

/-- A TCLK tick without a change. -/
def tickTime (s : State) : State :=
  let n := s.clk.tticks + 1
  let r := s.time.tick
  { s with clk := { s.clk with tticks := n }, time := if r.2 then r.1.pulse n else r.1 }

/-- `n` ticks. -/
def tickTimes : Nat → State → State
  | 0, s => s
  | n + 1, s => tickTimes n (tickTime s)

/-- The apply tick of a time command (R318, R323): it is taken from the ticks still to come (DESIGN CHOICE, log entry 4). -/
def applyTick (s : State) : State :=
  let s := tickTime s
  { s with clk := { s.clk with ahead := s.clk.ahead + 1 } }

/-- The time in 2^-32 ns. -/
def Timebase.fine (t : Timebase) : Int := ((t.total * 2 ^ 32 + t.frac.toNat : Nat) : Int)

/-- Note a change of the time or of its rate. -/
def Timebase.note (t : Timebase) (e : TimeEdge) : List TimeEdge := e :: t.edges.filter (fun x => decide (e.tick < x.tick + 65536))

/-- The apply tick of a change: the time takes this value instead of the one R316 gives (R323). -/
def applyChange (f : Timebase → Timebase) (s : State) : State :=
  let t := s.time.tick.1
  let u := f t
  { s with
    clk := { s.clk with tticks := s.clk.tticks + 1, ahead := s.clk.ahead + 1 }
    time := { u with edges := s.time.note { tick := s.clk.tticks + 1, jump := u.fine - t.fine, inc := t.inc } } }

/-- The apply tick of a change of rate, which already counts it (R318). -/
def applyRate (inc : BitVec 40) (s : State) : State :=
  applyTick { s with time := { s.time with inc := inc, edges := s.time.note { tick := s.clk.tticks, jump := 0, inc := s.time.inc } } }

/-- Data of a TIME_JUMP event (R339): kind, Δ, and the time after the apply tick. -/
def jumpData (kind : Nat) (delta : Int) (t : Timebase) : List Byte :=
  leBytes 1 kind ++ List.replicate 7 0 ++ leBytes 8 (unsigned 64 delta) ++ leBytes 6 t.sec.toNat ++ leBytes 4 t.ns.toNat

/-- The apply tick at which the time becomes `new` whole nanoseconds, the change logged (R325). -/
def setTime (mark : Timebase → Timebase) (new delta : Int) (zeroFrac : Bool) (rxSeq : Table Nat) (s : State) : State :=
  applyChange (fun t => mark { t with
    sec := BitVec.ofNat 48 (new.toNat / nsPerSec), ns := BitVec.ofNat 30 (new.toNat % nsPerSec)
    frac := if zeroFrac then 0 else t.frac
    log := ({ delta := delta, tick := s.clk.tticks + 1, rxSeq := rxSeq } :: t.log).take 8 }) s

/-- The first setting of an invalid time. -/
def firstTime (t : Timebase) : Timebase := { t with valid := true }

/-- A change of a valid time. -/
def countJump (t : Timebase) : Timebase := { t with jumps := satAdd t.jumps 1 }

/-- A change over JUMP_LIMIT: the time goes on as R316 says, and REFUSED counts it. -/
def refuseJump (s : State) : State :=
  let s := applyTick s
  { s with time := { s.time with refused := true, refusedNow := true, refusedCount := satAdd s.time.refusedCount 1 } }

/-- No time of 48 bits of seconds. -/
def outsideTime (new : Int) : Bool := new < 0 || ((2 ^ 48 * nsPerSec : Nat) : Int) ≤ new

/-- A TIME_JUMP event of this kind to every session (R339). -/
def postJump (kind : Nat) (delta : Int) (s : State) : State := postAll 0x0007 (jumpData kind delta s.time) s

/-- TIME_SET and TIME_STEP at their apply tick (R323, R324): `target` is the new value in whole nanoseconds, given the
value R316 would give; `zeroFrac` for TIME_SET; `rxSeq` is the RX_SEQ the next frame of each MAC would take (R325). -/
def timeChange (target : Nat → Int) (zeroFrac badInput : Bool) (rxSeq : Table Nat) (s : State) : Nat × State :=
  let would := s.time.tick.1
  let new := target would.total
  let delta := new - (would.total : Int)
  if badInput || outsideTime new then (stBadParam, applyTick s)
  else if !s.time.valid then (stOk, postJump 0 delta (setTime firstTime new delta zeroFrac rxSeq s))
  else if delta == 0 then (stOk, applyTick s)
  else if delta.natAbs ≤ s.time.jumpLimit.toNat then (stOk, postJump 1 delta (setTime countJump new delta zeroFrac rxSeq s))
  else (stJump, postJump 2 delta (refuseJump s))

/-! ### Timestamps (R326) -/

/-- A number of 2^-32 ns for hundredths of a nanosecond. -/
def centiNs (c : Int) : Int := c * 2 ^ 32 / 100

/-- The time at an earlier tick, from the time `cur` at tick `k` and the rate before it: each change between is taken back. -/
def timeAt (tick : Nat) : List TimeEdge → Int → Nat → BitVec 40 → Int
  | [], cur, k, inc => cur - (((k - tick) * inc.toNat : Nat) : Int)
  | e :: es, cur, k, inc =>
    if e.tick ≤ tick then cur - (((k - tick) * inc.toNat : Nat) : Int)
    else timeAt tick es (cur - (((k - e.tick) * inc.toNat : Nat) : Int) - e.jump) e.tick e.inc

/-- The time that was read `since` ticks ago, in 2^-32 ns (R326, R327) (DESIGN CHOICE, log entry 41). -/
def timeBefore (since : Nat) (s : State) : Int :=
  timeAt (s.clk.tticks - since) s.time.edges s.time.fine s.clk.tticks s.time.inc

/-- Seconds and nanoseconds of a time in 2^-32 ns: SEC wraps modulo 2^48 (R316). -/
def splitTime (x : Int) : BitVec 48 × BitVec 30 :=
  let n := (x / 2 ^ 32 % (2 ^ 48 * nsPerSec : Nat)).toNat
  (BitVec.ofNat 48 (n / nsPerSec), BitVec.ofNat 30 (n % nsPerSec))

/-- Receive and transmit corrections of a port mode in hundredths of a nanosecond (R326). -/
def rxCorrection (mode : Nat) : Int :=
  match mode with
  | 1 => -4056 | 2 => -26456 | 3 => -11464 | 4 => -8616 | 5 => -8208 | 6 => -4000 | _ => 0
def txCorrection (mode : Nat) : Int :=
  match mode with
  | 1 => 3600 | 2 => 5800 | 3 => 5200 | 4 => 4800 | 5 => 4600 | _ => 0

/-- A trim in 2^-32 ns. -/
def trimTime (x : BitVec 16) : Int := signed 16 x.toNat * 2 ^ 24

/-- Receive and transmit timestamps of a mark `since` ticks ago on an E-port in a mode (R326). -/
def rxStamp (port mode since : Nat) (s : State) : Int :=
  timeBefore since s + centiNs (rxCorrection mode) + trimTime (Table.get {} s.time.trims (8 * port + mode)).rx
def txStamp (port mode since : Nat) (s : State) : Int :=
  timeBefore since s + centiNs (txCorrection mode) + trimTime (Table.get {} s.time.trims (8 * port + mode)).tx

/-- SECOND_CARRY (R321): the tick at which NS carries, taken when it is the next one. -/
def execSecondCarry (s : State) : Host.Outcome State Fault Refusal :=
  .next (if s.time.tick.2 then applyTick s else s)

/-- PPS_OUT_END (R321): the pulse's width has expired. -/
def execPpsOutEnd (s : State) : Host.Outcome State Fault Refusal :=
  .next (match s.time.ppsEnd with
    | some n => if n ≤ s.clk.tticks then { s with time := { s.time with ppsEnd := none } } else s
    | none => s)

/-- PPS_IN_EDGE (R320): a rising edge captures the time. In reset nothing does (DEDUCED, log entry 10). -/
def execPpsInEdge (s : State) : Host.Outcome State Fault Refusal :=
  .next (if inReset s then s else { s with time := { s.time with
    ppsInSec := s.time.sec, ppsInNs := s.time.ns, ppsInCount := satAdd s.time.ppsInCount 1 } })

/-- REF_LOST (R319): the selected reference is lost and the PLL holds its last frequency. In reset there is no PLL to lose it (DEDUCED, log entry 10). -/
def execRefLost (s : State) : Host.Outcome State Fault Refusal :=
  .next (if inReset s then s else { s with time := { s.time with refLost := true, pllLocked := false } })

/-- PLL_LOCK (R319): the PLL locks to the selected reference (DEDUCED, log entry 10). -/
def execPllLock (s : State) : Host.Outcome State Fault Refusal :=
  .next (if inReset s then s else { s with time := { s.time with refLost := false, pllLocked := true } })

/-- PPS_OUT enable and width; a disabled output is held deasserted (R321). -/
def setPps (on : Bool) (width : Nat) (s : State) : State :=
  { s with time := { s.time with
    ppsEnable := on, ppsWidth := BitVec.ofNat 9 width, ppsEnd := if on then s.time.ppsEnd else none } }

/-- PPS_CFG_ENABLE (R321): ENABLE of PPS_CFG is written. -/
def execPpsCfgEnable (on : Bool) (s : State) : Host.Outcome State Fault Refusal :=
  .next (setPps on s.time.ppsWidth.toNat s)

/-- 1 is written to REFUSED: a set in the same CCLK cycle wins (R20) (DEDUCED, log entry 42). -/
def clearRefused (s : State) : State := { s with time := { s.time with refused := s.time.refusedNow } }

/-- REFUSED_CLEAR (R20): 1 is written to TIME_STATUS REFUSED. -/
def execRefusedClear (s : State) : Host.Outcome State Fault Refusal :=
  .next (clearRefused s)

end Sys2Proof.Machine
end

