-- ==== Sys2Proof/Machine/Stream.lean ====
section
/-! DEFINITION. The stream ingress endpoints and the trigger engine (R238 to R259, R434). -/

namespace Sys2Proof.Machine

open Sys2Proof

/-! ### Accessors -/

def getStream (s : State) (i : Nat) : Stream := Table.get {} s.trig.streams i
def updStream (i : Nat) (f : Stream → Stream) (s : State) : State :=
  { s with trig := { s.trig with streams := Table.upd {} s.trig.streams i f } }
def getChanT (s : State) (k : Nat) : TrigChan := Table.get {} s.trig.chans k
def updChanT (k : Nat) (f : TrigChan → TrigChan) (s : State) : State :=
  { s with trig := { s.trig with chans := Table.upd {} s.trig.chans k f } }
def getOut (s : State) (o : Nat) : TrigOut := Table.get {} s.trig.outs o
def updOutT (o : Nat) (f : TrigOut → TrigOut) (s : State) : State :=
  { s with trig := { s.trig with outs := Table.upd {} s.trig.outs o f } }
def getCap (s : State) (o : Nat) : Capture := Table.get {} s.trig.caps o
def updCap (o : Nat) (f : Capture → Capture) (s : State) : State :=
  { s with trig := { s.trig with caps := Table.upd {} s.trig.caps o f } }

/-- An E-port. -/
def getEPort (s : State) (p : Nat) : EPort := Table.get {} s.eth.ports p
def updEPort (p : Nat) (f : EPort → EPort) (s : State) : State :=
  { s with eth := { s.eth with ports := Table.upd {} s.eth.ports p f } }

/-- The port mode of a raw stream port (R260). -/
def modeRaw : Nat := 6

/-- The endpoint a stream lane feeds (R242). -/
def laneEndpoint (s : State) (lane : Nat) : Option Nat :=
  (List.range 16).find? (fun i =>
    let x := getStream s i
    x.enable && x.port == lane / 8 && x.mask.getLsbD (lane % 8))

/-- Partition and context that the data and the tag endpoint of an ingress endpoint are bound to. -/
def streamBound (s : State) (i : Nat) : List (Nat × Nat) :=
  ((boundTo s 8 i).toList ++ (boundTo s 8 (16 + i)).toList).map (fun b => (b.1, b.2.1))

/-- The binding context runs with its inputs open (R243, R245). -/
def streamRuns (s : State) (i : Nat) : Bool :=
  let bound := streamBound s i
  !bound.isEmpty && bound.all (fun b =>
    let k := (getPart s b.1).ctx b.2
    k.state == .running && !k.inputsStopped && !(getPart s b.1).portsClosed)

/-! ### Blocks of a stream lane (R238 to R241) -/

/-- The receiver of a stream lane. -/
def getLane (s : State) (l : Nat) : StreamLane := Table.get {} s.trig.lanes l
def setLane (l : Nat) (x : StreamLane) (s : State) : State := { s with trig := { s.trig with lanes := Table.set {} s.trig.lanes l x } }

/-- The lock state machine of IEEE 802.3 Clause 49 on a sync header: lock after 64 valid headers in a row from one alignment, loss of
lock at 16 invalid ones of 64, and, without lock, a slip to the next alignment at an invalid one (R238) (PRESUMED, log entry 47). -/
def StreamLane.header (x : StreamLane) (h : BitVec 2) : StreamLane :=
  let bad := h == 0 || h == 3
  let x := { x with count := x.count + 1, invalid := x.invalid + b2n bad }
  if bad && (!x.locked || x.invalid == 16) then { x with locked := false, count := 0, invalid := 0 }
  else if x.count == 64 then { x with locked := x.locked || x.invalid == 0, count := 0, invalid := 0 }
  else x

/-- The self-synchronising descrambler of Clause 49, 1 + x^39 + x^58, on one bit: the bit out, and the bits kept (R238) (PRESUMED, log entry 47). -/
def descrambleBit (kept : BitVec 58) (b : Bool) : Bool × BitVec 58 :=
  (b ^^ (kept.getLsbD 38 ^^ kept.getLsbD 57), (kept <<< 1) ||| (if b then 1#58 else 0#58))

/-- The payload of a block descrambled, from bit 0 on (PRESUMED, log entry 47). -/
def descramble (kept : BitVec 58) (w : W64) : W64 × BitVec 58 :=
  (List.range 64).foldl (fun r i =>
    let b := descrambleBit r.2 (w.getLsbD i)
    (if b.1 then r.1 ||| (1#64 <<< i) else r.1, b.2)) (0, kept)

/-- A lane with block lock receives blocks, until it loses its lock: the receiver afterwards, and the blocks descrambled (DEDUCED, log entry 31; PRESUMED, log entry 47). -/
def receiveBlocks : List StreamBlock → StreamLane → StreamLane × List StreamBlock
  | [], x => (x, [])
  | b :: bs, x =>
    let y := x.header b.sync
    if !y.locked then (y, [])
    else
      let d := descramble y.scrambled b.data
      let r := receiveBlocks bs { y with scrambled := d.2 }
      (r.1, { b with data := d.1 } :: r.2)

/-- What a block is (R239). -/
inductive BlockKind where
  | data (w : W64)
  | idle
  | start
  /-- An END block with its CRC-32. -/
  | finish (crc : W32)
  | invalid
  deriving DecidableEq, Repr

/-- The kind of a block; one whose zero bytes are not zero is invalid (R239) (DEDUCED, log entry 31). -/
def blockKind (b : StreamBlock) : BlockKind :=
  if b.sync == 1 then .data b.data
  else if b.sync == 2 then
    match fldN b.data 0 8 with
    | 0x3C => if fldN b.data 8 56 == 0 then .idle else .invalid
    | 0x5A => if fldN b.data 8 56 == 0 then .start else .invalid
    | 0xA5 => if fldN b.data 8 24 == 0 then .finish (BitVec.ofNat 32 (fldN b.data 32 32)) else .invalid
    | _ => .invalid
  else .invalid

/-- A block ends a frame. -/
def BlockKind.ends : BlockKind → Bool
  | .finish _ => true
  | _ => false

/-- The frame that blocks of a lane hold: from the first START to the END after it (R240, R243) (DEDUCED, log entry 31). -/
def readFrame (blocks : List StreamBlock) : Option RawFrame :=
  let ks := ((blocks.map blockKind).dropWhile (fun k => k != .start)).drop 1
  let body := ks.takeWhile (fun k => !k.ends)
  match ks.dropWhile (fun k => !k.ends) with
  | .finish crc :: _ =>
    let data := body.filterMap (fun k => match k with | .data w => some w | _ => none)
    some { data := data, crc := crc, bad := data.length != body.length }
  | _ => none

/-- The value of a header block, whose bytes are big-endian (R11, R241). -/
def headerValue (w : W64) : W64 := BitVec.ofNat 64 (leNat (w64Bytes w).reverse)

/-! ### Acceptance (R240 to R244) -/

/-- Cells of a frame: header and payload words, the last cell filled with zero words (R243). -/
def frameCells (words : List W64) : List (List W64) :=
  (chunks 8 (words.length + 1) words).map (fun c => c ++ List.replicate (8 - c.length) 0)

/-- Commit the cells of a frame to a queue. -/
def commitCells (q source : Nat) (cells : List (List W64)) (s : State) : State :=
  cells.foldl (fun s c => commitCell q source c s) s

/-- Room for cells in a queue's tail buffer (R189). -/
def tailRoom (x : Spill) (n : Nat) : Bool := x.vaults == 0 || decide (x.ahead + n ≤ x.moved + 64)

/-- A capture unit freezes and its output's TRIGGER event is sent (R257). The cells it has written are in the queue by then. -/
def freezeCapture (o : Nat) (s : State) : State :=
  let u := getCap s o
  let s := updCap o (fun u => { u with state := .frozen }) (updQueue u.cfg.queue (fun q => { q with frozen := true }) (settleQueue u.cfg.queue s))
  postOwner s.trig.owner 0x0002 (leBytes 1 o ++ leBytes 1 u.cfg.queue ++ leBytes 2 0 ++ leBytes 4 u.captureWr.toNat) s

/-- CAPTURE_FREEZE (R257): the unit has written its last frame (DEDUCED, log entry 31). -/
def captureFreeze (o : Nat) (s : State) : State :=
  let u := getCap s o
  if u.state == .post && u.left == 0 then freezeCapture o s else s

/-- An ARMED or POST capture unit writes an accepted frame; a FROZEN one's queue does not accept it (R185, R257) (DEDUCED, log entry 31). -/
def captureFrame (i o : Nat) (cells : List (List W64)) (s : State) : State :=
  let s := captureFreeze o s
  let u := getCap s o
  if u.cfg.source != i || u.state == .idle then s
  else if u.state == .frozen then commitCells u.cfg.queue wrCapture cells s
  else if !tailRoom (getQueue s u.cfg.queue) cells.length then { s with trig := { s.trig with capLost := satAdd s.trig.capLost 1 } }
  else
    let s := commitCells u.cfg.queue wrCapture cells s
    if u.state == .post then updCap o (fun u => { u with left := u.left - 1 }) s else s

/-- A frame whose END block has arrived, `since` ticks after its START block reached the deframer (R243) (DEDUCED, log entry 31; DESIGN CHOICE, log entry 8). -/
def frameEnd (lane : Nat) (f : RawFrame) (since : Nat) (s : State) : State :=
  match laneEndpoint s lane with
  | none => { s with trig := { s.trig with unbound := satAdd s.trig.unbound 1 } }
  | some i =>
    let x := getStream s i
    let header := headerValue (f.data.headD 0)
    let n := fldN header 10 10
    let seq := x.nextSeq
    let cells := frameCells (header :: f.data.drop 1)
    let q := (getQueue s x.queue).settle
    let s := updStream i (fun x => { x with nextSeq := (x.nextSeq + 1) % 2 ^ 32 }) s
    let lost (f : Stream → Stream) : State := updStream i (fun x => f { x with notAccepted := x.notAccepted + 1 }) s
    if f.bad || n == 0 || 512 < n || f.data.length != n + 1 then lost (fun x => { x with malformed := satAdd x.malformed 1 })
    else if crc32 (f.data.flatMap w64Bytes) != f.crc then lost (fun x => { x with crc := satAdd x.crc 1 })
    else if !streamRuns s i then lost (fun x => { x with stopped := satAdd x.stopped 1 })
    else if q.capacity < q.wr - q.rel + cells.length then lost (fun x => { x with drop := satAdd x.drop 1 })
    else
      let st := splitTime (rxStamp x.port modeRaw since s)
      let s := commitCells x.queue wrEport cells s
      let m : FrameMeta :=
        { sec := st.1, ns := st.2, channel := fldN header 52 12, sequence := fldN header 20 32, seq := seq
          notAccepted := x.notAccepted, pauses := s.canopy.pauses }
      let s := updStream i (fun x => { x with
        accepted := satAdd x.accepted 1, ring := Table.set none x.ring (seq % 1024) (some m)
        frames := x.frames ++ [{ seq := seq, lane := lane, words := n + 1, cell := q.wr, allowed := s.clk.aclk + 2 * s.clk.units }] }) s
      (List.range 4).foldl (fun s o => captureFrame i o cells s) s

/-- The frames ended in a cycle are handled in ascending lane order (R244) (DEDUCED, log entry 31). -/
def endFrames (s : State) : State :=
  (List.range 64).foldl (fun s l => (s.trig.ended.filter (fun e => e.lane == l)).foldl (fun s e => frameEnd l e.frame e.since s) s) s

/-! ### Channels (R251, R252) -/

/-- Comparison of R129: x ≥ y for values that are not NaN. -/
def geF (x y : W32) : Bool := !fpLt (fpDec 23 x.toNat) (fpDec 23 y.toNat)

/-- A channel takes state `up` from the next cycle on; it fires when it becomes HIGH (DEDUCED, log entry 31). -/
def TrigChan.become (x : TrigChan) (now : Nat) (up : Bool) (why : Cause) : TrigChan :=
  { x with
    high := up
    changes := ((now + 1, up) :: x.changes).take 3
    fires := if up && !x.high then ((now + 1, why) :: x.fires).take 3 else x.fires }

/-- A value of a SCORE or RAW channel (R252). -/
def chanValue (k : Nat) (v : W32) (poison : Bool) (why : Cause) (s : State) : State :=
  let x := getChanT s k
  if !x.armed then s
  else if poison then { s with trig := { s.trig with poison := satAdd s.trig.poison 1 } }
  else if (fpDec 23 v.toNat).nan then { s with trig := { s.trig with nan := satAdd s.trig.nan 1 } }
  else
    let crosses := if x.cfg.polarity then geF x.cfg.level v else geF v x.cfg.level
    let falls := if x.cfg.polarity then !geF x.release v else !geF v x.release
    if !x.high && crosses then updChanT k (fun x => x.become s.canopy.now true why) s
    else if x.high && falls then updChanT k (fun x => x.become s.canopy.now false why) s
    else s

/-- TRIG_SCORE_TOKEN (R251): the oldest token that has crossed to a channel endpoint; the endpoint always takes it. -/
def scoreToken (k : Nat) (s : State) : State :=
  if s.canopy.paused then s
  else
    match edgeTake 5 k s with
    | none => s
    | some (t, s) =>
      let x := getChanT s k
      if !x.armed || x.cfg.source != 0 then s
      else chanValue k (BitVec.ofNat 32 (lane t.data 32 0)) t.poison (.frame x.cfg.endpoint (lane t.data 32 1)) s

/-- A pin change reaches its channels (R251, R252). -/
def pinChange (pin : Nat) (level : Bool) (why : Cause) (s : State) : State :=
  (List.range 64).foldl (fun s k =>
    let x := getChanT s k
    if x.armed && x.cfg.source == 2 && x.cfg.pin == pin && x.high != level then updChanT k (fun x => x.become s.canopy.now level why) s
    else s) s

/-- TRIG_IN_CHANGE (R251): `since` ticks after the change at the ball. Sampling goes on during a pause, and the channels see
the change after it (R250) (DEDUCED, log entry 31; DESIGN CHOICE, log entry 41). -/
def trigInChange (pin : Nat) (level : Bool) (since : Nat) (s : State) : State :=
  let st := splitTime (timeBefore since s)
  let why : Cause := .pin st.1 st.2 s.canopy.pauses
  let s := { s with trig := { s.trig with pins := if level then s.trig.pins ||| (1#4 <<< pin) else s.trig.pins &&& ~~~(1#4 <<< pin) } }
  if s.canopy.paused then { s with trig := { s.trig with waiting := s.trig.waiting ++ [(pin, level, why)] } }
  else pinChange pin level why s

/-- Pin changes sampled during a pause reach their channels when it ends (DEDUCED, log entry 31). -/
def releasePins (s : State) : State :=
  let ws := s.trig.waiting
  ws.foldl (fun s w => pinChange w.1 w.2.1 w.2.2 s) { s with trig := { s.trig with waiting := [] } }

/-! ### Delivery (R245 to R248) -/

/-- A token placed at the tile that an endpoint is bound to, without credit (R245). -/
def placeSample (index : Nat) (v : W64) (poison : Bool) (s : State) : State :=
  match boundTo s 8 index with
  | none => s
  | some (p, c, col, row) =>
    let d := if row == 0 then 0 else 2
    updPart p (fun x => { x with activity := s.canopy.now })
      (updTile col row (fun t => t.updIn d (fun l => { l with wire := l.wire ++ [{ tok := { data := v, ctx := c, poison := poison }, at_ := s.canopy.now }] })) s)

/-- Tag token of R245. -/
def tagToken (f : StreamFrame) (word : Nat) (isLast : Bool) : W64 :=
  BitVec.ofNat 64 (1 + b2n (word == 0) * 2 + b2n isLast * 4 + b2n (f.wait != 0) * 8 + word * 16 + f.lane * 2 ^ 16 + f.seq * 2 ^ 32)

/-- Cells of an accepted frame (R243). -/
def StreamFrame.cells (f : StreamFrame) : Nat := (f.words + 7) / 8

/-- The read point of an ingress queue stands behind a frame, whose cells are released (R246) (DEDUCED, log entry 31). -/
def passFrame (q : Nat) (f : StreamFrame) (s : State) : State :=
  updQueue q (fun x => (({ x with rd := f.cell + f.cells, rdWord := 0 } : Spill).release (f.cell + f.cells)).1) s

/-- A frame of which a word was lost is not delivered again (R245) (DEDUCED, log entry 31). -/
def dropLostFrame (i : Nat) (s : State) : State :=
  let x := getStream s i
  match x.lost, x.frames with
  | some n, f :: rest =>
    let s := updStream i (fun x => { x with lost := none }) s
    if f.seq == n && f.sent != 0 then updStream i (fun x => { x with frames := rest }) (passFrame x.queue f s) else s
  | _, _ => s

/-- A RAW channel takes its word of a frame in the word's delivery cycle (R251). -/
def rawWord (i : Nat) (f : StreamFrame) (w : SqWord) (s : State) : State :=
  (List.range 64).foldl (fun s k =>
    let c := getChanT s k
    if c.armed && c.cfg.source == 1 && c.cfg.endpoint == i && c.cfg.rawWord == f.sent && f.sent != 0 then
      chanValue k (BitVec.ofNat 32 (lane w.v 32 (b2n c.cfg.rawHalf))) w.poison (.frame i f.seq) s
    else s) s

/-- Deliver the next word of a frame, which stands at the read point (R245, R246). -/
def deliverWord (i : Nat) (f : StreamFrame) (rest : List StreamFrame) (w : SqWord) (s : State) : State :=
  let q := (getStream s i).queue
  let isLast := f.sent + 1 == f.words
  let s := placeSample (16 + i) (tagToken f f.sent isLast) false (placeSample i w.v w.poison s)
  let s := updStream i (fun x => { x with
    frames := if isLast then rest else { f with sent := f.sent + 1 } :: rest
    recent := ((s.canopy.now, f.seq) :: x.recent).take 2
    ring := Table.upd none x.ring (f.seq % 1024) (fun m => m.map (fun m => if m.seq == f.seq then { m with wait := f.wait } else m)) }) s
  let s := updQueue q (fun x => x.advance w.poison) s
  rawWord i f w (if isLast then passFrame q f s else s)

/-- STREAM_DELIVERY (R245, R246, R248): one sample frame, with the next word of the oldest accepted frame once its contract
cycle has come, or with VALID 0. A frame that is no longer in the queue is not delivered. -/
def streamDelivery (i : Nat) (s : State) : State :=
  if s.canopy.paused || (getStream s i).deliveredAt == some s.canopy.now || !streamRuns s i then s
  else
    let s := dropLostFrame i (updStream i (fun x => { x with deliveredAt := some s.canopy.now }) s)
    let x := getStream s i
    let idle (s : State) : State := placeSample (16 + i) 0 false (placeSample i 0 false s)
    match x.frames with
    | [] => idle s
    | f :: rest =>
      if f.sent == 0 && s.clk.aclk < f.allowed then idle s
      else
        let f := if f.sent == 0 then { f with wait := min 65535 (s.clk.aclk - f.allowed) } else f
        let s := if f.sent == 0 then updQueue x.queue (fun q => { q with rd := f.cell, rdWord := 0 }) s else s
        match (getQueue s x.queue).nextWord with
        | some w => deliverWord i f rest w s
        | none => idle (updStream i (fun x => { x with frames := rest }) s)

/-! ### Outputs, decisions and capture (R253 to R257) -/

/-- A channel's state as it stands after a cycle. -/
def TrigChan.highAt (x : TrigChan) (c : Nat) : Bool := x.armed && ((x.changes.find? (fun e => e.1 ≤ c)).map (·.2)).getD false

/-- Why a channel fired in a cycle, if it did. -/
def TrigChan.firedAt (x : TrigChan) (c : Nat) : Option Cause :=
  if x.armed then (x.fires.find? (fun e => e.1 == c)).map (·.2) else none

/-- The metadata of a frame, where the ring still holds it (R247, R255). -/
def frameMeta (s : State) (ep seq : Nat) : Option FrameMeta :=
  (Table.get none (getStream s ep).ring (seq % 1024)).bind (fun m => if m.seq == seq then some m else none)

/-- The decision record of R255, with what LATE rests on (R256). -/
def decisionRecord (o k : Nat) (why : Cause) (capWr : Nat) (noCapture : Bool) (s : State) : List Byte :=
  let tail (late pin stale : Bool) (ep : Nat) : List Byte :=
    leBytes 4 capWr ++ leBytes 1 (o + 16 * ep) ++ leBytes 1 k ++ leBytes 1 (b2n late + 2 * b2n pin + 4 * b2n stale + 8 * b2n noCapture) ++ leBytes 1 0
  match why with
  | .pin sec ns pauses =>
    leBytes 6 sec.toNat ++ leBytes 4 ns.toNat ++ List.replicate 14 0 ++ tail (pauses != s.canopy.pauses) true false 0
  | .frame ep seq =>
    let base := Table.get 0 (getOut s o).droppedAt ep
    match frameMeta s ep seq with
    | some m =>
      leBytes 6 m.sec.toNat ++ leBytes 4 m.ns.toNat ++ leBytes 2 m.channel ++ leBytes 4 m.sequence ++ leBytes 4 seq
        ++ leBytes 2 (min 65535 (m.notAccepted - base)) ++ leBytes 2 m.wait ++ tail (m.wait != 0 || m.pauses != s.canopy.pauses) false false ep
    | none => List.replicate 16 0 ++ leBytes 4 seq ++ List.replicate 4 0 ++ tail true false true ep

/-- Frames of each endpoint not accepted up to a decision: those of its own frame's endpoint up to that frame (R255) (DEDUCED, log entry 31). -/
def countsSeen (why : Cause) (s : State) : Table Nat :=
  (List.range 16).foldl (fun t i => Table.set 0 t i (match why with
    | .frame ep seq => if ep == i then ((frameMeta s ep seq).map (fun m => m.notAccepted)).getD (getStream s i).notAccepted else (getStream s i).notAccepted
    | .pin _ _ _ => (getStream s i).notAccepted)) []

/-- A decision on an output (R253 to R257). -/
def decide_ (o k : Nat) (why : Cause) (s : State) : State :=
  let c := s.canopy.now
  let u := getCap s o
  let noCapture := u.state != .armed
  let capWr := if noCapture then 0 else (getQueue s u.cfg.queue).wr % 2 ^ 32
  let s := updOutT o (fun x => { x with holdEnd := c + x.cfg.holdoff, pulses := x.pulses ++ [(c, x.cfg.width)] }) s
  let record : DecRecord :=
    { out := o, bytes := decisionRecord o k why capWr noCapture s
      seen := countsSeen why s }
  let s := if s.trig.decEnable then { s with trig := { s.trig with records := s.trig.records ++ [record] } } else s
  if noCapture then s
  else
    let s := updCap o (fun u => { u with state := .post, left := u.cfg.post, captureWr := BitVec.ofNat 32 capWr }) s
    if u.cfg.post == 0 then freezeCapture o s else s

/-- A decision record is written, after the control word of an image in the same cycle; one that finds its queue full is lost
(R185, R186, R255). DROPPED counts from the output's latest record that was written (DEDUCED, log entry 31). -/
def writeRecord (r : DecRecord) (s : State) : State :=
  let s := sqControlWord s.trig.decQueue s
  let q := (getQueue s s.trig.decQueue).settle
  let lost := q.full && !q.circular && !q.frozen && q.writer == wrCapture
  let s := if lost then { s with trig := { s.trig with decLost := satAdd s.trig.decLost 1 } } else s
  let s := if q.accepts wrCapture then
      updOutT r.out (fun x => { x with droppedAt := r.seen.foldl (fun t kv => Table.set 0 t kv.1 (max (Table.get 0 t kv.1) kv.2)) x.droppedAt }) s
    else s
  commitCell s.trig.decQueue wrCapture (bytesW64 r.bytes ++ [0, 0, 0, 0]) s

/-- The decisions of a cycle are recorded in ascending output order (R253) (DEDUCED, log entry 31). -/
def writeRecords (s : State) : State :=
  (List.range 4).foldl (fun s o => (s.trig.records.filter (fun r => r.out == o)).foldl (fun s r => writeRecord r s) s) s

/-- The end of a cycle in the trigger engine (R244, R253). -/
def settleTrigger (s : State) : State :=
  if s.trig.ended.isEmpty && s.trig.records.isEmpty then s
  else
    let s := writeRecords (endFrames s)
    { s with trig := { s.trig with ended := [], records := [] } }

/-- TRIG_OUTPUT_DECIDE (R253): an armed output looks at the channels as they stood after the cycle before (DEDUCED, log entry 31). -/
def outputDecide (o : Nat) (s : State) : State :=
  let x := getOut s o
  let c := s.canopy.now
  if !x.armed || s.canopy.paused || x.evalAt == some c || c == 0 then s
  else
    let s := updOutT o (fun x => { x with evalAt := some c }) s
    let fired := (List.range 64).filter (fun k => ((getChanT s k).firedAt (c - 1)).isSome)
    let all := (List.range 64).all (fun k => !x.cfg.andMask.getLsbD k || (getChanT s k).highAt (c - 1))
    let hit := fired.filter (fun k => x.cfg.orMask.getLsbD k || (x.cfg.andMask != 0 && all && x.cfg.andMask.getLsbD k))
    match hit with
    | [] => s
    | k :: _ =>
      if x.holdEnd < c then
        match (getChanT s k).firedAt (c - 1) with
        | some why => decide_ o k why s
        | none => s
      else { s with trig := { s.trig with suppressed := satAdd s.trig.suppressed 1 } }

/-- TRIG_OUT_PULSE_END (R254): the pulse began 12 ns after the start of its decision cycle (DEDUCED, log entry 31). -/
def pulseEnd (o : Nat) (s : State) : State :=
  match (getOut s o).pulses with
  | (c, w) :: rest =>
    if 5 * (c + w) + 3 * s.clk.units ≤ 5 * s.canopy.now then updOutT o (fun x => { x with pulses := rest }) s else s
  | [] => s

/-- The ingress endpoints and the trigger engine after a trigger domain reset (R259). -/
def resetTrigger (s : State) : State :=
  let s := (List.range 64).foldl (fun s k => updChanT k (fun x => { x with armed := false, high := false, changes := [], fires := [] }) s) s
  let s := (List.range 4).foldl (fun s o => updOutT o (fun x => { x with armed := false, pulses := [] }) s) s
  (List.range 4).foldl (fun s o =>
    let u := getCap s o
    let s := if u.state == .frozen then updQueue u.cfg.queue (fun q => { q with frozen := false }) s else s
    updCap o (fun u => { u with state := .idle, left := 0 }) s) s

/-! ### Commands (R258, R259, R434) -/

/-- A queue fit for an ingress endpoint (R242). -/
def ingressQueue (q : Spill) : Bool := q.writer == wrEport && q.reader == rdCanopy && !q.circular && q.vaults == 0

/-- An image binds one of a queue's spill-queue endpoints (R182, R242). -/
def queueBound (s : State) (q : Nat) : Bool :=
  (boundTo s 1 q).isSome || (boundTo s 1 (256 + q)).isSome || (boundTo s 2 q).isSome

/-- STREAM_CONFIG (R434). -/
def serveStreamConfig (f : Flight) (s : State) : State :=
  let i := f.pkt.at_ 0 1
  let p := f.pkt.at_ 1 1
  let mask : BitVec 8 := BitVec.ofNat 8 (f.pkt.at_ 2 1)
  let q := f.pkt.at_ 3 1
  let on := f.pkt.bits 4 0 1 == 1
  let clear (x : Stream) : Stream := { x with nextSeq := 0, ring := [], frames := [], recent := [], lost := none }
  if foreign s.trig.owner f.sess then answer f stDenied s
  else if 15 < i then answer f stBadParam s
  else if (boundTo s 8 i).isSome || (boundTo s 8 (16 + i)).isSome then answer f stBadParam s
  else if !on then answerOk f (updStream i (fun x => { clear x with enable := false }) s)
  else if (decide (p < 8) && foreign (getEPort s p).owner f.sess) || foreign (getQueue s q).owner f.sess then answer f stDenied s
  else
    let taken := (List.range 16).any (fun j => j != i && (getStream s j).enable && (getStream s j).port == p && ((getStream s j).mask &&& mask) != 0)
    if 7 < p || (getEPort s p).mode != modeRaw || taken || !ingressQueue (getQueue s q) || queueBound s q then answer f stBadParam s
    else answerOk f (updStream i (fun x => { clear x with enable := true, port := p, mask := mask, queue := q }) s)

/-- RELEASE of R252. -/
def releaseOf (c : ChanCfg) : Nat :=
  if c.polarity then fAdd32 c.level.toNat c.hyst.toNat else fSub32 c.level.toNat c.hyst.toNat

/-- A channel's registers are fit to arm (R258). -/
def chanOk (s : State) (c : ChanCfg) : Bool :=
  if c.source == 3 then false
  else if c.source == 2 then true
  else
    let l := fpDec 23 c.level.toNat
    let h := fpDec 23 c.hyst.toNat
    let r := fpDec 23 (releaseOf c)
    (getStream s c.endpoint).enable && !(c.source == 1 && c.rawWord == 0) && !l.nan && !l.inf && !h.nan && !h.inf
      && !(h.sign && h.m != 0) && !r.inf && !r.nan

/-- Items of a TRIG_ARM or TRIG_DISARM. -/
def trigItems (f : Flight) : List Nat × List Nat × List Nat :=
  ((List.range 64).filter (fun k => f.pkt.bits 0 k 1 == 1), (List.range 4).filter (fun o => f.pkt.bits 8 o 1 == 1),
   (List.range 4).filter (fun o => f.pkt.bits 8 (4 + o) 1 == 1))

/-- TRIG_ARM (R252, R258, R259). -/
def serveTrigArm (f : Flight) (s : State) : State :=
  let it := trigItems f
  if foreign s.trig.owner f.sess then answer f stDenied s
  else
    let bad :=
      it.1.any (fun k => (getChanT s k).armed || !chanOk s (getChanT s k).reg)
      || it.2.1.any (fun o => let x := getOut s o; x.armed || x.reg.width == 0 || decide (x.reg.holdoff < x.reg.width))
      || it.2.2.any (fun o =>
          let u := getCap s o
          let q := getQueue s u.reg.queue
          u.state != .idle || q.writer != wrCapture || !q.circular || decide (q.capacity < 65))
      || (s.trig.decEnableReg && (getQueue s s.trig.decQueueReg).writer != wrCapture)
    if bad then answer f stBadParam s
    else
      let s := it.1.foldl (fun s k => updChanT k (fun x =>
        { x with cfg := x.reg, armed := true, release := BitVec.ofNat 32 (releaseOf x.reg), high := false, changes := [], fires := [] }) s) s
      let s := it.2.1.foldl (fun s o => updOutT o (fun x =>
        { x with cfg := x.reg, armed := true, holdEnd := 0, evalAt := none
                 droppedAt := (List.range 16).foldl (fun t i => Table.set 0 t i (getStream s i).notAccepted) [] }) s) s
      let s := it.2.2.foldl (fun s o => updCap o (fun u => { u with cfg := u.reg, state := .armed, left := 0 }) s) s
      let any := !(it.1.isEmpty && it.2.1.isEmpty && it.2.2.isEmpty)
      let s := if any then { s with trig := { s.trig with decEnable := s.trig.decEnableReg, decQueue := s.trig.decQueueReg } } else s
      answerOk f s

/-- TRIG_DISARM (R254, R258). -/
def serveTrigDisarm (f : Flight) (s : State) : State :=
  let it := trigItems f
  if foreign s.trig.owner f.sess then answer f stDenied s
  else
    let s := it.1.foldl (fun s k => updChanT k (fun x => { x with armed := false, high := false, changes := [], fires := [] }) s) s
    let s := it.2.1.foldl (fun s o => updOutT o (fun x => { x with armed := false, pulses := [] }) s) s
    let s := it.2.2.foldl (fun s o => updCap o (fun u => if u.state == .frozen then u else { u with state := .idle, left := 0 }) s) s
    answerOk f s

/-- TRIG_REARM (R257, R258). -/
def serveTrigRearm (f : Flight) (s : State) : State :=
  if foreign s.trig.owner f.sess then answer f stDenied s
  else answerOk f ((List.range 4).foldl (fun s o =>
    let u := getCap s o
    if f.pkt.bits 0 o 1 == 1 && u.state == .frozen then
      updCap o (fun u => { u with state := .armed, left := 0 }) (updQueue u.cfg.queue (fun q => { q with frozen := false }) s)
    else s) s)

/-! ### Rows of the table -/

/-- STREAM_LANE_BLOCK_LOCK (R238): the sync headers of blocks that a raw stream lane receives between frames. -/
def execStreamLaneBlockLock (lane : Nat) (headers : List (BitVec 2)) (s : State) : Host.Outcome State Fault Refusal :=
  guardUnit (decide (lane < 64))
    (if (getEPort s (lane / 8)).mode == modeRaw then setLane lane (headers.foldl StreamLane.header (getLane s lane)) s else s)

/-- STREAM_FRAME_END (R238, R240, R243): the blocks that a raw stream lane with block lock has received since its last END block, up
to the next; the frame they hold is handled at the end of the cycle, with those of the other lanes (R244). -/
def execStreamFrameEnd (lane : Nat) (start header : StreamBlock) (words : List StreamBlock) (finish : StreamBlock) (since : Nat) (s : State) : Host.Outcome State Fault Refusal :=
  guardUnit (decide (lane < 64))
    (if (getEPort s (lane / 8)).mode == modeRaw && (getLane s lane).locked then
      let r := receiveBlocks (start :: header :: words ++ [finish]) (getLane s lane)
      let s := setLane lane r.1 s
      match readFrame r.2 with
      | some f => { s with trig := { s.trig with ended := s.trig.ended ++ [{ lane := lane, frame := f, since := since }] } }
      | none => s
    else s)

/-- STREAM_DELIVERY (R245). -/
def execStreamDelivery (endpoint : Nat) (s : State) : Host.Outcome State Fault Refusal :=
  guardUnit (decide (endpoint < 16)) (streamDelivery endpoint s)

/-- TRIG_SCORE_TOKEN (R252). -/
def execTrigScoreToken (channel : Nat) (s : State) : Host.Outcome State Fault Refusal :=
  guardUnit (decide (channel < 64)) (scoreToken channel s)

/-- TRIG_IN_CHANGE (R251). -/
def execTrigInChange (pin : Nat) (level : Bool) (since : Nat) (s : State) : Host.Outcome State Fault Refusal :=
  guardUnit (decide (pin < 4)) (trigInChange pin level since s)

/-- TRIG_OUTPUT_DECIDE (R253). -/
def execTrigOutputDecide (out : Nat) (s : State) : Host.Outcome State Fault Refusal :=
  guardUnit (decide (out < 4)) (outputDecide out s)

/-- TRIG_OUT_PULSE_END (R254). -/
def execTrigOutPulseEnd (out : Nat) (s : State) : Host.Outcome State Fault Refusal :=
  guardUnit (decide (out < 4)) (pulseEnd out s)

/-- CAPTURE_FREEZE (R257). -/
def execCaptureFreeze (out : Nat) (s : State) : Host.Outcome State Fault Refusal :=
  guardUnit (decide (out < 4)) (captureFreeze out s)

end Sys2Proof.Machine
end

