-- ==== Sys2Proof/Machine/Mac.lean ====
section
/-! DEFINITION. The MACs: counters, receive, the field extractor, and gate lists (R260 to R268, R272, R275 to R278). -/

namespace Sys2Proof.Machine

open Sys2Proof

/-! ### MACs and counters (R260, R267, R268) -/

/-- MACs of an E-port in a port mode. -/
def macsOf (mode : Nat) : Nat := if mode == 1 || mode == 2 || mode == 3 then 8 else if mode == 4 then 2 else if mode == 5 then 1 else 0

/-- Port mode of a MAC's E-port. -/
def macMode (s : State) (m : Nat) : Nat := (getEPort s (m / 8)).mode

/-- A MAC index of the part, and one that its port mode has. -/
def isMac (m : Nat) : Bool := decide (m < 64)
def macPresent (s : State) (m : Nat) : Bool := isMac m && decide (m % 8 < macsOf (macMode s m))

/-- Byte time in hundredths of a nanosecond (DESIGN CHOICE, log entry 4). -/
def byteTime (mode : Nat) : Nat := match mode with | 1 => 32 | 2 => 32 | 3 => 8 | 4 => 2 | _ => 1

/-- A MAC. -/
def getMac (s : State) (m : Nat) : Mac := Table.get {} s.eth.macs m

/-- Changing a MAC. -/
def updMac (m : Nat) (f : Mac → Mac) (s : State) : State :=
  { s with eth := { s.eth with macs := Table.upd {} s.eth.macs m f } }

/-- Owner of a MAC's E-port. -/
def macOwner (s : State) (m : Nat) : Option Nat := (getEPort s (m / 8)).owner

/-- Add to a counter; a change of its bit 31 sends COUNTER_HALF (R267, R268). -/
def countMac (m i n : Nat) (s : State) : State :=
  let old : W32 := Table.get 0 (getMac s m).counters i
  let new := old + BitVec.ofNat 32 n
  let s := updMac m (fun x => { x with counters := Table.set 0 x.counters i new }) s
  if old.getLsbD 31 == new.getLsbD 31 then s
  else postOwner (macOwner s m) 0x0003 (leBytes 1 m ++ leBytes 1 i ++ leBytes 1 (b2n (new.getLsbD 31))) s

/-- The configuration of a frame whose word 0 reached the parser at a tick (R284) (DEDUCED, log entry 32). -/
def Mac.confAt (x : Mac) (tick : Nat) : MacConf :=
  match (x.past.filter (fun tc => decide (tick ≤ tc.1))).getLast? with
  | some tc => tc.2
  | none => x.conf

/-- Change a MAC's configuration at its apply cycle. -/
def reconfigure (now : Nat) (f : MacConf → MacConf) (x : Mac) : Mac :=
  { x with past := (now, x.conf) :: x.past.filter (fun tc => decide (now < tc.1 + 1000000)), conf := f x.conf }

/-- Position of a counter of R267. -/
def ctRxOk : Nat := 0
def ctRxOctets : Nat := 1
def ctRxRunt : Nat := 2
def ctRxGiant : Nat := 3
def ctRxFcs : Nat := 4
def ctRxCode : Nat := 5
def ctRxPause : Nat := 6
def ctRxFiltered : Nat := 7
def ctRxOverflow : Nat := 8
def ctRxDisabled : Nat := 9
def ctEvaluated : Nat := 10
def ctNoDecision : Nat := 11
def ctTxOk : Nat := 12
def ctTxRunt : Nat := 13
def ctTxGiant : Nat := 14
def ctTxBad : Nat := 15
def ctTxPoison : Nat := 16
def ctTxSegments : Nat := 17
def ctTxGate : Nat := 18
def ctReplySent : Nat := 19
def ctReplyStomped : Nat := 20
def ctReplySuppressed : Nat := 21
def ctReplyUnretracted : Nat := 22
def ctReplyNan : Nat := 23
def ctReplyDropped : Nat := 24
def ctGateWait : Nat := 25
def ctTxOctets : Nat := 26
def ctTxPadded : Nat := 27
def ctReplyLate : Nat := 28

/-! ### Frames (R262 to R266) -/

/-- The FCS of a frame without it: CRC-32, low byte first. -/
def fcsOf (b : List Byte) : List Byte := leBytes 4 (crc32 b).toNat

/-- The frame check of R262. -/
def fcsGood (b : List Byte) : Bool := decide (4 ≤ b.length) && fcsOf (b.take (b.length - 4)) == b.drop (b.length - 4)

/-- Entry of the filter that a destination address matches (R264). -/
def filterHit (c : MacConf) (addr : List Byte) : Option FilterEntry :=
  (c.filter.find? (fun kv => kv.2.valid && kv.2.addr == addr)).map (·.2)

/-- R264. -/
def filterPasses (c : MacConf) (b : List Byte) : Bool :=
  let a := b.take 6
  (filterHit c a).isSome || (c.cfg.bcast && a == List.replicate 6 0xFF) || c.cfg.promisc

/-- The frame is evaluated (R264, R278), one that will be Disabled too: its reply is sent (R282) (DEDUCED, log entry 32). -/
def evaluates (c : MacConf) (b : List Byte) : Bool :=
  c.extract.first.isSome && (c.filter.any (fun kv => kv.2.valid && kv.2.eval && kv.2.addr == b.take 6))

/-- Cells of a frame of L bytes in its queue (R265). -/
def rxCells (len : Nat) : Nat := 1 + ceilDiv len 64

/-- Cells held back in a queue for accepted frames that are not committed yet. -/
def reservedCells (s : State) (q : Nat) : Nat :=
  (s.eth.macs.map (fun km => ((km.2.frames.filter (fun f => match f.accepted with
    | some (q', _) => q' == q
    | none => false)).map (fun f => rxCells f.bytes.length - f.given)).sum)).sum

/-- At its verdict a frame finds the cells it needs free in its queue, and the tail buffer not full; its cells then enter the
tail buffer as there is room (R265) (DEDUCED, log entry 32). -/
def rxFits (s : State) (q len : Nat) : Bool :=
  let x := (getQueue s q).settle
  decide (x.wr - x.rel + rxCells len + reservedCells s q ≤ x.capacity) && sqReady x

/-- The receive descriptor of a frame (R266). -/
def rxDescriptor (m : Nat) (f : RxFrame) (rxSeq : Nat) : List Byte :=
  let tok := match f.result with
    | some r => r.1
    | none => f.discarded.getD 0
  let ev := f.evaluated && (f.result.isSome || f.discarded.isSome)
  leBytes 1 1 ++ leBytes 1 m ++ leBytes 2 f.bytes.length
    ++ leBytes 1 (b2n f.evaluated + 2 * b2n f.noDecision + 4 * b2n f.replied + 8 * b2n f.stomped + 16 * b2n f.unretracted
        + 32 * b2n f.suppressed + 64 * b2n (f.result.isSome && fldN tok 48 1 == 1) + 128 * b2n (f.result.isSome && fldN tok 49 1 == 1))
    ++ leBytes 1 f.template ++ leBytes 2 (if ev then fldN tok 32 16 else 0) ++ leBytes 4 (if ev then fldN tok 0 32 else 0)
    ++ leBytes 4 rxSeq ++ leBytes 6 f.sec.toNat ++ leBytes 4 f.ns.toNat ++ leBytes 1 f.conf.cfg.fwdTc ++ leBytes 1 (b2n f.late)
    ++ List.replicate 36 0

/-- The data cells of a frame, the last filled with zero bytes. -/
def dataCells (b : List Byte) : List (List W64) :=
  (chunks 64 (b.length + 1) b).map (fun c => bytesW64 (padTo 64 c))

/-- Nothing more can change a frame's descriptor. -/
def RxFrame.complete (f : RxFrame) : Bool :=
  f.verdict.isSome && !f.awaits && !f.entering && (!f.evaluated || f.result.isSome || f.discarded.isSome) && !f.replying

/-- The cells of an accepted frame that its queue has not taken. -/
def restCells (m : Nat) (f : RxFrame) (r : Nat) : List (List W64) := (bytesW64 (rxDescriptor m f r) :: dataCells f.bytes).drop f.given

/-- Cells that a tail buffer has room for (R189). -/
def Spill.room (x : Spill) (n : Nat) : Nat := if x.vaults == 0 then n else min n (64 - (x.ahead - x.moved))

/-- Commit the frames whose descriptors are complete, in order, as far as the tail buffer of their queue has room (R189, R266) (DEDUCED, log entry 32). -/
def commitFrames (m : Nat) : Nat → State → State
  | 0, s => s
  | n + 1, s =>
    match (getMac s m).frames with
    | [] => s
    | f :: rest =>
      if !f.complete then s
      else
        match f.accepted with
        | none => commitFrames m n (updMac m (fun x => { x with frames := rest }) s)
        | some (q, r) =>
          let cells := restCells m f r
          let k := (getQueue s q).room cells.length
          let s := commitCells q wrEport (cells.take k) s
          if k < cells.length then updMac m (fun x => { x with frames := { f with given := f.given + k } :: rest }) s
          else
            commitFrames m n (updMac m (fun x => { x with
              frames := rest, frees := (s.clk.tticks, f.bytes.length) :: x.frees.filter (fun e => decide (s.clk.tticks < e.1 + 1000000)) }) s)

/-- Let a MAC's complete frames go to their queues. -/
def settleFrames (m : Nat) (s : State) : State := commitFrames m (getMac s m).frames.length s

/-- Change a frame record. -/
def updFrame (m serial : Nat) (f : RxFrame → RxFrame) (s : State) : State :=
  updMac m (fun x => { x with frames := x.frames.map (fun r => if r.serial == serial then f r else r) }) s

/-- A frame record. -/
def findFrame (s : State) (m serial : Nat) : Option RxFrame := (getMac s m).frames.find? (fun f => f.serial == serial)

/-- A pause overlaps the interval from a tick to now (R283). -/
def pausedSince (s : State) (tick : Nat) : Bool :=
  s.canopy.paused || (match s.canopy.pausedAt with
    | some t => decide (tick ≤ t)
    | none => false)

/-- Protocol of the IP header at `l3`: 6 TCP, 17 UDP. -/
def ipProto (l3 : Nat) (b : List Byte) : Nat := if leAt b l3 1 / 16 == 6 then leAt b (l3 + 6) 1 else leAt b (l3 + 9) 1

/-! ### Field extractor (R275 to R278) -/

/-- Start of an anchor: none where it is invalid (R276). -/
def anchorOf (b : List Byte) (anchor : Nat) : Option Nat :=
  let tagged (i : Nat) : Bool := beAt b i 2 == 0x8100 || beAt b i 2 == 0x88A8
  let t := if tagged 12 then (if tagged 16 then 2 else 1) else 0
  let l3 := 14 + 4 * t
  let ety := beAt b (12 + 4 * t) 2
  let v4 := ety == 0x0800
  if anchor == 0 then some 0
  else if !(v4 || ety == 0x86DD) then none
  else if anchor == 1 then some l3
  else
    let proto := if v4 then leAt b (l3 + 9) 1 else leAt b (l3 + 6) 1
    let l4 := l3 + (if v4 then 4 * (leAt b l3 1 % 16) else 40)
    if !(proto == 6 || proto == 17) || (v4 && beAt b (l3 + 6) 2 % 8192 != 0) then none
    else if anchor == 2 then some l4
    else some (l4 + (if proto == 17 then 8 else 4 * (leAt b (l4 + 12) 1 / 16)))

/-- Bytes from which an anchor is known, or known to be invalid: the EtherType for L3; the protocol, the header length and
the fragment offset besides for L4; the TCP data offset for its payload (R276). -/
def anchorNeeds (b : List Byte) (anchor : Nat) : Nat :=
  let tagged (i : Nat) : Bool := beAt b i 2 == 0x8100 || beAt b i 2 == 0x88A8
  let ety := if b.length < 14 || !tagged 12 then 14 else if b.length < 18 || !tagged 16 then 18 else 22
  if anchor == 0 then 0
  else if anchor == 1 || b.length < ety then ety
  else
    match anchorOf b 1 with
    | none => ety
    | some l3 =>
      let proto := if beAt b (ety - 2) 2 == 0x0800 then l3 + 10 else l3 + 7
      if anchor == 2 || b.length < proto then proto
      else
        match anchorOf b 2 with
        | none => proto
        | some l4 => if ipProto l3 b == 17 then proto else l4 + 13

/-- State of a field: not complete, NaN, or the place of its first byte (R276, R278). -/
inductive FieldState where
  | waiting
  | nan
  | at_ (i : Nat)
  deriving DecidableEq, Repr

/-- State of a field on the bytes received so far; `ended` says that they are the whole frame. -/
def fieldState (b : List Byte) (ended : Bool) (f : ExtField) : FieldState :=
  if !ended && b.length < anchorNeeds b f.anchor && b.length < 512 then .waiting
  else
    match anchorOf b f.anchor with
    | none => .nan
    | some a =>
      let last := a + f.offset + f.len - 1
      if 511 < last then (if b.length < 512 && !ended then .waiting else .nan) else if last < b.length then .at_ (a + f.offset) else if ended then .nan else .waiting

/-- Feature of a field (R277). -/
def fieldValue (b : List Byte) (f : ExtField) : FieldState → W32
  | .at_ i =>
    let be := beAt b i f.len
    let le := leAt b i f.len
    let w := 8 * f.len
    BitVec.ofNat 32 (match f.ty with
      | 0 => round32 false be f.scale false
      | 1 => round32 (decide (signed w be < 0)) (signed w be).natAbs f.scale false
      | 2 => round32 false le f.scale false
      | 3 => round32 (decide (signed w le < 0)) (signed w le).natAbs f.scale false
      | 4 => if (fpDec 23 be).nan then nanCode 23 else be
      | _ => bf16To32 be)
  | _ => BitVec.ofNat 32 (nanCode 23)

/-- The unsigned value of the LENGTH_FIELD (R281). -/
def lengthOf (c : Extract) (b : List Byte) (ended : Bool) : Option Nat :=
  c.lengthField.bind (fun i => (c.fields[i]?).bind (fun f => match fieldState b ended f with
    | .at_ j => some (if f.ty == 2 then leAt b j f.len else beAt b j f.len)
    | _ => none))

/-- The record of the frame in progress at a MAC: the last one, while its verdict is open. -/
def openFrame (x : Mac) : Option RxFrame := x.frames.getLast?.bind (fun f => if f.verdict.isNone then some f else none)

/-- Count an accepted frame of a length (R262). -/
def countAccepted (m len : Nat) (s : State) : State := countMac m ctRxOctets len (countMac m ctRxOk 1 s)

/-- A frame that had been accepted is not: the frames behind it, none of which is committed, take the numbers before theirs (DEDUCED, log entry 32). -/
def unaccept (m serial seq : Nat) (s : State) : State :=
  let lower (n : Nat) : Nat := if seq < n then n - 1 else n
  updMac m (fun x => { x with
    rxSeq := lower x.rxSeq
    frames := x.frames.map (fun f => { f with accepted := if f.serial == serial then none else f.accepted.map (fun a => (a.1, lower a.2)) }) }) s

/-- No decision (R278): a frame that is accepted already goes to the no-decision queue where one is set, and is Overflow where
that lacks the cells (R265) (DEDUCED, log entry 32). -/
def noDecision (m : Nat) (f : RxFrame) (s : State) : State :=
  let s := countMac m ctNoDecision 1 (updFrame m f.serial (fun f => { f with noDecision := true, evaluated := false, awaits := false, entering := false }) s)
  match f.accepted with
  | none => s
  | some (q, r) =>
    let nd := if f.conf.cfg.ndValid then f.conf.cfg.ndQueue else q
    if nd == q || rxFits s nd f.bytes.length then
      countAccepted m f.bytes.length (updFrame m f.serial (fun f => { f with accepted := some (nd, r) }) s)
    else countMac m ctRxOverflow 1 (unaccept m f.serial r s)

/-- The sample of a frame is complete: it is written, or finds the queue full; in one cycle a lower MAC goes first (R278) (DEDUCED, log entry 32). -/
def enterSample (m : Nat) (b : List Byte) (ended : Bool) (f : RxFrame) (s : State) : State :=
  let c := f.conf.extract
  let first := c.first.getD 0
  let m' : Sample := { source := .frame m f.serial, features := c.fields.map (fun e => fieldValue b e (fieldState b ended e)) }
  let enter (s : State) : State := updFrame m f.serial (fun f => { f with evaluated := true, awaits := false, entering := true }) s
  match writeSample first m' s, takeSlot first m' s with
  | some s, _ => enter s
  | none, some (v, s) => enter (match findFrame s v.1 v.2 with
    | some g => noDecision v.1 g s
    | none => s)
  | none, none => noDecision m f s

/-- The cycle ends: the samples that entered in it keep their slots, and are counted (R278) (DEDUCED, log entry 32). -/
def settleSamples (m : Nat) (s : State) : State :=
  ((getMac s m).frames.filter (fun f => f.entering)).foldl (fun s f =>
    let s := countMac m ctEvaluated 1 (updFrame m f.serial (fun f => { f with entering := false }) s)
    if f.accepted.isSome then countAccepted m f.bytes.length s else s) s

/-- EXTRACT_SAMPLE_COMPLETE (R278): the bytes that have reached the parser, whether they are the whole frame, and the ticks
since word 0 reached it. A sample that a pause has held past its frame's verdict comes first (R283) (DEDUCED, log entry 32). -/
def extractComplete (m : Nat) (b : List Byte) (ended : Bool) (since : Nat) (s : State) : State :=
  let x := getMac s m
  if s.canopy.paused then s
  else
    match x.frames.find? (fun f => f.awaits) with
    | some f =>
      let length := lengthOf f.conf.extract f.bytes true
      settleFrames m (enterSample m f.bytes true f (updFrame m f.serial (fun f => { f with lengthValue := length }) s))
    | none =>
      let word0 := s.clk.tticks - since
      let c := x.confAt word0
      if (openFrame x).isSome || !evaluates c b || c.extract.fields.any (fun f => fieldState b ended f == .waiting) then s
      else
        let st := splitTime (rxStamp (m / 8) (macMode s m) since s)
        let f : RxFrame := { serial := x.nextFrame, word0 := word0, conf := c, bytes := b, sec := st.1, ns := st.2
                             lengthValue := lengthOf c.extract b ended }
        enterSample m b ended f (updMac m (fun x => { x with nextFrame := x.nextFrame + 1, frames := x.frames ++ [f] }) s)

/-! ### Verdict and acceptance (R262, R265) -/

/-- A frame passes its verdict, and the counter of the case it falls in (R262). -/
def verdictCase (c : MacConf) (b : List Byte) (codeError : Bool) : Bool × Option Nat :=
  let disabled := !c.cfg.enable || !c.cfg.rxValid
  let bad : Option Nat :=
    if codeError then some ctRxCode else if c.cfg.maxFrame < b.length then some ctRxGiant
    else if b.length < 64 then some ctRxRunt else if !fcsGood b then some ctRxFcs else none
  (bad.isNone,
   if disabled then some ctRxDisabled else match bad with
     | some i => some i
     | none => if beAt b 12 2 == 0x8808 then some ctRxPause else if !filterPasses c b then some ctRxFiltered else none)

/-- Bytes in a MAC's receive buffer. -/
def rxBuffered (x : Mac) : Nat := ((x.frames.filter (fun f => f.accepted.isSome)).map (fun f => f.bytes.length)).sum

/-- Bytes of a frame that had arrived by a tick (R265). -/
def arrivedBy (mode len word0 tick : Nat) : Nat := min len (8 + (tick - word0) * 100 / byteTime mode)

/-- The receive buffer has held a frame of a length whose word 0 came at a tick, at every moment until now (R265) (DEDUCED, log entry 32). -/
def rxHeld (s : State) (m len word0 : Nat) : Bool :=
  let x := getMac s m
  decide (rxBuffered x + len ≤ 16384) &&
    (x.frees.filter (fun e => decide (word0 < e.1))).all (fun e =>
      decide (rxBuffered x + arrivedBy (macMode s m) len word0 e.1
        + ((x.frees.filter (fun e' => decide (e.1 ≤ e'.1))).map (fun e' => e'.2)).sum ≤ 16384))

/-- Record the verdict in the frame's record, or a new one (R262, R265, R266). While its sample is open, the frame is counted
with the decision (DEDUCED, log entry 32). -/
def recordVerdict (m : Nat) (b : List Byte) (codeError : Bool) (since : Nat) (s : State) : Nat × Bool × State :=
  let x := getMac s m
  let word0 := s.clk.tticks - since
  let st := splitTime (rxStamp (m / 8) (macMode s m) since s)
  let f : RxFrame := match openFrame x with
    | some f => f
    | none => { serial := x.nextFrame, word0 := word0, conf := x.confAt word0, bytes := b, sec := st.1, ns := st.2 }
  let isNew := (openFrame x).isNone
  let v := verdictCase f.conf b codeError
  let q := if f.noDecision && f.conf.cfg.ndValid then f.conf.cfg.ndQueue else f.conf.cfg.rxQueue
  let fits := rxFits s q b.length && rxHeld s m b.length f.word0
  let f := { f with bytes := b, verdict := some v.1, awaits := isNew && evaluates f.conf b }
  let put (f : RxFrame) (s : State) : State :=
    if isNew then updMac m (fun x => { x with nextFrame := x.nextFrame + 1, frames := x.frames ++ [f] }) s
    else updFrame m f.serial (fun _ => f) s
  match v.2 with
  | some i => (f.serial, v.1, countMac m i 1 (put f s))
  | none =>
    if !fits then (f.serial, v.1, countMac m ctRxOverflow 1 (put f s))
    else
      let f := { f with accepted := some (q, x.rxSeq) }
      let s := updMac m (fun x => { x with rxSeq := (x.rxSeq + 1) % 2 ^ 32 }) (put f s)
      (f.serial, v.1, if f.awaits || f.entering then s else countAccepted m b.length s)

/-! ### Gate lists (R272, R273) -/

/-- The time in whole nanoseconds. -/
def nowNs (s : State) : Nat := s.time.total

/-- Entry of a list at a time in nanoseconds, with the time at which it ends. -/
def gateAt (g : GateList) (t : Nat) : Nat × Nat :=
  let pos := (t + g.cycle - g.base % g.cycle) % g.cycle
  let start := t - pos
  let rec go : List W32 → Nat → Nat → Nat × Nat
    | [], i, _ => (i - 1, start + g.cycle)
    | e :: es, i, acc =>
      let stop := acc + fldN e 8 24
      if pos < stop then (i, if es.isEmpty then start + g.cycle else start + min g.cycle stop) else go es (i + 1) stop
  go g.entries 0 0

/-- Gate states at a time: every gate open where no list is in force. -/
def gatesAt (g : Option GateList) (t : Nat) : Nat :=
  match g with
  | none => 0xFF
  | some g => fldN (g.entries.getD (gateAt g t).1 0) 0 8

/-- A gate is open from a time for a length, in hundredths of a nanosecond, within `n` entries (R273). -/
def openFor (g : GateList) (c : Nat) : Nat → Nat → Nat → Bool
  | 0, _, _ => false
  | n + 1, t, stop =>
    if stop ≤ t then true
    else if (gatesAt (some g) (t / 100)).testBit c then openFor g c n (100 * (gateAt g (t / 100)).2) stop
    else false

/-- A frame of class c and S bytes may start now (R273). -/
def fitsGate (s : State) (m c size : Nat) : Bool :=
  match (getMac s m).inForce with
  | none => true
  | some g =>
    let t := 100 * nowNs s
    openFor g c 1024 t (t + (size + 20) * byteTime (macMode s m))

/-- Intervals of a list's cycle: gate states and length, cut at the cycle's end (R272). -/
def gateSpans (g : GateList) : List (Nat × Nat) :=
  let rec go : List W32 → Nat → List (Nat × Nat)
    | [], _ => []
    | e :: es, acc =>
      let stop := if es.isEmpty then g.cycle else min g.cycle (acc + fldN e 8 24)
      (fldN e 0 8, stop - acc) :: go es stop
  go g.entries 0

/-- The longest open window of a class, in nanoseconds: none where it never closes (R270). -/
def longestOpen (g : GateList) (c : Nat) : Option Nat :=
  let spans := gateSpans g
  if spans.all (fun sp => sp.1.testBit c || sp.2 == 0) then none
  else
    some ((spans ++ spans).foldl (fun (acc : Nat × Nat) sp =>
      if sp.1.testBit c then (acc.1 + sp.2, max acc.2 (acc.1 + sp.2)) else if sp.2 == 0 then acc else (0, acc.2)) (0, 0)).2

/-- First cycle start at or after a time and the base time (R272). -/
def cycleStart (base cycle t : Nat) : Nat := if t ≤ base then base else base + ceilDiv (t - base) cycle * cycle

/-- GATE_LIST_TAKES_FORCE (R272). -/
def gateTakesForce (m : Nat) (s : State) : State :=
  match (getMac s m).pendingGates with
  | some g =>
    if g.takes ≤ nowNs s then
      updMac m (fun x => { x with inForce := some g, pendingGates := none, entry := (gateAt g (nowNs s)).1 }) s
    else s
  | none => s

/-- GATE_ENTRY_ADVANCE (R272): the entry that the list gives for the time. -/
def gateAdvance (m : Nat) (s : State) : State :=
  match (getMac s m).inForce with
  | some g => updMac m (fun x => { x with entry := (gateAt g (nowNs s)).1 }) s
  | none => s

/-! ### Rows of the table -/

/-- EXTRACT_SAMPLE_COMPLETE (R278). -/
def execExtractSampleComplete (mac : Nat) (bytes : List Byte) (ended : Bool) (since : Nat) (s : State) : Host.Outcome State Fault Refusal :=
  guardUnit (isMac mac) (if macPresent s mac then extractComplete mac bytes ended since s else s)

/-- GATE_LIST_TAKES_FORCE (R272). -/
def execGateListTakesForce (mac : Nat) (s : State) : Host.Outcome State Fault Refusal := guardUnit (isMac mac) (gateTakesForce mac s)

/-- GATE_ENTRY_ADVANCE (R272). -/
def execGateEntryAdvance (mac : Nat) (s : State) : Host.Outcome State Fault Refusal := guardUnit (isMac mac) (gateAdvance mac s)

end Sys2Proof.Machine
end

