-- ==== Sys2Proof/Machine/Reply.lean ====
section
/-! DEFINITION. The reply engine: selection, patches, checksums, starts, and the outcomes of a reply (R279 to R283). -/

namespace Sys2Proof.Machine

open Sys2Proof

/-! ### Checksums -/

/-- Fold a sum into 16 bits with end-around carry. -/
def fold16 (n : Nat) : Nat :=
  let a := n / 65536 + n % 65536
  let b := a / 65536 + a % 65536
  b / 65536 + b % 65536

/-- Sum of the big-endian 16-bit words of a string, padded with a zero byte. -/
def sum16 (b : List Byte) : Nat := ((chunks 2 (b.length + 1) b).map (fun c => beNat (padTo 2 c))).sum

/-- Internet checksum of a string whose checksum field is zero. -/
def checksum16 (b : List Byte) : Nat := 0xFFFF - fold16 (sum16 b)

/-- Adjust a checksum over bytes that changed, given as (odd position, old, new) (R279, R332). -/
def adjust16 (old : Nat) (changes : List (Bool × Nat × Nat)) : Nat :=
  let d := changes.foldl (fun a c =>
    let w (x : Nat) : Nat := if c.1 then x else 256 * x
    a + (0xFFFF - w c.2.1) + w c.2.2) 0
  if changes.isEmpty then old else 0xFFFF - fold16 ((0xFFFF - old) + d)

/-- Bytes at which two strings of one length differ, with their parity from an origin. -/
def byteChanges (origin : Nat) (a b : List Byte) : List (Bool × Nat × Nat) :=
  (List.range a.length).filterMap (fun i =>
    let x := byteAt a i
    let y := byteAt b i
    if x == y then none else some ((i + origin) % 2 == 1, x.toNat, y.toNat))

/-- The frame with the IPv4 header checksum at `l3` computed. -/
def ipv4Checksum (l3 : Nat) (b : List Byte) : List Byte :=
  let z := patchAt b (l3 + 10) [0, 0]
  patchAt z (l3 + 10) (beBytes 2 (checksum16 (slice z l3 (4 * (leAt z l3 1 % 16)))))

/-- Place of the checksum of the TCP or UDP header at `l4`. -/
def l4SumAt (proto l4 : Nat) : Nat := if proto == 17 then l4 + 6 else l4 + 16

/-! ### Selection and patches (R279, R280) -/

/-- The template that a SCORE selects: none for no reply. -/
def selectTemplate (c : ReplyCfg) (score : W32) : Option Nat :=
  if c.mode == 0 then none
  else
    let lt (a b : W32) : Bool := fpLt (fpDec 23 a.toNat) (fpDec 23 b.toNat)
    let t := if lt score c.low then c.templateLow else if lt score c.high then 0xFF else c.templateHigh
    if t == 0xFF then none else some t

/-- One patch (R279): none where it copies beyond the frame's end. -/
def applyPatch (f : RxFrame) (score sampleSeq seq : Nat) (p : W32) (b : List Byte) : Option (List Byte) :=
  let off := fldN p 0 9
  let arg := fldN p 16 16
  match fldN p 9 4 with
  | 1 => some (patchAt b off (beBytes 4 score))
  | 2 =>
    let n := arg / 512 % 64 + 1
    let from_ := arg % 512
    if f.bytes.length < from_ + n then none else some (patchAt b off (slice f.bytes from_ n))
  | 3 => some (patchAt b off (beBytes 4 seq))
  | 4 => some (patchAt b off (beBytes 6 f.sec.toNat ++ beBytes 4 f.ns.toNat))
  | 5 => some (patchAt b off (beBytes 2 sampleSeq))
  | _ => some b

/-- The frame of a template with its patches and checksums (R279) (DEDUCED, log entry 32). -/
def patchTemplate (t : Template) (f : RxFrame) (tok : W64) (seq : Nat) : Option (List Byte) :=
  let r := t.patches.foldl (fun (acc : Option (List Byte)) p => acc.bind (applyPatch f (fldN tok 0 32) (fldN tok 32 16) seq p)) (some t.bytes)
  r.map (fun b =>
    let b' := if t.l4Csum then
        let proto := ipProto t.l3 b
        let at_ := l4SumAt proto t.l4
        let v := adjust16 (beAt b at_ 2) (byteChanges t.l4 t.bytes b)
        patchAt b at_ (beBytes 2 (if v == 0 && proto == 17 then 0xFFFF else v))
      else b
    if t.ipv4Csum then ipv4Checksum t.l3 b' else b')

/-- A template as it was when a frame began (R284). -/
def EPort.templateAt (x : EPort) (t tick : Nat) : Template :=
  match (x.past.filter (fun e => e.2.1 == t && decide (tick ≤ e.1))).getLast? with
  | some e => e.2.2
  | none => Table.get {} x.templates t

/-- A result reaches the reply engine (R280): a selected reply is built, and a frame without one is finished (DEDUCED, log entry 32). -/
def takeResult (m serial : Nat) (tok : W64) (poison : Bool) (s : State) : State :=
  match findFrame s m serial with
  | none => s
  | some f =>
    let score : W32 := BitVec.ofNat 32 (fldN tok 0 32)
    let nan := poison || (fpDec 23 score.toNat).nan
    let pick := if nan then none else selectTemplate f.conf.reply score
    let ok := match pick with
      | some t => !((getEPort s (m / 8)).templateAt t f.word0).bytes.isEmpty
      | none => false
    let s := updFrame m serial (fun f => { f with result := some (tok, poison), replying := ok, lateResult := pausedSince s f.word0 }) s
    let s := if nan then countMac m ctReplyNan 1 s else s
    match pick, ok with
    | some t, true =>
      updMac m (fun x => { x with building := x.building ++ [{ serial := serial, template := t, ready := s.canopy.now + 64 }] }) s
    | _, _ =>
      let late := pausedSince s f.word0
      let s := if late then countMac m ctReplyLate 1 (updFrame m serial (fun f => { f with late := true }) s) else s
      settleFrames m s

/-- Every result waiting for the reply engines reaches its own. -/
def settleResults (s : State) : State :=
  s.arbor.toReply.foldl (fun s r => takeResult r.1 r.2.1 r.2.2.1 r.2.2.2 s) { s with arbor := { s.arbor with toReply := [] } }

/-! ### Pending replies (R280 to R282) -/

/-- A reply is over: flags of its frame's descriptor, and the counter of its case. -/
def endReply (m serial counter : Nat) (flag : RxFrame → RxFrame) (s : State) : State :=
  settleFrames m (countMac m counter 1 (updFrame m serial (fun f => { flag f with replying := false }) s))

/-- A reply that never starts: its frame is delayed by a pause up to its result only (R283). -/
def endUnsent (m serial counter : Nat) (flag : RxFrame → RxFrame) (s : State) : State :=
  let late := match findFrame s m serial with
    | some f => f.lateResult
    | none => false
  let s := if late then countMac m ctReplyLate 1 (updFrame m serial (fun f => { f with late := true }) s) else s
  endReply m serial counter flag s

/-- A reply that is not started under R282. -/
def suppress (m serial : Nat) (s : State) : State := endUnsent m serial ctReplySuppressed (fun f => { f with suppressed := true }) s

/-- Size of a reply with FCS. -/
def ReplyRec.size (r : ReplyRec) : Nat := r.bytes.length + 4

/-- Time now in hundredths of a nanosecond of TCLK ticks. -/
def now100 (s : State) : Nat := 100 * s.clk.tticks

/-- Period of a MAC's clock in hundredths of a nanosecond (R260) (DESIGN CHOICE, log entry 4). -/
def macPeriod (mode : Nat) : Nat := if mode == 4 || mode == 5 then 128 else 256

/-- SAFE allows the start (R281): at the predicted verdict less the time to the FCS, rounded up to an edge of the MAC clock,
and only after the verdict where no length is known. The edges fall at the multiples of the period (DESIGN CHOICE, log entry 4). -/
def safeStart (s : State) (m : Nat) (f : RxFrame) (r : ReplyRec) : Bool :=
  if f.conf.reply.mode != 2 then true
  else
    match f.lengthValue with
    | none => f.verdict.isSome
    | some v =>
      let lp := ((v : Int) + f.conf.extract.lengthAdd).toNat
      let b := byteTime (macMode s m)
      let k := max 1 s.clk.units
      let p := macPeriod (macMode s m)
      decide (p * ceilDiv ((100 * f.word0 + (ceilDiv lp 8 - 1) * 8 * b) * k + 8000 - (r.size - 4) * b * k) (p * k) ≤ now100 s)

/-- A pending reply may start but for the transmitter or its gate, and has not counted yet (R274). -/
def replyBlocked (s : State) (m : Nat) (r : ReplyRec) : Bool :=
  !r.waited && (decide (now100 s < (getMac s m).busyUntil) || !fitsGate s m r.tc r.size) && (match findFrame s m r.serial with
    | some f => safeStart s m f r
    | none => false)

/-- The replies that the transmitter or their gate holds count once each (R274) (DEDUCED, log entry 32). -/
def markBlocked (m : Nat) (s : State) : State :=
  let held := replyBlocked s m
  let n := ((getMac s m).replies.filter held).length
  if n == 0 then s
  else countMac m ctGateWait n (updMac m (fun x => { x with replies := x.replies.map (fun r => if held r then { r with waited := true } else r) }) s)

/-- REPLY_READY (R280, R282): 64 cycles after its result a selected reply is patched and enters the pending list. One that
copies bytes that may still come waits for its frame's end (DEDUCED, log entry 32). -/
def replyReady (m : Nat) (s : State) : State :=
  let x := getMac s m
  match x.building with
  | [] => s
  | r :: rest =>
    if s.canopy.paused || s.canopy.now < r.ready then s
    else
      let s := updMac m (fun x => { x with building := rest }) s
      match findFrame s m r.serial with
      | none => s
      | some f =>
        if 16 ≤ x.replies.length then endUnsent m r.serial ctReplyDropped id s
        else
          let t := (getEPort s (m / 8)).templateAt r.template f.word0
          match patchTemplate t f (f.result.getD (0, false)).1 x.replySeq with
          | none => if f.verdict.isNone then updMac m (fun x => { x with building := r :: rest }) s else suppress m r.serial s
          | some b =>
            if f.verdict == some false then suppress m r.serial s
            else
              let r := { r with bytes := b, tc := t.tc }
              markBlocked m (updMac m (fun x => { x with replies := x.replies ++ [r], replySeq := (x.replySeq + 1) % 2 ^ 32 }) s)

/-- The reply that may go next in its class: the first that is allowed to start (R274, R281). -/
def nextReply (s : State) (m c : Nat) : Option ReplyRec :=
  ((getMac s m).replies.filter (fun r => r.tc == c)).find? (fun r => match findFrame s m r.serial with
    | some f => safeStart s m f r
    | none => false)

/-- What the MAC chooses at a frame boundary: the highest class whose gate is open and whose next frame fits, a reply before
an item of its class (R274). -/
inductive TxChoice where
  | reply (r : ReplyRec)
  /-- The frame held for the queue of a class. -/
  | item (q : Nat) (f : TxFrame)
  | nothing
  deriving DecidableEq, Repr

/-- R274. -/
def chooseTx (s : State) (m : Nat) : TxChoice :=
  let x := getMac s m
  if now100 s < x.busyUntil then .nothing
  else
    (([7, 6, 5, 4, 3, 2, 1, 0] : List Nat).findSome? (fun c =>
      match nextReply s m c with
      | some r => if fitsGate s m c r.size then some (TxChoice.reply r) else none
      | none =>
        if !x.conf.cfg.enable then none
        else
          (([c, 0, 1, 2, 3, 4, 5, 6, 7] : List Nat).findSome? (fun j => match (Table.get {} x.classes j).frame with
            | some f => if f.tc == c then some (j, f) else none
            | none => none)).bind (fun jf => if fitsGate s m c (jf.2.bytes.length + 4) then some (TxChoice.item jf.1 jf.2) else none))).getD .nothing

/-- A frame of S bytes with FCS occupies the transmitter. -/
def occupyTx (m size : Nat) (s : State) : State :=
  updMac m (fun x => { x with busyUntil := now100 s + (size + 20) * byteTime (macMode s m) }) s

/-- REPLY_START (R274, R281, R282): the chosen reply starts. -/
def replyStart (m : Nat) (s : State) : State :=
  match chooseTx s m with
  | .reply r =>
    match findFrame s m r.serial with
    | none => s
    | some f =>
      let late := pausedSince s f.word0
      let s := if late then countMac m ctReplyLate 1 (updFrame m r.serial (fun f => { f with late := true }) s) else s
      let s := updMac m (fun x => { x with
        replies := x.replies.filter (fun y => y.serial != r.serial), inFlight := x.inFlight ++ [{ r with started := some (now100 s) }] }) s
      markBlocked m (occupyTx m r.size s)
  | _ => markBlocked m s

/-- A frame leaves: its bytes with FCS, and the counts of R267. The lasers are dark in a thermal stop (R369) (DESIGN CHOICE, log
entry 40; DEDUCED, log entry 25) (DEDUCED, log entry 25; DESIGN CHOICE, log entry 40). -/
def sendWire (m : Nat) (b : List Byte) (s : State) : State :=
  let s := if lasersLit s then updMac m (fun x => { x with wire := x.wire ++ [b] }) s else s
  countMac m ctTxOctets b.length (countMac m ctTxOk 1 s)

/-- The bytes of a reply with a valid or a stomped FCS (R281). -/
def replyWire (r : ReplyRec) (stomp : Bool) : List Byte :=
  r.bytes ++ (if stomp then (fcsOf r.bytes).map (fun b => ~~~b) else fcsOf r.bytes)

/-- REPLY_FCS_HANDOVER (R280 to R282): (R − 4) × B after its start. -/
def replyHandover (m : Nat) (s : State) : State :=
  match (getMac s m).inFlight.find? (fun r => !r.handed) with
  | none => s
  | some r =>
    if now100 s < r.started.getD 0 + (r.size - 4) * byteTime (macMode s m) then s
    else
      match findFrame s m r.serial with
      | none => s
      | some f =>
        let drop (s : State) : State := updMac m (fun x => { x with inFlight := x.inFlight.filter (fun y => y.serial != r.serial) }) s
        match f.verdict with
        | some false => endReply m r.serial ctReplyStomped (fun f => { f with stomped := true }) (drop (sendWire m (replyWire r true) s))
        | some true =>
          endReply m r.serial ctReplySent (fun f => { f with replied := true, template := r.template }) (drop (sendWire m (replyWire r false) s))
        | none =>
          if f.conf.reply.mode == 2 then
            endReply m r.serial ctReplyStomped (fun f => { f with stomped := true }) (drop (sendWire m (replyWire r true) s))
          else
            updMac m (fun x => { x with inFlight := x.inFlight.map (fun y => if y.serial == r.serial then { y with handed := true } else y) })
              (sendWire m (replyWire r false) s)

/-- The verdict on a frame, and what it means for its reply (R262, R266, R282). -/
def endFrame (m : Nat) (b : List Byte) (codeError : Bool) (since : Nat) (s : State) : State :=
  let r := recordVerdict m b codeError since s
  let serial := r.1
  let pass := r.2.1
  let s := r.2.2
  let x := getMac s m
  let s := if !pass && x.replies.any (fun y => y.serial == serial) then
      suppress m serial (updMac m (fun x => { x with replies := x.replies.filter (fun y => y.serial != serial) }) s)
    else s
  let s := match x.inFlight.find? (fun y => y.serial == serial && y.handed) with
    | some y =>
      let s := updMac m (fun x => { x with inFlight := x.inFlight.filter (fun z => z.serial != serial) }) s
      if pass then endReply m serial ctReplySent (fun f => { f with replied := true, template := y.template }) s
      else endReply m serial ctReplyUnretracted (fun f => { f with unretracted := true }) s
    | none => s
  markBlocked m (settleFrames m s)

/-- MAC_RX_VERDICT (R262, R266, R282): the whole frame, whether a block of it was in error, and the ticks since word 0 reached
the parser. While the link is down a frame ends as a code error; one that the loss of link has ended has its verdict (R261) (DEDUCED, log entry 32). -/
def rxVerdict (m : Nat) (b : List Byte) (codeError : Bool) (since : Nat) (s : State) : State :=
  let x := getMac s m
  if x.cutAt == some (s.clk.tticks - since) then s else endFrame m b (codeError || !x.linkUp) since s

/-- MAC_LINK_CHANGE (R261): the frame in progress when the link goes down ends as a code error. -/
def linkChange (m : Nat) (up : Bool) (s : State) : State :=
  if !macPresent s m || (getMac s m).linkUp == up then s
  else
    let s := postOwner (macOwner s m) 0x0009 (leBytes 1 0 ++ leBytes 1 m ++ leBytes 1 (b2n up)) (updMac m (fun x => { x with linkUp := up }) s)
    match openFrame (getMac s m) with
    | some f => if up then s else endFrame m f.bytes true (s.clk.tticks - f.word0) (updMac m (fun x => { x with cutAt := some f.word0 }) s)
    | none => s

/-! ### Rows of the table -/

/-- MAC_LINK_CHANGE (R261). -/
def execMacLinkChange (mac : Nat) (up : Bool) (s : State) : Host.Outcome State Fault Refusal := guardUnit (isMac mac) (linkChange mac up s)

/-- ARB_RESULT (R227): a result leaves to its endpoint, reply engine or command. -/
def execArbResult (first : Nat) (s : State) : Host.Outcome State Fault Refusal :=
  guardUnit (isEngine first) (settleResults (arbResult first s))

/-- MAC_RX_VERDICT (R262). -/
def execMacRxVerdict (mac : Nat) (bytes : List Byte) (codeError : Bool) (since : Nat) (s : State) : Host.Outcome State Fault Refusal :=
  guardUnit (isMac mac) (if macPresent s mac then rxVerdict mac bytes codeError since s else s)

/-- REPLY_READY (R280). -/
def execReplyReady (mac : Nat) (s : State) : Host.Outcome State Fault Refusal := guardUnit (isMac mac) (replyReady mac s)

/-- REPLY_START (R281). -/
def execReplyStart (mac : Nat) (s : State) : Host.Outcome State Fault Refusal := guardUnit (isMac mac) (replyStart mac s)

/-- REPLY_FCS_HANDOVER (R282). -/
def execReplyFcsHandover (mac : Nat) (s : State) : Host.Outcome State Fault Refusal := guardUnit (isMac mac) (replyHandover mac s)

end Sys2Proof.Machine
end

