-- ==== Sys2Proof/Machine/Transmit.lean ====
section
/-! DEFINITION. Transmission: items, segmentation, checksums, and the PTP changes of a frame that starts (R269 to R274, R328 to R332). -/

namespace Sys2Proof.Machine

open Sys2Proof

/-! ### PTP (R328 to R332) -/

/-- L3 start of R276, whatever the EtherType. -/
def l3Start (b : List Byte) : Nat :=
  let tagged (i : Nat) : Bool := beAt b i 2 == 0x8100 || beAt b i 2 == 0x88A8
  14 + 4 * (if tagged 12 then (if tagged 16 then 2 else 1) else 0)

/-- Start of the PTP header of a PTP frame, with the start of its UDP header if it has one (R328). -/
def ptpHeader (b : List Byte) : Option (Nat × Option Nat) :=
  let l3 := l3Start b
  let ety := beAt b (l3 - 2) 2
  if ety == 0x88F7 then some (l3, none)
  else
    match anchorOf b 2 with
    | none => none
    | some l4 =>
      let udp := ipProto l3 b == 17
      let whole := ety != 0x0800 || beAt b (l3 + 6) 2 % 0x4000 == 0
      let port := beAt b (l4 + 2) 2
      if udp && whole && (port == 319 || port == 320) then some (l4 + 8, some l4) else none

/-- A PTP event message: header start, UDP header start, messageType (R328). -/
def ptpEvent (b : List Byte) : Option (Nat × Option Nat × Nat) :=
  match ptpHeader b with
  | none => none
  | some (h, u) =>
    let ty := leAt b h 1 % 16
    let port := match u with
      | some l4 => beAt b (l4 + 2) 2 == 319
      | none => true
    if leAt b (h + 1) 1 % 16 == 2 && ty ≤ 3 && port then some (h, u, ty) else none

/-- Repair of the UDP checksum after a change (R332). -/
def repairUdp (udp : Option Nat) (old new : List Byte) : List Byte :=
  match udp with
  | none => new
  | some l4 =>
    let v6 := leAt old (l3Start old) 1 / 16 == 6
    let c := beAt old (l4 + 6) 2
    if c == 0 && !v6 then new
    else
      let v := adjust16 c (byteChanges l4 old new)
      patchAt new (l4 + 6) (beBytes 2 (if v == 0 then 0xFFFF else v))

/-- The largest correctionField. -/
def cfMax : Int := 0x7FFFFFFFFFFFFFFF

/-- PTP registers of a MAC. -/
def getPtp (s : State) (m : Nat) : PtpMac := Table.get {} s.time.macs m
def updPtp (m : Nat) (f : PtpMac → PtpMac) (s : State) : State := { s with time := { s.time with macs := Table.upd {} s.time.macs m f } }

/-- A change-log entry is preceded by a frame with RX_SEQ r on MAC m (R325). -/
def precedes (e : TimeChange) (m r : Nat) : Bool := decide ((Table.get 0 e.rxSeq m + 2 * 2 ^ 32 - r - 1) % 2 ^ 32 < 2 ^ 31)

/-- The transparent clock of R330 on a forwarded frame without FCS; `d` is its receive descriptor. -/
def transparentClock (m : Nat) (d b : List Byte) (s : State) : List Byte × State :=
  match ptpEvent b with
  | none => (b, s)
  | some (h, u, ty) =>
    let inMac := leAt d 1 1
    let r := leAt d 12 4
    let tx : Int := (txStamp (m / 8) (macMode s m) 0 s) / 2 ^ 32
    let rx : Int := ((leAt d 16 6 * nsPerSec + leAt d 22 4 % 2 ^ 30 : Nat) : Int)
    let res := s.time.log.foldl (fun a e => if precedes e inMac r then a - e.delta else a) (tx - rx)
    let asym (k : Nat) : Int := signed 32 (getPtp s k).asym.toNat
    let a := if ty == 0 || ty == 3 then asym inMac else -asym m
    let cf := signed 64 (beAt b (h + 8) 8)
    let cf' := cf + res * 65536 + a
    let oldest := s.time.log.getLast?
    let stale := (s.time.log.length == 8 && (match oldest with
      | some e => precedes e inMac r
      | none => false)) || decide (res < 0) || decide (1000000000 < res)
    if stale then (b, updPtp m (fun x => { x with stale := satAdd x.stale 1 }) s)
    else if cf == cfMax || cf' < -cfMax - 1 || cfMax < cf' then
      (repairUdp u b (patchAt b (h + 8) (beBytes 8 (unsigned 64 cfMax))), updPtp m (fun x => { x with saturated := satAdd x.saturated 1 }) s)
    else (repairUdp u b (patchAt b (h + 8) (beBytes 8 (unsigned 64 cf'))), updPtp m (fun x => { x with updated := satAdd x.updated 1 }) s)

/-- One-step Sync (R331). -/
def oneStepSync (m : Nat) (segment : Bool) (b : List Byte) (s : State) : List Byte × State :=
  let skip := (b, updPtp m (fun x => { x with oneStepSkipped := satAdd x.oneStepSkipped 1 }) s)
  match ptpEvent b with
  | none => skip
  | some (h, u, ty) =>
    if ty != 0 || leAt b (h + 6) 1 / 2 % 2 == 1 || segment then skip
    else
      let t := txStamp (m / 8) (macMode s m) 0 s
      let st := splitTime t
      let frac := (t % 2 ^ 32) / 65536
      let cf := signed 64 (beAt b (h + 8) 8)
      let cf' := if cf == cfMax || cfMax < cf + frac then cfMax else cf + frac
      let b' := patchAt (patchAt b (h + 34) (beBytes 6 st.1.toNat ++ beBytes 4 st.2.toNat)) (h + 8) (beBytes 8 (unsigned 64 cf'))
      (repairUdp u b b', updPtp m (fun x => { x with oneStepSent := satAdd x.oneStepSent 1 }) s)

/-! ### Items (R269 to R271) -/

/-- Fields of a transmit descriptor. -/
def descKind (d : List Byte) : Nat := leAt d 0 1
def descLen (d : List Byte) : Nat := if descKind d == 1 then leAt d 2 2 else leAt d 4 4
def descFlag (d : List Byte) (i : Nat) : Bool := (leAt d 1 1).testBit i
def descTc (d : List Byte) : Nat := if descKind d == 1 then leAt d 26 1 % 8 else leAt d 2 1 % 8
def descHeader (d : List Byte) : Nat := leAt d 10 1 + leAt d 11 1 + leAt d 12 1

/-- Data cells of an item. -/
def descCells (d : List Byte) : Nat := if descKind d ≤ 1 then ceilDiv (descLen d) 64 else 0

/-- A descriptor is bad by itself (R270): its kind, its zero bits, its LENGTH, or its queue's capacity (DEDUCED, log entry 32). -/
def descBad (q : Spill) (d : List Byte) : Bool :=
  let k := descKind d
  decide (1 < k) ||
    (if k == 1 then leAt d 22 4 / 2 ^ 30 != 0 || leAt d 26 1 / 8 != 0 || leAt d 27 1 / 2 != 0 || !allZero (slice d 28 36) || descLen d < 5
     else leAt d 1 1 / 32 != 0 || leAt d 2 1 / 8 != 0 || leAt d 3 1 != 0 || !allZero (slice d 13 51) || descLen d == 0 || 262144 < descLen d)
    || decide (q.capacity < 1 + descCells d)

/-- A SEGMENT send breaks R271, given its header bytes. -/
def segmentBad (maxFrame : Nat) (d hdr : List Byte) : Bool :=
  let l2 := leAt d 10 1
  let l4 := l2 + leAt d 11 1
  let h := descHeader d
  let v6 := descFlag d 3
  let flags := leAt hdr (l4 + 13) 1
  !(leAt hdr l2 1 / 16 == (if v6 then 6 else 4) && ipProto l2 hdr == 6) || descLen d ≤ h || leAt d 8 2 == 0
    || decide (maxFrame < h + leAt d 8 2 + 4) || flags.testBit 1 || flags.testBit 2 || flags.testBit 5

/-- Take up to `n` whole cells from a queue, as far as they are on die, releasing them as they are copied (R181, R189, R269). -/
def takeCells (q n : Nat) (s : State) : List SqWord × State :=
  if (getQueue s q).reader != rdEport || !readsNow s q then ([], s)
  else
    let r := readWords q (8 * n) s
    (r.1, updQueue q (fun x => (x.release (r.1.length / 8)).1) r.2)

/-- Bytes of words with their poison. -/
def wordBytes (ws : List SqWord) : List (Byte × Bool) := ws.flatMap (fun w => (w64Bytes w.v).map (fun b => (b, w.poison)))

/-- Change a class of a MAC. -/
def updClass (m c : Nat) (f : TxClass → TxClass) (s : State) : State :=
  updMac m (fun x => { x with classes := Table.upd {} x.classes c f }) s

/-- Release data cells of a refused item, as they are committed (R270). -/
def skipCells (m c q : Nat) (s : State) : State :=
  let r := takeCells q (Table.get {} (getMac s m).classes c).skip s
  updClass m c (fun k => { k with skip := k.skip - r.1.length / 8 }) r.2

/-- Nothing more of an item is sent: the rest of its cells are released. -/
def dropItem (m c q : Nat) (it : TxItem) (s : State) : State :=
  skipCells m c q (updClass m c (fun k => { k with item := none, skip := it.cells - it.readCells }) s)

/-- Read data cells until the item's buffer holds `n` bytes, as far as they are on die. -/
def fillItem (q n : Nat) (it : TxItem) (s : State) : TxItem × State :=
  let k := min (it.cells - it.readCells) (ceilDiv (n - it.buf.length) 64)
  let r := takeCells q k s
  ({ it with readCells := it.readCells + r.1.length / 8, buf := it.buf ++ wordBytes r.1 }, r.2)

/-- Sum of the pseudo-header of a TCP or UDP payload of `len` bytes. -/
def pseudoSum (v6 : Bool) (l3 proto len : Nat) (b : List Byte) : Nat :=
  if v6 then sum16 (slice b (l3 + 8) 32) + len / 65536 + len % 65536 + proto
  else sum16 (slice b (l3 + 12) 8) + proto + len

/-- The frame with its TCP or UDP checksum computed. -/
def l4Checksum (v6 : Bool) (l3 l4 proto : Nat) (b : List Byte) : List Byte :=
  let at_ := l4SumAt proto l4
  let z := patchAt b at_ [0, 0]
  let v := 0xFFFF - fold16 (sum16 (z.drop l4) + pseudoSum v6 l3 proto (b.length - l4) b)
  patchAt z at_ (beBytes 2 (if v == 0 && proto == 17 then 0xFFFF else v))

/-- Segment j of n: its header rewritten and checksums computed (R271). -/
def buildSegment (d hdr payload : List Byte) (j n : Nat) : List Byte :=
  let l2 := leAt d 10 1
  let l4 := l2 + leAt d 11 1
  let v6 := descFlag d 3
  let len := hdr.length - l2 + payload.length
  let b := hdr ++ payload
  let b := if v6 then patchAt b (l2 + 4) (beBytes 2 (len - 40))
    else patchAt (patchAt b (l2 + 2) (beBytes 2 len)) (l2 + 4) (beBytes 2 ((beAt hdr (l2 + 4) 2 + j) % 65536))
  let b := patchAt b (l4 + 4) (beBytes 4 ((beAt hdr (l4 + 4) 4 + j * leAt d 8 2) % 2 ^ 32))
  let fl := leAt hdr (l4 + 13) 1
  let fl := if j + 1 == n then fl else fl - fl % 2 - (if fl.testBit 3 then 8 else 0)
  let fl := if j == 0 then fl else fl % 128
  let b := patchAt b (l4 + 13) (beBytes 1 fl)
  l4Checksum v6 l2 l4 6 (if v6 then b else ipv4Checksum l2 b)

/-- CSUM of an item that is not segmented (R269). -/
def fillChecksums (d b : List Byte) : List Byte :=
  let l2 := leAt d 10 1
  let l4 := l2 + leAt d 11 1
  let v6 := descFlag d 3
  l4Checksum v6 l2 l4 (if leAt d 12 1 == 8 then 17 else 6) (if v6 then b else ipv4Checksum l2 b)

/-- Cases of R270 that end an item. -/
inductive ItemEnd where
  | runt | poisoned | neverFits
  deriving DecidableEq, Repr

/-- A SEGMENT send (R271). -/
def TxItem.isSegment (it : TxItem) : Bool := descKind it.desc == 0 && descFlag it.desc 2

/-- Bytes that the next frame or segment takes from its cells. -/
def TxItem.want (it : TxItem) : Nat :=
  let mss := leAt it.desc 8 2
  if it.isSegment then min mss (descLen it.desc - descHeader it.desc - it.copied * mss) else descLen it.desc

/-- A frame of a class and a size without FCS can be sent in some window of a gate list (R270). -/
def fitsEver (s : State) (m tc size : Nat) : Bool :=
  match (getMac s m).inForce with
  | some g => match longestOpen g tc with
    | some w => decide ((size + 24) * byteTime (macMode s m) ≤ 100 * w)
    | none => true
  | none => true

/-- The next frame or segment of an item whose bytes have been read enters the transmit buffer: the item, and the frame or why it ends. -/
def copyNext (m : Nat) (it : TxItem) (s : State) : TxItem × (ItemEnd ⊕ TxFrame) :=
  let d := it.desc
  let len := descLen d
  let seg := it.isSegment
  let want := it.want
  let part := it.buf.take want
  let bytes := part.map (·.1)
  let poison := part.any (·.2) || it.header.any (·.2)
  let body :=
    if seg then buildSegment d (it.header.map (·.1)) bytes it.copied it.segments
    else if descKind d == 1 then bytes.take (len - 4)
    else if descFlag d 1 then fillChecksums d bytes else bytes
  let pad := descKind d == 0 && descFlag d 0
  let short := decide (body.length + 4 < 64)
  let it := { it with buf := it.buf.drop want, copied := it.copied + 1 }
  let body' := if short && pad then padTo 60 body else body
  let tc := descTc d
  if short && !pad then (it, .inl .runt)
  else if poison then (it, .inl .poisoned)
  else if !fitsEver s m tc body'.length then (it, .inl .neverFits)
  else (it, .inr { bytes := body', tc := tc, padded := short, segment := seg, oneStep := descKind d == 0 && descFlag d 4
                   fwd := if descKind d == 1 then some d else none })

/-- Bytes in a MAC's transmit buffer. -/
def txBuffered (x : Mac) : Nat := (x.classes.map (fun kc => match kc.2.frame with
  | some f => f.bytes.length + 4
  | none => 0)).sum

/-- Put the next frame of a class's item, whose bytes have been read, into the buffer, or end the item (R270). -/
def sendNext (m c q : Nat) (it : TxItem) (s : State) : State :=
  let r := copyNext m it s
  let it := r.1
  match r.2 with
  | .inr f => updClass m c (fun k => { k with frame := some f, item := if it.copied < it.segments then some it else none }) s
  | .inl e =>
    let s := countMac m (match e with
      | .runt => ctTxRunt
      | .poisoned => ctTxPoison
      | .neverFits => ctTxGate) 1 s
    if e == .runt && it.copied < it.segments then updClass m c (fun k => { k with item := some it }) s
    else dropItem m c q it s

/-- Read on for an item: the header of a SEGMENT send first, then the bytes of its next frame. What is not on die yet is awaited (R269 to R271). -/
def advanceItem (m c q : Nat) (it : TxItem) (s : State) : State :=
  let d := it.desc
  let h := descHeader d
  let next (it : TxItem) (s : State) : State :=
    let r := fillItem q it.want it s
    if r.1.buf.length < it.want then updClass m c (fun k => { k with item := some r.1 }) r.2 else sendNext m c q r.1 r.2
  if it.isSegment && decide (descLen d ≤ h) then dropItem m c q it (countMac m ctTxBad 1 s)
  else if it.isSegment && it.header.isEmpty then
    let r := fillItem q h it s
    let hdr := r.1.buf.take h
    if hdr.length < h then updClass m c (fun k => { k with item := some r.1 }) r.2
    else if segmentBad (getMac s m).conf.cfg.maxFrame d (hdr.map (·.1)) then dropItem m c q r.1 (countMac m ctTxBad 1 r.2)
    else next { r.1 with header := hdr, buf := r.1.buf.drop h, segments := ceilDiv (descLen d - h) (leAt d 8 2) } r.2
  else next it s

/-- A frame in the buffer that a new gate list leaves no window for is not sent, nor the rest of its item (R270). -/
def dropUnfit (m c : Nat) (s : State) : State :=
  let x := getMac s m
  let k := Table.get {} x.classes c
  match k.frame with
  | some f =>
    if fitsEver s m f.tc f.bytes.length then s
    else
      let s := countMac m ctTxGate 1 (updClass m c (fun k => { k with frame := none }) s)
      match k.item with
      | some it => dropItem m c (fldN x.conf.cfg.txQueues (8 * c) 8) it s
      | none => s
  | none => s

/-- Every class of a MAC. -/
def dropUnfits (m : Nat) (s : State) : State := (List.range 8).foldl (fun s c => dropUnfit m c s) s

/-- TX_ITEM_READY (R269, R270): the next item of a class's queue is complete and is checked and copied, or the next segment
of the item being sent is copied. -/
def itemReady (m c : Nat) (s : State) : State :=
  let s := dropUnfit m c s
  let x := getMac s m
  let k := Table.get {} x.classes c
  let q := fldN x.conf.cfg.txQueues (8 * c) 8
  let sq := getQueue s q
  if !x.conf.cfg.enable || !x.conf.cfg.txValid.getLsbD c || k.frame.isSome || 16384 < txBuffered x + x.conf.cfg.maxFrame then s
  else if 0 < k.skip then skipCells m c q s
  else
    match k.item with
    | some it => advanceItem m c q it s
    | none =>
      match if sq.reader == rdEport && readsNow s q then sq.atRead else none with
      | none => s
      | some cell =>
        let d := (wordBytes cell.words).map (·.1)
        let cells := descCells d
        if descBad sq d then
          skipCells m c q (updClass m c (fun k => { k with skip := cells }) (countMac m ctTxBad 1 (takeCells q 1 s).2))
        else if sq.wr < sq.rd + 1 + cells then s
        else
          let s := (takeCells q 1 s).2
          let it : TxItem := { desc := d, cells := cells }
          if !it.isSegment && decide (x.conf.cfg.maxFrame < descLen d + (if descKind d == 1 then 0 else 4)) then
            dropItem m c q it (countMac m ctTxGiant 1 s)
          else advanceItem m c q it s

/-- TX_FRAME_START (R274, R330, R331): at a frame boundary the chosen frame starts. -/
def frameStart (m : Nat) (s : State) : State :=
  let s := dropUnfits m s
  match chooseTx s m with
  | .item c f =>
    let r : List Byte × State := match f.fwd with
      | some d => if (getPtp s m).tcEnable then transparentClock m d f.bytes s else (f.bytes, s)
      | none => if f.oneStep then oneStepSync m f.segment f.bytes s else (f.bytes, s)
    let s := updClass m c (fun k => { k with frame := none }) r.2
    let s := if f.padded then countMac m ctTxPadded 1 s else s
    let s := if f.segment then countMac m ctTxSegments 1 s else s
    markBlocked m (occupyTx m (r.1.length + 4) (sendWire m (r.1 ++ fcsOf r.1) s))
  | .reply _ => replyStart m s
  | .nothing => s

/-! ### Rows of the table -/

/-- TX_ITEM_READY (R270). -/
def execTxItemReady (mac cls : Nat) (s : State) : Host.Outcome State Fault Refusal :=
  guardUnit (isMac mac && decide (cls < 8)) (if macPresent s mac then itemReady mac cls s else s)

/-- TX_FRAME_START (R274). -/
def execTxFrameStart (mac : Nat) (s : State) : Host.Outcome State Fault Refusal :=
  guardUnit (isMac mac) (if macPresent s mac then frameStart mac s else s)

end Sys2Proof.Machine
end

