-- ==== Sys2Proof/Machine/EthCmds.lean ====
section
/-! DEFINITION. The port commands of R284 and the time commands of R333. -/

namespace Sys2Proof.Machine

open Sys2Proof

/-! ### Port commands -/

/-- The tests that come first: a MAC of the part, and its E-port's owner. -/
def withMac (f : Flight) (s : State) (k : Nat → State) : State :=
  let m := f.pkt.at_ 0 1
  if !isMac m then answer f stBadParam s
  else if foreign (macOwner s m) f.sess then answer f stDenied s
  else k m

/-- Change a MAC's configuration and answer OK (R284). -/
def setConf (f : Flight) (m : Nat) (g : MacConf → MacConf) (s : State) : State :=
  answerOk f (updMac m (reconfigure s.clk.tticks g) s)

/-- MAC_CONFIG. -/
def serveMacConfig (f : Flight) (s : State) : State :=
  withMac f s (fun m =>
    let p := f.pkt
    let fl (i : Nat) : Bool := p.bits 1 i 1 == 1
    let txMask : BitVec 8 := BitVec.ofNat 8 (p.at_ 7 1)
    let txs := ((List.range 8).filter (fun c => txMask.getLsbD c)).map (fun c => p.at_ (8 + c) 1)
    let rxs := (if fl 3 then [p.at_ 4 1] else []) ++ (if fl 4 then [p.at_ 5 1] else [])
    let all := rxs ++ txs
    if all.any (fun q => foreign (getQueue s q).owner f.sess) then answer f stDenied s
    else if !macPresent s m || p.at_ 2 2 < 1518 || 9600 < p.at_ 2 2
        || rxs.any (fun q => (getQueue s q).writer != wrEport) || txs.any (fun q => (getQueue s q).reader != rdEport)
        || all.eraseDups.length != all.length || ((getMac s m).conf.cfg.enable && fl 0) then answer f stBadParam s
    else
      let s := updMac m (fun x => { x with rxSeq := 0 }) s
      setConf f m (fun c => { c with cfg :=
        { enable := fl 0, promisc := fl 1, bcast := fl 2, rxValid := fl 3, ndValid := fl 4, maxFrame := p.at_ 2 2, rxQueue := p.at_ 4 1
          ndQueue := p.at_ 5 1, fwdTc := p.at_ 6 1 % 8, txValid := txMask, txQueues := BitVec.ofNat 64 (p.at_ 8 8) } }) s)

/-- MAC_FILTER. -/
def serveMacFilter (f : Flight) (s : State) : State :=
  withMac f s (fun m =>
    let i := f.pkt.at_ 1 1
    if 15 < i then answer f stBadParam s
    else
      let e : FilterEntry := { addr := f.pkt.bytes 2 6, valid := f.pkt.bits 8 0 1 == 1, eval := f.pkt.bits 8 1 1 == 1 }
      setConf f m (fun c => { c with filter := Table.set {} c.filter i e }) s)

/-- GATE_LIST_LOAD (R272). -/
def serveGateListLoad (f : Flight) (s : State) : State :=
  withMac f s (fun m =>
    let p := f.pkt
    let n := p.at_ 1 1 + 1
    let entries := bytesW32 p.payload
    let cycle := p.at_ 16 4
    let ns := p.at_ 12 4
    if p.payload.length != 4 * n || cycle < 1000 || 1000000000 < cycle || 1000000000 ≤ ns || entries.any (fun e => fldN e 8 24 == 0) then
      answer f stBadParam s
    else
      let base := p.at_ 6 6 * nsPerSec + ns
      let g : GateList := { cycle := cycle, base := base, entries := entries, takes := cycleStart base cycle (nowNs s + 1000) }
      answerOk f (updMac m (fun x => { x with pendingGates := some g }) s))

/-- A field of EXTRACT_CONFIG, none where it breaks R275. -/
def parseField (b : List Byte) : Option ExtField :=
  let w := leAt b 0 8
  let len := w / 2048 % 8 + 1
  let ty := w / 16384 % 16
  let scale := signed 8 (w / 2 ^ 18 % 256)
  if w / 2 ^ 26 != 0 || 5 < ty || (ty == 4 && len != 4) || (ty == 5 && len != 2) || (4 ≤ ty && scale != 0) then none
  else some { offset := w % 512, anchor := w / 512 % 4, len := len, ty := ty, scale := scale }

/-- EXTRACT_CONFIG. -/
def serveExtractConfig (f : Flight) (s : State) : State :=
  withMac f s (fun m =>
    let p := f.pkt
    let first := p.at_ 1 1
    let n := p.at_ 2 1
    let lf := p.at_ 3 1
    if first == 0xFF then setConf f m (fun c => { c with extract := {} }) s
    else
      let e := getEns s first
      if (List.range e.engines).any (fun i => foreign (getEngine s (first + i)).owner f.sess) then answer f stDenied s
      else
        let fs := (chunks 8 65 p.payload).map parseField
        let fields := fs.filterMap id
        let lfOk := lf == 0xFF || (match fields[lf]? with
          | some x => (x.ty == 0 || x.ty == 2) && x.scale == 0
          | none => false)
        if e.engines == 0 || n == 0 || 64 < n || e.features != n || p.payload.length != 8 * n || fs.any (·.isNone) || !lfOk
            || ensembleBound s first then answer f stBadParam s
        else
          setConf f m (fun c => { c with extract :=
            { first := some first, fields := fields, lengthField := if lf == 0xFF then none else some lf, lengthAdd := signed 16 (p.at_ 4 2) } }) s)

/-- MACs of an E-port that name a template while replying. -/
def templateInUse (s : State) (port t : Nat) : Bool :=
  (List.range 8).any (fun k =>
    let r := (getMac s (8 * port + k)).conf.reply
    r.mode != 0 && (r.templateLow == t || r.templateHigh == t))

/-- Bytes a patch writes (R279). -/
def patchSize (p : W32) : Nat := match fldN p 9 4 with | 1 => 4 | 2 => fldN p 16 16 / 512 % 64 + 1 | 3 => 4 | 4 => 10 | 5 => 2 | _ => 0

/-- TEMPLATE_LOAD (R279). -/
def serveTemplateLoad (f : Flight) (s : State) : State :=
  let port := f.pkt.at_ 0 1
  let t := f.pkt.at_ 1 1
  let b := f.pkt.payload
  let len := leAt b 0 2
  let n := leAt b 8 1
  let patches := (bytesW32 (slice b 9 32)).take n
  if 7 < port then answer f stBadParam s
  else if foreign (getEPort s port).owner f.sess then answer f stDenied s
  else if 63 < t || b.length < 41 || len < 60 || 512 < len || b.length != 41 + len || 7 < leAt b 2 1 || 3 < leAt b 3 1 || 8 < n
      || patches.any (fun p => patchSize p == 0 || decide (len < fldN p 0 9 + patchSize p) || fldN p 13 3 != 0) || templateInUse s port t then
    answer f stBadParam s
  else
    let v : Template := { tc := leAt b 2 1, ipv4Csum := leAt b 3 1 % 2 == 1, l4Csum := leAt b 3 1 / 2 % 2 == 1, l3 := leAt b 4 2, l4 := leAt b 6 2
                          patches := patches, bytes := slice b 41 len }
    let now := s.clk.tticks
    answerOk f (updEPort port (fun x => { x with
      templates := Table.set {} x.templates t v
      past := (now, t, Table.get {} x.templates t) :: x.past.filter (fun e => decide (now < e.1 + 1000000)) }) s)

/-- A template a REPLY_CONFIG may name: not too long, and its copies within the anchor-0 fields (R284). -/
def templateFits (x : MacConf) (t : Template) : Bool :=
  let last := (x.extract.fields.filter (fun f => f.anchor == 0)).foldl (fun a f => max a (f.offset + f.len)) 0
  decide (t.bytes.length ≤ x.cfg.maxFrame - 4) &&
    t.patches.all (fun p => fldN p 9 4 != 2 || decide (fldN p 16 9 + patchSize p ≤ last))

/-- REPLY_CONFIG. -/
def serveReplyConfig (f : Flight) (s : State) : State :=
  withMac f s (fun m =>
    let p := f.pkt
    let mode := p.at_ 1 1
    let low : W32 := BitVec.ofNat 32 (p.at_ 4 4)
    let high : W32 := BitVec.ofNat 32 (p.at_ 8 4)
    let names := [p.at_ 2 1, p.at_ 3 1].filter (fun t => t != 0xFF)
    let l := fpDec 23 low.toNat
    let h := fpDec 23 high.toNat
    if 2 < mode || names.any (fun t => decide (63 < t)) || l.nan || h.nan || fpLt h l
        || names.any (fun t => !templateFits (getMac s m).conf (Table.get {} (getEPort s (m / 8)).templates t)) then answer f stBadParam s
    else
      let s := updMac m (fun x => { x with replySeq := 0 }) s
      setConf f m (fun c => { c with reply := { mode := mode, templateLow := p.at_ 2 1, templateHigh := p.at_ 3 1, low := low, high := high } }) s)

/-- COUNTERS_READ (R267). -/
def serveCountersRead (f : Flight) (s : State) : State :=
  withMac f s (fun m =>
    if !macPresent s m then answer f stBadParam s
    else answerData f ((List.range 29).flatMap (fun i => leBytes 4 (Table.get 0 (getMac s m).counters i).toNat)) s)

/-! ### Time commands -/

/-- A command that acts on the timebase: refused when another session owns it, and claimed otherwise (R322). -/
def withTime (f : Flight) (s : State) (k : State → State) : State :=
  if foreign s.time.owner f.sess then answer f stDenied s
  else k { s with time := { s.time with owner := some (s.time.owner.getD f.sess) } }

/-- RX_SEQ of the next frame of each MAC (R325). -/
def rxSeqs (s : State) : Table Nat := (s.eth.macs.map (fun km => (km.1, km.2.rxSeq))).filter (fun kv => kv.2 != 0)

/-- Gate lists follow a new time (R272). -/
def regate (s : State) : State := (List.range 64).foldl (fun s m => gateAdvance m s) s

/-- TIME_READ: SEC, NS and FRAC at its apply tick. -/
def serveTimeRead (f : Flight) (s : State) : State :=
  let s := applyTick s
  answerResult f (leBytes 6 s.time.sec.toNat ++ leBytes 4 s.time.ns.toNat ++ leBytes 4 s.time.frac.toNat) s

/-- TIME_SET (R323, R324). -/
def serveTimeSet (f : Flight) (s : State) : State :=
  withTime f s (fun s =>
    let ns := f.pkt.at_ 6 4
    let r := timeChange (fun _ => ((f.pkt.at_ 0 6 * nsPerSec + ns : Nat) : Int)) true (decide (1000000000 ≤ ns)) (rxSeqs s) s
    answer f r.1 (regate r.2))

/-- TIME_STEP (R323, R324). -/
def serveTimeStep (f : Flight) (s : State) : State :=
  withTime f s (fun s =>
    let r := timeChange (fun n => (n : Int) + signed 64 (f.pkt.at_ 0 8)) false false (rxSeqs s) s
    answer f r.1 (regate r.2))

/-- TIME_ADJ_FREQ (R318). -/
def serveTimeAdjFreq (f : Flight) (s : State) : State :=
  withTime f s (fun s =>
    let v := f.pkt.at_ 0 5
    if v < 0x00FF000000 || 0x0100FFFFFF < v then answer f stBadParam s
    else answerOk f (applyRate (BitVec.ofNat 40 v) s))

/-- TIME_INVALIDATE (R324). -/
def serveTimeInvalidate (f : Flight) (s : State) : State :=
  withTime f s (fun s => answerOk f { s with time := { s.time with valid := false } })

/-- TIME_SOURCE (R319): the PLL relocks. -/
def serveTimeSource (f : Flight) (s : State) : State :=
  withTime f s (fun s =>
    let v := f.pkt.at_ 0 1
    if 1 < v then answer f stBadParam s
    else answerOk f { s with time := { s.time with tref := v == 1, pllLocked := false } })

/-- PTP_PORT_CONFIG (R329, R330, R333). -/
def servePtpPortConfig (f : Flight) (s : State) : State :=
  withMac f s (fun m =>
    if !macPresent s m then answer f stBadParam s
    else answerOk f (updPtp m (fun x => { x with tcEnable := f.pkt.bits 1 0 1 == 1, asym := BitVec.ofNat 32 (f.pkt.at_ 4 4) }) s))

/-- PPS_CONFIG (R321). -/
def servePpsConfig (f : Flight) (s : State) : State :=
  withTime f s (fun s =>
    let w := f.pkt.at_ 2 2
    if w == 0 || 500 < w then answer f stBadParam s else answerOk f (setPps (f.pkt.bits 0 0 1 == 1) w s))

end Sys2Proof.Machine
end

