-- ==== Sys2Proof/Machine/Coding.lean ====
section
/-! DEFINITION. Lane coding of the optical ports: 257-bit groups, the scrambler, RS(544,514) codewords and the period (R287 to R289, R296). -/

namespace Sys2Proof.Machine

open Sys2Proof

/-! ### Groups (R287, R289) -/

/-- What an ALIGN group says (R289). -/
structure AlignGroup where
  lane : Nat
  port : Nat
  /-- 0 TRAIN, 1 COUNTDOWN, 2 RUN, 3 SLEEP. -/
  mode : Nat
  countdown : Nat := 0xFF
  coord : BitVec 16 := 0xFFFF
  epoch : BitVec 8 := 0
  rxAligned : BitVec 9 := 0
  rxUp : BitVec 9 := 0
  txUse : BitVec 9 := 0
  rxEpoch : BitVec 8 := 0
  deriving DecidableEq, Repr

/-- A group from its four blocks; bit 0 is 1 for data (R287). -/
def groupOf (data : Bool) (blocks : List W64) : BitVec 257 :=
  BitVec.ofNat 257 (b2n data + 2 * leNat (blocks.flatMap w64Bytes))

/-- Block b of a group. -/
def groupBlock (g : BitVec 257) (b : Nat) : W64 := fld g (1 + 64 * b) 64

/-- MARKER (R289). -/
def alignMarker : W64 := 0x71_6C_D0_2E_93_5F_4B_A1

/-- The ALIGN group that says this (R289). -/
def AlignGroup.group (g : AlignGroup) : BitVec 257 :=
  let one := leBytes 1 0xA2 ++ leBytes 1 g.lane ++ leBytes 1 g.port ++ leBytes 1 g.mode ++ leBytes 1 g.countdown
    ++ leBytes 2 g.coord.toNat ++ leBytes 1 g.epoch.toNat
  let two := leBytes 1 0xA3 ++ leBytes 2 g.rxAligned.toNat ++ leBytes 2 g.rxUp.toNat ++ leBytes 2 g.txUse.toNat ++ leBytes 1 g.rxEpoch.toNat
  groupOf false [alignMarker, BitVec.ofNat 64 (leNat one), BitVec.ofNat 64 (leNat two), ~~~alignMarker]

/-- The 145 fixed bits of an ALIGN group: where they lie, and what they are (R289). -/
def alignMask : BitVec 257 := groupOf true [0xFFFFFFFFFFFFFFFF, 0xFF, 0xFF, 0xFFFFFFFFFFFFFFFF]
def alignFixed : BitVec 257 := groupOf false [alignMarker, 0xA2, 0xA3, ~~~alignMarker]

/-- A FILL group (R287). -/
def fillGroup : BitVec 257 := groupOf false (List.replicate 4 0xF0)

/-- What a group is (R287). -/
inductive GroupKind where
  /-- A data group with its 32 bytes. -/
  | data (bytes : List Byte)
  | fill
  | align (g : AlignGroup)
  | invalid
  deriving DecidableEq, Repr

/-- The kind of a group: an ALIGN group has all its fixed bits (R287, R289) (DEDUCED, log entry 34). -/
def readGroup (g : BitVec 257) : GroupKind :=
  if g.getLsbD 0 then .data ((List.range 4).flatMap (fun b => w64Bytes (groupBlock g b)))
  else if g == fillGroup then .fill
  else if g &&& alignMask == alignFixed then
    let one := groupBlock g 1
    let two := groupBlock g 2
    .align { lane := fldN one 8 8, port := fldN one 16 8, mode := fldN one 24 8, countdown := fldN one 32 8, coord := fld one 40 16
             epoch := fld one 56 8, rxAligned := fld two 8 9, rxUp := fld two 24 9, txUse := fld two 40 9, rxEpoch := fld two 56 8 }
  else .invalid

/-- Ones among the low `n` bits. -/
def ones (n : Nat) (x : BitVec 257) : Nat := (List.range n).foldl (fun c i => c + b2n (x.getLsbD i)) 0

/-- MATCHES of a test at an offset, on what the receiver takes in from its bit count 0 on (R296) (DEDUCED, log entry 34). -/
def alignMatches (bits : BitVec 2312) (o : Nat) : Nat :=
  ((List.range 8).filter (fun k => decide (ones 257 ((fld bits (o + 257 * k) 257 ^^^ alignFixed) &&& alignMask) ≤ 3))).length

/-! ### Scrambler (R288) -/

/-- Pass `32 * n` bits through the scrambler, or back; `h` holds the 58 scrambled bits before them, the oldest in bit 0. -/
def scrambleBits (back : Bool) : Nat → Nat → Nat → Nat × Nat
  | 0, h, _ => (0, h)
  | n + 1, h, d =>
    let x := d % 2 ^ 32
    let y := (x ^^^ (h >>> 19) ^^^ h) % 2 ^ 32
    let rest := scrambleBits back n ((h + (if back then x else y) * 2 ^ 58) / 2 ^ 32) (d / 2 ^ 32)
    (y + rest.1 * 2 ^ 32, rest.2)

/-- Scramble bits 256:1 of a group; the second part is the scrambler afterwards (PRESUMED, log entry 46). -/
def scrambleGroup (h : BitVec 58) (g : BitVec 257) : BitVec 257 × BitVec 58 :=
  let r := scrambleBits false 8 h.toNat (g.toNat / 2)
  (BitVec.ofNat 257 (b2n (g.getLsbD 0) + 2 * r.1), BitVec.ofNat 58 r.2)

/-- Undo the scrambling of a group that follows another. -/
def descrambleGroup (before g : BitVec 257) : BitVec 257 :=
  let r := scrambleBits true 8 (fldN before 199 58) (g.toNat / 2)
  BitVec.ofNat 257 (b2n (g.getLsbD 0) + 2 * r.1)

/-- Scramble groups in order. -/
def scrambleGroups (h : BitVec 58) : List (BitVec 257) → List (BitVec 257) × BitVec 58
  | [] => ([], h)
  | g :: gs =>
    let r := scrambleGroup h g
    let rest := scrambleGroups r.2 gs
    (r.1 :: rest.1, rest.2)

/-! ### RS(544,514) over 10-bit symbols (R288) (PRESUMED, log entry 46) -/

/-- Multiplication by α (PRESUMED, log entry 46). -/
def symDouble (a : Nat) : Nat := if 512 ≤ a then (2 * a) ^^^ 0x409 else 2 * a

/-- Product of two symbols. -/
def symMul (a b : Nat) : Nat :=
  ((List.range 10).foldl (fun (r : Nat × Nat) i => (if b.testBit i then r.1 ^^^ r.2 else r.1, symDouble r.2)) (0, a)).1

/-- Power of a symbol, by the low ten bits of the exponent. -/
def symPow (a n : Nat) : Nat :=
  ((List.range 10).foldl (fun (r : Nat × Nat) i => (if n.testBit i then symMul r.1 r.2 else r.1, symMul r.2 r.2)) (1, a)).1

/-- Inverse of a symbol. -/
def symInv (a : Nat) : Nat := symPow a 1022

/-- α^n. -/
def symAlpha (n : Nat) : Nat := symPow 2 (n % 1023)

/-- Value of a polynomial, lowest coefficient first. -/
def polyAt (p : List Nat) (x : Nat) : Nat := p.foldr (fun c r => symMul r x ^^^ c) 0

/-- The polynomial without its coefficient 1 of x^30, lowest first: the product of x − α^j for j from 0 to 29 (PRESUMED, log entry 46). -/
def rsGenerator : List Nat :=
  ((List.range 30).foldl (fun p j => ((0 :: p).zip (p.map (symMul (symAlpha j)) ++ [0])).map (fun ab => ab.1 ^^^ ab.2)) [1]).take 30

/-- Thirty symbols as one number, the lowest coefficient lowest (PRESUMED, log entry 46). -/
def packSymbols (p : List Nat) : Nat := p.foldr (fun c r => r * 1024 + c) 0

/-- Thirty packed symbols, each multiplied by α. -/
def packDouble (p : Nat) : Nat :=
  let hi := (p >>> 9) &&& packSymbols (List.replicate 30 1)
  ((p ^^^ (hi <<< 9)) <<< 1) ^^^ (hi * 9)

/-- The generator times α^0 to α^9, packed. -/
def rsMultiples : List Nat := (List.range 10).foldl (fun (r : List Nat × Nat) _ => (r.1 ++ [r.2], packDouble r.2)) ([], packSymbols rsGenerator) |>.1

/-- Remainder of the symbols of a message times x^30, the first symbol the highest coefficient; `m` holds them from bit 0 on. -/
def rsRemainder : Nat → Nat → Nat → Nat
  | 0, _, r => r
  | n + 1, m, r =>
    let f := (r >>> 290) ^^^ (m % 1024)
    let add := (rsMultiples.zipIdx).foldl (fun a gi => if f.testBit gi.2 then a ^^^ gi.1 else a) 0
    rsRemainder n (m / 1024) (((r <<< 10) % 2 ^ 300) ^^^ add)

/-- Thirty packed symbols in the other order. -/
def packReverse (p : Nat) : Nat := (List.range 30).foldl (fun a i => a * 1024 + (p >>> (10 * i)) % 1024) 0

/-- The codeword of 5,140 message bits: the parity symbols follow, the highest coefficient first (PRESUMED, log entry 46). -/
def laneEncode (m : Nat) : BitVec 5440 := BitVec.ofNat 5440 (m % 2 ^ 5140 + packReverse (rsRemainder 514 m 0) * 2 ^ 5140)

/-- State of the search for the error locator. -/
structure Locator where
  c : List Nat := [1]
  b : List Nat := [1]
  len : Nat := 0
  gap : Nat := 1
  last : Nat := 1

/-- Sum of two polynomials. -/
def polyAdd : List Nat → List Nat → List Nat
  | [], q => q
  | p, [] => p
  | a :: p, b :: q => (a ^^^ b) :: polyAdd p q

/-- One step of the search, with the syndromes up to number `n`. -/
def Locator.step (syn : List Nat) (x : Locator) (n : Nat) : Locator :=
  let d := (List.range (x.len + 1)).foldl (fun a i => if i ≤ n then a ^^^ symMul (x.c.getD i 0) (syn.getD (n - i) 0) else a) 0
  if d == 0 then { x with gap := x.gap + 1 }
  else
    let c := polyAdd x.c (List.replicate x.gap 0 ++ x.b.map (symMul (symMul d (symInv x.last))))
    if 2 * x.len ≤ n then { c := c, b := x.c, len := n + 1 - x.len, gap := 1, last := d } else { x with c := c, gap := x.gap + 1 }

/-- Errors of a word by coefficient, where there are at most 15: coefficient number and value. -/
def rsErrors (syn : List Nat) : Option (List (Nat × Nat)) :=
  let x := (List.range 30).foldl (Locator.step syn) {}
  let at_ := (List.range 544).filter (fun p => polyAt x.c (symAlpha (1023 - p)) == 0)
  if 15 < x.len || at_.length != x.len then none
  else
    let omega := (List.range 30).map (fun n => (List.range (n + 1)).foldl (fun a i => a ^^^ symMul (x.c.getD i 0) (syn.getD (n - i) 0)) 0)
    let slope := x.c.zipIdx.filterMap (fun ci => if ci.2 == 0 then none else some (if ci.2 % 2 == 1 then ci.1 else 0))
    some (at_.map (fun p =>
      let y := symAlpha (1023 - p)
      (p, symMul (symAlpha p) (symMul (polyAt omega y) (symInv (polyAt slope y))))))

/-- Decode a codeword: its 5,140 message bits and the number of symbols corrected, none where it is uncorrectable (PRESUMED, log entry 46). -/
def laneDecode (w : BitVec 5440) : Option (Nat × Nat) :=
  let m := w.toNat % 2 ^ 5140
  let r := rsRemainder 514 m 0 ^^^ packReverse (w.toNat / 2 ^ 5140)
  if r == 0 then some (m, 0)
  else
    let rem := (List.range 30).map (fun i => (r >>> (10 * i)) % 1024)
    match rsErrors ((List.range 30).map (fun j => polyAt rem (symAlpha j))) with
    | none => none
    | some es =>
      let fixed := es.foldl (fun v e => v ^^^ (e.2 <<< (10 * (543 - e.1)))) w.toNat
      let m' := fixed % 2 ^ 5140
      if rsRemainder 514 m' 0 == packReverse (fixed / 2 ^ 5140) then some (m', es.length) else none

/-- The message bits of 20 groups (R288). -/
def groupBits (gs : List (BitVec 257)) : Nat := gs.foldr (fun g r => r * 2 ^ 257 + g.toNat) 0

/-- Group `i` of a codeword's message bits. -/
def messageGroup (m i : Nat) : BitVec 257 := BitVec.ofNat 257 (m >>> (257 * i))

/-! ### Flits of a period (R288) -/

/-- The eight data groups of a flit. -/
def flitGroups (bytes : List Byte) : List (BitVec 257) := (chunks 32 9 bytes).map (fun b => groupOf true (bytesW64 b))

/-- What a flit slot of a period holds. -/
inductive SlotKind where
  | flit (bytes : List Byte)
  | fill
  /-- A codeword is uncorrectable, or the groups are of no flit. -/
  | bad
  deriving DecidableEq, Repr

/-- First codeword of a period that holds a group a flit slot needs: its own eight, and the one before them for the descrambler. -/
def slotWord (slot : Nat) : Nat := (7 + 8 * slot) / 20

/-- What flit slot `slot` of a period holds, from its codewords, of which `words` lists the messages from `slotWord slot` on (DEDUCED, log entry 34). -/
def readSlot (slot : Nat) (words : List (Option (Nat × Nat))) : SlotKind :=
  let group (i : Nat) : Option (BitVec 257) :=
    ((words.getD (i / 20 - slotWord slot) none)).map (fun m => messageGroup m.1 (i % 20))
  let raw := (List.range 9).map (fun i => group (7 + 8 * slot + i))
  if raw.any (·.isNone) then .bad
  else
    let gs := raw.filterMap id
    let kinds := (gs.zip (gs.drop 1)).map (fun ab => readGroup (descrambleGroup ab.1 ab.2))
    let bytes := kinds.filterMap (fun k => match k with | .data b => some b | _ => none)
    if kinds.all (fun k => k == .fill) then .fill
    else if bytes.length == 8 then .flit bytes.flatten
    else .bad

/-- The codewords of a slot that end in it: each codeword of a period ends in one slot. -/
def slotEnds (slot : Nat) (words : List (Option (Nat × Nat))) : List (Option (Nat × Nat)) :=
  (words.zipIdx.filter (fun wi => (20 * (slotWord slot + wi.2) + 19) / 8 == slot + 1)).map (fun wi => wi.1)

end Sys2Proof.Machine
end

