-- ==== Sys2Proof/Machine/Lanes.lean ====
section
/-! DEFINITION. Lanes and ports of the optical links: bring-up, figure of merit, alignment search, deep state and flush (R290 to R298, R302). -/

namespace Sys2Proof.Machine

open Sys2Proof

/-- An F-port, a lane, a reduction channel of the part. -/
def isPort (p : Nat) : Bool := decide (p < 40)
def isLane (l : Nat) : Bool := decide (l < 9)

/-- An F-port. -/
def getPort (s : State) (p : Nat) : FPort := Table.get {} s.fabric.ports p

/-- Changing an F-port. -/
def updPort (p : Nat) (f : FPort → FPort) (s : State) : State :=
  { s with fabric := { s.fabric with ports := Table.upd {} s.fabric.ports p f } }

/-- A lane. -/
def FPort.lane (x : FPort) (l : Nat) : Lane := Table.get {} x.lanes l
def FPort.updLane (x : FPort) (l : Nat) (f : Lane → Lane) : FPort := { x with lanes := Table.upd {} x.lanes l f }

/-- Add to a count of FPORT_COUNT. -/
def FPort.bump (x : FPort) (i n : Nat) : FPort := { x with counts := Table.upd 0 x.counts i (fun c => satAdd c n) }

/-- Role codes of R285. -/
def roleTorus : Nat := 1
def roleExtra : Nat := 2
def roleHost : Nat := 3

/-- Trunk direction of a port: 4d + i is member i of direction d (R285). -/
def portDir (s : State) (p : Nat) : Nat := if p < 32 then p / 4 else (getPort s p).direction

/-- PORT that an F-port expects of its peer (R291). -/
def expectedPeer (s : State) (p : Nat) : Nat :=
  let x := getPort s p
  if x.role == roleTorus then p ^^^ 4 else if x.role == roleExtra then 0x40 + (x.direction ^^^ 1) else 0xFE

/-- Codes of FPORT_STATUS. -/
def DirState.code : DirState → Nat
  | .down => 0 | .degraded => 1 | .up => 2

/-- State of a direction that has `n` lanes (R292). -/
def dirState (n : Nat) : DirState := if n == 0 then .down else if n < 8 then .degraded else .up

/-- Lanes carrying flits (R292). -/
def FPort.useMask (x : FPort) : BitVec 9 :=
  let ok (l : Nat) : Bool := (x.lane l).tx == .run && x.peerUp.getLsbD l
  let base := (List.range 8).filter ok
  let all := if base.length < 8 && ok 8 then base ++ [8] else base
  all.foldl (fun m l => m ||| (1#9 <<< l)) 0

/-- Lanes of the peer's TX_USE that are UP here (R292). -/
def FPort.rxLanes (x : FPort) : Nat := ((List.range 9).filter (fun l => x.rxUse.getLsbD l && (x.lane l).rx == .up)).length

/-- Number of lanes in a mask. -/
def lanesIn (m : BitVec 9) : Nat := ((List.range 9).filter (fun l => m.getLsbD l)).length

/-- DATA of a LINK_STATE event of an F-port (R339). -/
def portStateData (p : Nat) (x : FPort) : List Byte :=
  leBytes 1 1 ++ leBytes 1 p ++ leBytes 1 x.txState.code ++ leBytes 1 x.rxState.code
    ++ leBytes 2 x.txUse.toNat ++ leBytes 2 x.rxUse.toNat

/-- FPORT_POWER commands in flight for a port. -/
def powerFlights (s : State) (p : Nat) : List Flight :=
  s.host.flights.filter (fun f => f.op == .fportPower && f.pkt.at_ 0 1 == p && f.phase == .active)

/-- Work out the states of a port's directions again; a change sends one LINK_STATE event, and a port that is UP answers
the FPORT_POWER that wakes it (R292, R314). -/
def settlePort (p : Nat) (s : State) : State :=
  let x := getPort s p
  let m := x.useMask
  let t := dirState (lanesIn m)
  let r := dirState x.rxLanes
  let now := s.clk.tticks
  let since (old new : DirState) (d : Option Nat) : Option Nat :=
    if new == .down then (if old == .down then d else some now) else none
  let y := { x with txUse := m, txState := t, rxState := r, txDown := since x.txState t x.txDown, rxDown := since x.rxState r x.rxDown }
  let s := updPort p (fun _ => y) s
  let s := if t == x.txState && r == x.rxState then s else postOwner x.owner 0x0009 (portStateData p y) s
  if t == .up && r == .up then
    (powerFlights s p).foldl (fun s f => if f.pkt.at_ 1 1 == 0 then answerOk f s else s) s
  else s

/-- TRAIN, or no light (R290, R369) (DEDUCED, log entry 25). -/
def startTx (lit : Bool) : LaneTx := if lit then .train else .off

/-- A lane takes no part in a search any more: a test of it ends without a result (R296) (DEDUCED, log entry 34). -/
def Lane.leaveSearch (k : Lane) : Lane := { k with slipBusy := false, slipDone := k.slipDone || k.slipBusy, hunt := .out }

/-- The lanes of a waking port: transmit lanes enter TRAIN and receive lanes ACQUIRE (R290, R298). -/
def FPort.wakeLanes (lit : Bool) (x : FPort) : FPort :=
  (List.range 9).foldl (fun x l => x.updLane l (fun k =>
    { k.leaveSearch with tx := startTx lit, rx := if k.failed then .off else .acquire, good := 0, lowSince := none
                         counted := false, sleepFrom := none, sleepBy := none, miswired := false, marginal := false })) x

/-- Wake a port (R298). -/
def wakePort (p : Nat) (s : State) : State :=
  settlePort p (updPort p (fun x => ({ x with power := .active, txAsleep := false, rxAsleep := false, lastAlign := s.clk.tticks } : FPort).wakeLanes (lasersLit s)) s)

/-- The transmit side of the flush of R302: the retry buffer and every queued packet go, and EPOCH moves on. -/
def flushPort (p : Nat) (s : State) : State :=
  updPort p (fun x =>
    ({ x with queue := [], retry := [], oldest := 0, epoch := x.epoch + 1, awaitEcho := true, sentOn := [], credit := []
              nakSeen := none, replay := none } : FPort).bump 5 (x.queue.length + x.retry.length)) s

/-- A lane falls back to ACQUIRE, or is retired after 8 cases within 1 s (R291). -/
def dropLane (now : Nat) (k : Lane) : Lane :=
  let recent := (now :: k.losses).filter (fun t => decide (now < t + 1000000000))
  let k := { k with losses := recent.take 8, good := 0, lowSince := none, counted := false, marginal := false }.leaveSearch
  if 8 ≤ recent.length then { k with failed := true, rx := .off } else { k with rx := .acquire }

/-- Codes of LANE_STATUS. -/
def LaneTx.code : LaneTx → Nat
  | .off => 0 | .train => 1 | .countdown => 2 | .run => 3 | .sleep => 4
def LaneRx.code : LaneRx → Nat
  | .off => 0 | .acquire => 1 | .search => 2 | .aligned => 3 | .up => 4 | .sleep => 5

/-- Feedback moves the transmit lanes: Peer lost and Peer aligned of R290. -/
def FPort.feedback (now : Nat) (x : FPort) : FPort :=
  (List.range 9).foldl (fun x l => x.updLane l (fun k =>
    let al := x.peerAligned.getLsbD l
    match k.tx with
    | .train => if al then { k with tx := .countdown, txAt := now } else k
    | .countdown | .run => if al then k else { k with tx := .train }
    | _ => k)) x

/-- A receive lane's own cases on an ALIGN group: Miswired and Framed of R291, and MODE SLEEP of R297. -/
def laneReceive (now want l : Nat) (g : AlignGroup) (clean : Bool) (k : Lane) : Lane :=
  let k := if k.rx == .aligned then { k with miswired := g.lane != l || g.port != want } else k
  let k :=
    if g.mode == 1 && g.countdown == 0 then { k with counted := true }
    else if g.mode == 2 && k.rx == .aligned && k.counted then
      if clean && !k.miswired then { k with rx := .up, counted := false, marginal := decide (k.fom < 64) }
      else { k with counted := k.counted && k.miswired && clean }
    else k
  { k with sleepFrom := if g.mode == 3 then some (k.sleepFrom.getD now) else none }

/-- Ticks of two periods (R288). -/
def twoPeriods : Nat := 3277

/-- A direction is asleep when its lanes are; both make the port DEEP (R297). -/
def FPort.settleSleep (x : FPort) : FPort :=
  let sent := (List.range 9).all (fun l => (x.lane l).tx == LaneTx.sleep) && x.power == PortPower.entering
  let x := { x with txAsleep := x.txAsleep || sent }
  let asleep := (List.range 9).all (fun l => (x.lane l).rx == .sleep || (x.lane l).rx == .off)
    && (List.range 9).any (fun l => (x.lane l).rx == .sleep)
  let x := { x with rxAsleep := asleep }
  if x.txAsleep && asleep then { x with power := .deep } else x

/-- The group that a lane has received, `rest` being the other bits of the codeword that it starts; and whether it stands at group 0
of a codeword without an uncorrectable error (R288, R291). -/
def alignOf (group : BitVec 257) (rest : Option (BitVec 5183)) : GroupKind × Bool :=
  match rest.bind (fun r => laneDecode (r ++ group)) with
  | some m => (readGroup (messageGroup m.1 0), true)
  | none => (readGroup group, false)

/-- An ALIGN group that a lane has received (R289 to R292, R302): `clean` says that it stands at group 0 of the period's first
codeword, which decodes without an uncorrectable error (DESIGN CHOICE, log entry 8). -/
def alignReceive (p l : Nat) (g : AlignGroup) (clean : Bool) (s : State) : State :=
  let x := getPort s p
  let k := x.lane l
  if x.role == 0 || x.power == .deep || !(k.rx == .aligned || k.rx == .up) then s
  else
    let want := expectedPeer s p
    settlePort p (updPort p (fun x =>
      let x := x.updLane l (laneReceive s.clk.tticks want l g clean)
      let x := { x with lastAlign := s.clk.tticks, rxUse := g.txUse, peerAligned := g.rxAligned, peerUp := g.rxUp }
      let x := (x.feedback s.clk.tticks).settleSleep
      let x := if g.epoch != x.peerEpoch then
          { x with peerEpoch := g.epoch, reorder := [], rxBuf := [], expected := 0, nakSent := none, nakDue := false, laneSeq := [], freed := [] }
        else x
      if x.awaitEcho && g.rxEpoch == x.epoch then { x with awaitEcho := false, sentOn := [], credit := [] } else x) s)

/-- A codeword without an ALIGN group at its start, or with an uncorrectable error: a lane that waits for its first codeword is
not Framed by a later one (R291) (DEDUCED, log entry 34). -/
def missFrame (p l : Nat) (s : State) : State :=
  if ((getPort s p).lane l).rx == .aligned then updPort p (fun x => x.updLane l (fun k => { k with counted := false })) s else s

/-- ALIGN groups that a lane in TRAIN or COUNTDOWN has begun in a number of ticks, one in 1.2094 ns (R288) (DEDUCED, log entry 34). -/
def groupsIn (ticks : Nat) : Nat := ticks * 2125 / 2570

/-- TX_COUNTDOWN_END (R290): the sixteenth ALIGN group has been sent and the lane enters RUN (DEDUCED, log entry 34). -/
def countdownEnd (p l : Nat) (s : State) : State :=
  let k := (getPort s p).lane l
  if k.tx == .countdown && decide (16 ≤ groupsIn (s.clk.tticks - k.txAt)) then
    settlePort p (updPort p (fun x => x.updLane l (fun k => { k with tx := .run, txAt := s.clk.tticks, slots := 0, word := [], lastWord := [], flit := none })) s)
  else s

/-- TX_DEAF_TIMEOUT (R290): no receive lane has received an ALIGN group for 100 µs. -/
def deafTimeout (p : Nat) (s : State) : State :=
  if (getPort s p).lastAlign + 100000 ≤ s.clk.tticks then
    settlePort p (updPort p (fun x => (List.range 9).foldl (fun x l => x.updLane l (fun k =>
      if k.tx == .countdown || k.tx == .run then { k with tx := .train } else k)) x) s)
  else s

/-- FOM_WINDOW (R291, R295): a window ends with this figure of merit (DESIGN CHOICE, log entry 41). -/
def fomWindow (p l fom : Nat) (s : State) : State :=
  let fom := min 255 fom
  let x := getPort s p
  if (x.lane l).rx == .off || (x.lane l).rx == .sleep then s
  else
    updPort p (fun x => x.updLane l (fun k =>
      let k := { k with fom := fom, marginal := k.rx == .up && decide (fom < 64)
                        lowSince := if fom < 48 then (match k.lowSince with | some t => some t | none => some s.clk.tticks) else none }
      if k.rx == .acquire then
        if 96 ≤ fom then (if 4 ≤ k.good + 1 then { k with rx := .search, good := 0, hunt := .out } else { k with good := k.good + 1 })
        else { k with good := 0 }
      else k)) s

/-- LANE_LOST (R291): `cause` 0 FOM below 48 for 100 µs, 1 no ALIGN group at group 0 in two consecutive periods,
2 eight uncorrectable codewords in one period. -/
def laneLost (p l cause : Nat) (s : State) : State :=
  let k := (getPort s p).lane l
  let low := match k.lowSince with
    | some t => decide (t + 100000 ≤ s.clk.tticks)
    | none => false
  if (k.rx == .aligned || k.rx == .up) && (cause != 0 || low) then
    settlePort p (updPort p (fun x => (x.updLane l (dropLane s.clk.tticks)).bump 6 1) s)
  else s

/-- Lanes of a port that take part in its search (R296). -/
def FPort.searchers (x : FPort) : List Nat := (List.range 9).filter (fun l => (x.lane l).rx == .search && (x.lane l).hunt != .out)

/-- A search begins at offset 0, on all lanes that are in SEARCH, where none is in progress (R296). -/
def FPort.beginSearch (x : FPort) : FPort :=
  if x.searchAt.isSome && !x.searchers.isEmpty then x
  else
    ({ (List.range 9).foldl (fun x l => x.updLane l (fun k => { k with hunt := if k.rx == .search then .todo else .out })) x with
      searchAt := some 0 } : FPort)

/-- A test of a lane begins at the search's offset. -/
def Lane.test (o : Nat) (next : Hunt) (k : Lane) : Lane := { k with slipOffset := o, slipBusy := true, slipDone := false, hunt := next }

/-- LANE_SLIP_GO (R296): firmware starts a lane's next test of the search. Tests are repeated, in ascending lane order, once every
lane's first test at the offset has ended (DEDUCED, log entry 34). -/
def FPort.slipGo (l : Nat) (x : FPort) : FPort :=
  let x := x.beginSearch
  match x.searchAt with
  | none => x
  | some o =>
    match (x.lane l).hunt with
    | .todo => x.updLane l (Lane.test o .testing)
    | .again =>
      if x.searchers.all (fun j => (x.lane j).hunt != .todo && (x.lane j).hunt != .testing
          && !(j < l && ((x.lane j).hunt == .again || (x.lane j).hunt == .retesting))) then
        x.updLane l (Lane.test o .retesting)
      else x
    | _ => x

/-- LANE_SLIP_GO (R296): GO acts only on a lane in SEARCH, at the offset that the search tests (DEDUCED, log entry 34). -/
def slipGo (p l offset : Nat) (s : State) : State :=
  let x := getPort s p
  if (x.lane l).rx == .search && x.beginSearch.searchAt == some offset then updPort p (fun x => x.slipGo l) s else s

/-- The search goes on to the next offset once no lane waits for a test; after offset 256 it has failed for those that are left (R291, R296) (DEDUCED, log entry 34). -/
def FPort.nextOffset (now : Nat) (x : FPort) : FPort :=
  let left := x.searchers
  match x.searchAt with
  | none => x
  | some o =>
    if left.isEmpty then { x with searchAt := none }
    else if !left.all (fun l => (x.lane l).hunt == .tried) then x
    else if o < 256 then { left.foldl (fun x l => x.updLane l (fun k => { k with hunt := .todo })) x with searchAt := some (o + 1) }
    else { left.foldl (fun x l => x.updLane l (dropLane now)) x with searchAt := none }

/-- LANE_SLIP_TEST_DONE (R296): the test in progress ends, on what the receiver took in; a second test with at least 6 positions at
one offset locks the lane (DEDUCED, log entry 34; DESIGN CHOICE, log entry 8). -/
def slipDone (p l : Nat) (bits : BitVec 2312) (s : State) : State :=
  let k := (getPort s p).lane l
  if !k.slipBusy then s
  else
    let found := alignMatches bits k.slipOffset
    settlePort p (updPort p (fun x => (x.updLane l (fun k =>
      let k := { k with slipBusy := false, slipDone := true, slipFound := found }
      if k.rx != .search then k
      else if found < 6 then { k with hunt := .tried }
      else if k.hunt == .retesting then { k with rx := .aligned, offset := k.slipOffset, hunt := .out, counted := false }
      else { k with hunt := .again })).nextOffset s.clk.tticks) s)

/-- PORT_DOWN_FLUSH (R302): a direction has been DOWN for 10 ms. -/
def downFlush (p : Nat) (s : State) : State :=
  let x := getPort s p
  let late (d : Option Nat) : Bool := match d with
    | some t => decide (t + 10000000 ≤ s.clk.tticks)
    | none => false
  if late x.txDown || late x.rxDown then
    updPort p (fun x => { x with txDown := if late x.txDown then none else x.txDown, rxDown := if late x.rxDown then none else x.rxDown })
      (flushPort p s)
  else s

/-- Tick at which a transmit lane that sends MODE SLEEP from now on stops: in RUN after the two periods that follow the present one,
else after as long; a dark lane at once (R297) (DEDUCED, log entry 34). -/
def Lane.stopsAt (now : Nat) (k : Lane) : Nat :=
  match k.tx with
  | .run => k.txAt + ceilDiv ((ceilDiv k.slots 160 * 160 + 320) * 1024) 100
  | .train | .countdown => now + twoPeriods
  | _ => now

/-- A lane goes to sleep: the transmit lane after its two periods, the receive lane after MODE SLEEP and the period after it (R297) (DEDUCED, log entry 34). -/
def Lane.rest (now : Nat) (k : Lane) : Lane :=
  let k := if k.sleepBy.any (fun t => decide (t ≤ now)) then { k with tx := .sleep, sleepBy := none } else k
  if k.sleepFrom.any (fun t => decide (t + twoPeriods ≤ now)) then { k with rx := .sleep, sleepFrom := none } else k

/-- The lanes of a port whose time has come go to sleep. Once all its transmit lanes have, the FPORT_POWER that asked for it replies (R297, R314) (DESIGN CHOICE, log entry 1). -/
def restPort (p : Nat) (s : State) : State :=
  let now := s.clk.tticks
  let x := getPort s p
  let y := ((List.range 9).foldl (fun x l => x.updLane l (Lane.rest now)) x).settleSleep
  if (List.range 9).all (fun l => (x.lane l).rest now == x.lane l) then s
  else
    let s := settlePort p (updPort p (fun _ => y) s)
    if x.txAsleep || !y.txAsleep then s
    else (powerFlights s p).foldl (fun s f =>
      if f.pkt.at_ 1 1 == 1 then complete f.id { status := stOk, isPartial := !y.rxAsleep } s else s) s

/-- DEEP_DRAIN_DONE (R297): queued packets are sent and the retry buffer is empty; the transmit lanes send MODE SLEEP, and then stop (DEDUCED, log entry 34). -/
def drainDone (p : Nat) (s : State) : State :=
  let x := getPort s p
  if x.power == .entering && !x.txAsleep && x.queue.isEmpty && x.retry.isEmpty && (List.range 9).all (fun l => (x.lane l).sleepBy.isNone) then
    restPort p (updPort p (fun x => (List.range 9).foldl (fun x l => x.updLane l (fun k => { k with sleepBy := some (k.stopsAt s.clk.tticks) })) x) s)
  else s

/-- DEEP_DRAIN_TIMEOUT (R297): 1 ms after the command the retry buffer has not emptied, and it is discarded. -/
def drainTimeout (p : Nat) (s : State) : State :=
  let x := getPort s p
  if x.power == .entering && !x.txAsleep && decide (x.entered + 1000000 ≤ s.clk.tticks)
      && !(x.queue.isEmpty && x.retry.isEmpty) then flushPort p s else s

/-- ACTIVITY_WAKE (R298) (DEDUCED, log entry 34). -/
def activityWake (p : Nat) (s : State) : State := if (getPort s p).power == .deep then wakePort p s else s

/-! ### Rows of the table -/

/-- ALIGN_GROUP_RECEIVE (R291). -/
def execAlignGroupReceive (port lane : Nat) (group : BitVec 257) (rest : Option (BitVec 5183)) (s : State) : Host.Outcome State Fault Refusal :=
  guardUnit (isPort port && isLane lane)
    (match alignOf group rest with
    | (.align g, clean) => alignReceive port lane g clean (if rest.isSome && !clean then missFrame port lane s else s)
    | _ => if rest.isSome then missFrame port lane s else s)

/-- TX_COUNTDOWN_END (R290). -/
def execTxCountdownEnd (port lane : Nat) (s : State) : Host.Outcome State Fault Refusal :=
  guardUnit (isPort port && isLane lane) (countdownEnd port lane s)

/-- TX_DEAF_TIMEOUT (R290). -/
def execTxDeafTimeout (port : Nat) (s : State) : Host.Outcome State Fault Refusal :=
  guardUnit (isPort port) (deafTimeout port s)

/-- FOM_WINDOW (R295). -/
def execFomWindow (port lane fom : Nat) (s : State) : Host.Outcome State Fault Refusal :=
  guardUnit (isPort port && isLane lane) (fomWindow port lane fom s)

/-- LANE_LOST (R291). -/
def execLaneLost (port lane cause : Nat) (s : State) : Host.Outcome State Fault Refusal :=
  guardUnit (isPort port && isLane lane) (laneLost port lane cause s)

/-- LANE_SLIP_GO (R296). -/
def execLaneSlipGo (port lane offset : Nat) (s : State) : Host.Outcome State Fault Refusal :=
  guardUnit (isPort port && isLane lane) (slipGo port lane offset s)

/-- LANE_SLIP_TEST_DONE (R296). -/
def execLaneSlipTestDone (port lane : Nat) (bits : BitVec 2312) (s : State) : Host.Outcome State Fault Refusal :=
  guardUnit (isPort port && isLane lane) (slipDone port lane bits s)

/-- PORT_DOWN_FLUSH (R302). -/
def execPortDownFlush (port : Nat) (s : State) : Host.Outcome State Fault Refusal :=
  guardUnit (isPort port) (downFlush port s)

/-- DEEP_DRAIN_DONE (R297). -/
def execDeepDrainDone (port : Nat) (s : State) : Host.Outcome State Fault Refusal :=
  guardUnit (isPort port) (drainDone port s)

/-- DEEP_DRAIN_TIMEOUT (R297). -/
def execDeepDrainTimeout (port : Nat) (s : State) : Host.Outcome State Fault Refusal :=
  guardUnit (isPort port) (drainTimeout port s)

/-- ACTIVITY_WAKE (R298). -/
def execActivityWake (port : Nat) (s : State) : Host.Outcome State Fault Refusal :=
  guardUnit (isPort port) (activityWake port s)

end Sys2Proof.Machine
end

