-- ==== Sys2Proof/Machine/Fabric.lean ====
section
/-! DEFINITION. Flits and packets: retry, credit, routing, and the ways a packet leaves the device (R299 to R310). -/

namespace Sys2Proof.Machine

open Sys2Proof

/-! ### Flits (R299 to R303) -/

/-- Receive buffer of each virtual channel (R303). -/
def vcBuffer (vc : Nat) : Nat := if vc < 4 then 256 else if vc < 7 then 1024 else 0

/-- Credit that a peer's port grants on a virtual channel: an adapter grants none on 4 to 7 (R303, R310). -/
def FPort.grant (x : FPort) (vc : Nat) : Nat := if x.role == roleHost && 4 ≤ vc then 0 else vcBuffer vc

/-- The port may send a data flit on a virtual channel. -/
def FPort.canSend (x : FPort) (vc : Nat) : Bool :=
  x.txState != .down && !x.awaitEcho && !x.txAsleep && decide (x.retry.length < 1024)
    && decide (Table.get 0 x.sentOn vc < Table.get 0 x.credit vc + x.grant vc)

/-- SEQ of the next data flit. -/
def FPort.nextSeq (x : FPort) : BitVec 12 := x.oldest + BitVec.ofNat 12 x.retry.length

/-- The 256 bytes of a flit, a null flit where there is none (R299). -/
def FPort.flitBytes (x : FPort) (seq : BitVec 12) (f : Option Flit) : List Byte :=
  let g := f.getD { vc := 0, first := false, last := false, payload := [] }
  let b := leBytes 2 seq.toNat ++ leBytes 2 (x.expected.toNat + 4096 * b2n x.nakDue)
    ++ leBytes 1 (x.creditVc.toNat + 8 * b2n f.isSome + 16 * b2n g.first + 32 * b2n g.last) ++ leBytes 1 g.vc
    ++ leBytes 2 (Table.get 0 x.freed x.creditVc.toNat) ++ leBytes 1 (g.payload.length - 1) ++ leBytes 3 0 ++ padTo 240 g.payload
  b ++ leBytes 4 (crc32 b).toNat

/-- A flit has been given to a slot: the next carries the next CREDIT_VC, and a NAK is carried once (R299, R301). -/
def FPort.flitSent (x : FPort) : FPort := { x with creditVc := x.creditVc + 1, nakDue := false }

/-- What a port sends in a flit slot: a flit that is sent again, else the first queued flit that it may send, else a null flit (R299 to R301, R303). -/
def FPort.nextFlit (now : Nat) (x : FPort) : List Byte × FPort :=
  match x.replay.bind (fun i => (x.retry[i]?).map (fun f => (i, f))) with
  | some (i, f) =>
    (x.flitBytes (x.oldest + BitVec.ofNat 12 i) (some f),
      (({ x with replay := if i + 1 < x.retry.length then some (i + 1) else none } : FPort).flitSent).bump 4 1)
  | none =>
    match x.queue.find? (fun f => x.canSend f.vc) with
    | some f =>
      (x.flitBytes x.nextSeq (some f),
        ({ x with queue := x.queue.erase f, ackAt := if x.retry.isEmpty then now else x.ackAt
                  retry := x.retry ++ [f], sentOn := Table.upd 0 x.sentOn f.vc (· + 1) } : FPort).flitSent)
    | none => (x.flitBytes x.nextSeq none, x.flitSent)

/-- A transmit lane sends groups; every 20 of a period make a codeword (R288). -/
def Lane.send (gs : List (BitVec 257)) (k : Lane) : Lane :=
  let w := k.word ++ gs
  if w.length < 20 then { k with word := w } else { k with lastWord := w.take 20, word := w.drop 20 }

/-- The latest whole codeword of a lane, as it is sent (R288). -/
def Lane.codeword (k : Lane) : Option (BitVec 5440) := if k.lastWord.length == 20 then some (laneEncode (groupBits k.lastWord)) else none

/-- Scrambled groups of a slot. -/
def Lane.sendScrambled (gs : List (BitVec 257)) (k : Lane) : Lane :=
  let r := scrambleGroups k.scrambler gs
  ({ k with scrambler := r.2 } : Lane).send r.1

/-- PORT of an ALIGN group that a port sends (R289). -/
def portNo (s : State) (p : Nat) : Nat :=
  let x := getPort s p
  if x.role == roleTorus then p else if x.role == roleExtra then 0x40 + x.direction else 0xFD

/-- Mask of the lanes that satisfy a test. -/
def FPort.laneMask (x : FPort) (f : Lane → Bool) : BitVec 9 :=
  (List.range 9).foldl (fun m l => if f (x.lane l) then m ||| (1#9 <<< l) else m) 0

/-- The ALIGN group that a transmit lane sends, none where it is dark (R288 to R290, R297) (DEDUCED, log entry 34). -/
def alignSent (s : State) (p l : Nat) : Option AlignGroup :=
  let x := getPort s p
  let k := x.lane l
  let mode : Option Nat := match k.tx with
    | .off | .sleep => none
    | .train => some 0
    | .countdown => some 1
    | .run => some 2
  let mode := mode.map (fun m => if k.sleepBy.isSome then 3 else m)
  mode.map (fun m =>
    { lane := l, port := portNo s p, mode := m, countdown := if m == 1 then 15 - min 15 (groupsIn (s.clk.tticks - k.txAt)) else 0xFF
      coord := s.fabric.coord.getD 0xFFFF, epoch := x.epoch, rxAligned := x.laneMask (fun k => k.rx == .aligned || k.rx == .up)
      rxUp := x.laneMask (fun k => k.rx == .up), txUse := x.txUse, rxEpoch := x.peerEpoch })

/-- The next slot of a lane in RUN: the ALIGN group and 7 FILL groups at the start of a period, and then 159 slots, each with a flit
while the lane is in TX_USE, else with FILL groups (R288, R300) (DEDUCED, log entry 34). -/
def laneSlot (p l : Nat) (s : State) : State :=
  let x := getPort s p
  let k := x.lane l
  if k.slots % 160 == 0 then
    match alignSent s p l with
    | some g => updPort p (fun x => x.updLane l (fun k =>
        ({ k with slots := k.slots + 1, flit := none, word := [] } : Lane).send [g.group] |>.sendScrambled (List.replicate 7 fillGroup))) s
    | none => s
  else if x.txUse.getLsbD l then
    let r := x.nextFlit s.clk.tticks
    updPort p (fun _ => r.2.updLane l (fun k =>
      ({ k with slots := k.slots + 1, flit := some r.1 } : Lane).sendScrambled (flitGroups r.1))) s
  else updPort p (fun x => x.updLane l (fun k =>
    ({ k with slots := k.slots + 1, flit := none } : Lane).sendScrambled (List.replicate 8 fillGroup))) s

/-- Slots of a lane (DESIGN CHOICE, log entry 1). -/
def laneSlots (p l : Nat) : Nat → State → State
  | 0, s => s
  | n + 1, s => laneSlots p l n (laneSlot p l s)

/-- Slots that a lane in RUN has begun by now: one in 10.24 ns (R288) (DESIGN CHOICE, log entry 1). -/
def slotsBegun (now : Nat) (k : Lane) : Nat := (now - k.txAt) * 100 / 1024 + 1

/-- A port fills the slots that begin on its lanes, in ascending lane order, and its lanes that are to sleep do (R297, R300). -/
def pumpPort (p : Nat) (s : State) : State :=
  restPort p ((List.range 9).foldl (fun s l =>
    let k := (getPort s p).lane l
    let until_ := match k.sleepBy with
      | some t => min s.clk.tticks (t - 1)
      | none => s.clk.tticks
    if k.tx == .run then laneSlots p l (slotsBegun until_ k - k.slots) s else s) s)

/-- A difference modulo 2^w that is half the range or more is stale (R301). -/
def ahead (w a b : Nat) : Option Nat :=
  let d := (a + 2 ^ w - b % 2 ^ w) % 2 ^ w
  if d < 2 ^ (w - 1) then some d else none

/-- ACK of a flit that has been received (R301) (DEDUCED, log entry 34). -/
def FPort.takeAck (now ack : Nat) (x : FPort) : FPort :=
  match ahead 12 ack x.oldest.toNat with
  | some d =>
    if 0 < d && d ≤ x.retry.length then
      { x with retry := x.retry.drop d, oldest := x.oldest + BitVec.ofNat 12 d, ackAt := now
               replay := if d < x.retry.length then x.replay.map (fun i => i - d) else none }
    else x
  | none => x

/-- NAK of a flit that has been received: flits are sent again from the SEQ it names, unless it repeats within 2 µs (R301)
(DEDUCED, log entry 34). -/
def FPort.takeNak (now ack : Nat) (x : FPort) : FPort :=
  match ahead 12 ack x.oldest.toNat with
  | none => x
  | some d =>
    let again := match x.nakSeen with
      | some (q, t) => q.toNat == ack && decide (now < t + 2000)
      | none => false
    if again || x.retry.length ≤ d then x else { x with nakSeen := some (BitVec.ofNat 12 ack, now), replay := some d }

/-- CREDIT_TOTAL of a flit that has been received (R301, R303). -/
def FPort.takeCredit (vc total : Nat) (x : FPort) : FPort :=
  let held := Table.get 0 x.credit vc
  match ahead 16 total held with
  | some d => { x with credit := Table.set 0 x.credit vc (held + d) }
  | none => x

/-- Deliver flits in SEQ order from the reorder buffer to the receive buffers. -/
def FPort.deliver : Nat → FPort → FPort
  | 0, x => x
  | n + 1, x =>
    match x.reorder.find? (fun kv => kv.1 == x.expected.toNat) with
    | none => x
    | some kv =>
      FPort.deliver n { x with reorder := Table.erase x.reorder kv.1, expected := x.expected + 1, nakSent := none, nakDue := false, rxBuf := x.rxBuf ++ [kv.2] }

/-- SEQ `expected` is missing (R300). -/
def FPort.missing (x : FPort) : Bool :=
  let later (l : Nat) : Bool := match Table.get none x.laneSeq l with
    | some q => match ahead 12 q.toNat x.expected.toNat with
      | some d => decide (0 < d)
      | none => false
    | none => false
  decide (64 ≤ x.reorder.length) ||
    (x.rxUse != 0 && (List.range 9).all (fun l => !x.rxUse.getLsbD l || later l))

/-- A receiver that finds SEQ `expected` missing sends a NAK once (R301). -/
def FPort.checkMissing (now : Nat) (x : FPort) : FPort :=
  if x.nakSent.isNone && x.missing then ({ x with nakSent := some now, nakDue := true } : FPort).bump 3 1 else x

/-- A data flit in its place (R300, R301). -/
def FPort.takeData (now l seq : Nat) (f : Flit) (x : FPort) : FPort :=
  let x := { x with laneSeq := Table.set none x.laneSeq l (some (BitVec.ofNat 12 seq)) }
  match ahead 12 seq x.expected.toNat with
  | none => x
  | some d =>
    if x.nakSent.isSome && d != 0 then x
    else
      let x := if d == 0 || x.reorder.length < 64 then { x with reorder := Table.put x.reorder seq f } else x
      (FPort.deliver 65 x).checkMissing now

/-- A flit whose codewords are good: discarded where its CRC fails, else its ACK, NAK, credit and data are taken (R299 to R301) (DEDUCED, log entry 34). -/
def FPort.takeFlit (now l : Nat) (bytes : List Byte) (x : FPort) : FPort :=
  if crc32 (bytes.take 252) != BitVec.ofNat 32 (leAt bytes 252 4) then x.bump 2 1
  else
    let w0 := leAt bytes 0 2
    let w1 := leAt bytes 2 2
    let ctrl := leAt bytes 4 1
    let x := x.takeAck now (w1 % 4096)
    let x := if w1 / 4096 % 2 == 1 then x.takeNak now (w1 % 4096) else x
    let x := x.takeCredit (ctrl % 8) (leAt bytes 6 2)
    if ctrl / 8 % 2 == 1 then
      x.takeData now l (w0 % 4096)
        { vc := leAt bytes 5 1 % 8, first := ctrl / 16 % 2 == 1, last := ctrl / 32 % 2 == 1
          payload := slice bytes 12 (leAt bytes 8 1 + 1) }
    else x

/-- FLIT_RECEIVE (R288, R299 to R301): flit slot `slot` of a period has been received, in the codewords that `words` lists from
`slotWord slot` on; the symbols corrected and the codewords found uncorrectable count in the slot in which the codeword ends (DEDUCED, log entry 34; DESIGN CHOICE, log entry 8). -/
def flitReceive (p l slot : Nat) (words : List (BitVec 5440)) (s : State) : State :=
  let x := getPort s p
  if x.role == 0 || (x.lane l).rx != .up then s
  else
    let ms := words.map laneDecode
    let ends := slotEnds slot ms
    updPort p (fun x =>
      let x := (x.bump 0 (ends.map (fun m => (m.map (fun v => v.2)).getD 0)).sum).bump 1 (ends.filter (fun m => m.isNone)).length
      match readSlot slot ms with
      | .flit bytes => x.takeFlit s.clk.tticks l bytes
      | .fill => x
      | .bad => x.bump 2 1) s

/-- NAK_REPEAT (R301): 2 µs after the latest NAK the flit is still missing. -/
def nakRepeat (p : Nat) (s : State) : State :=
  match (getPort s p).nakSent with
  | some t =>
    if t + 2000 ≤ s.clk.tticks then updPort p (fun x => ({ x with nakSent := some s.clk.tticks, nakDue := true } : FPort).bump 3 1) s else s
  | none => s

/-- RETRY_TIMEOUT (R301): no ACK has advanced for 10 µs, and the port replays from the oldest flit. -/
def retryTimeout (p : Nat) (s : State) : State :=
  let x := getPort s p
  if !x.retry.isEmpty && decide (x.ackAt + 10000 ≤ s.clk.tticks) then
    updPort p (fun x => { x with ackAt := s.clk.tticks, replay := some 0 }) s
  else s

/-! ### Packets (R304) -/

/-- TYPE codes. -/
def tyCmd : Nat := 1
def tyReply : Nat := 2
def tyReduce : Nat := 3

/-- A packet of the fabric. -/
structure FabPacket where
  dest : BitVec 16
  src : BitVec 16
  ty : Nat
  sourceRouted : Bool := false
  hopCount : Nat := 0
  route : List Nat := []
  hop : Nat := 0
  origin : BitVec 8 := 0xFF
  body : List Byte
  deriving DecidableEq, Repr

/-- The bytes of a packet. -/
def FabPacket.bytes (k : FabPacket) : List Byte :=
  leBytes 2 k.dest.toNat ++ leBytes 2 k.src.toNat ++ leBytes 1 k.ty ++ leBytes 1 (b2n k.sourceRouted + 16 * k.hopCount)
    ++ leBytes 2 k.body.length ++ leBytes 6 ((List.range 12).foldl (fun a h => a + (k.route.getD h 0 % 16) * 2 ^ (4 * h)) 0)
    ++ leBytes 1 k.hop ++ leBytes 1 k.origin.toNat ++ k.body

/-- The packet that the bytes spell. -/
def parsePacket (bs : List Byte) : FabPacket :=
  let fl := leAt bs 5 1
  let hops := leAt bs 8 6
  { dest := BitVec.ofNat 16 (leAt bs 0 2), src := BitVec.ofNat 16 (leAt bs 2 2), ty := leAt bs 4 1
    sourceRouted := fl % 2 == 1, hopCount := fl / 16
    route := (List.range (min 12 (fl / 16))).map (fun h => hops / 2 ^ (4 * h) % 16)
    hop := leAt bs 14 1, origin := BitVec.ofNat 8 (leAt bs 15 1), body := slice bs 16 (leAt bs 6 2) }

/-- The flits of a packet on a virtual channel (R304). -/
def flitsOf (vc : Nat) (bs : List Byte) : List Flit :=
  let cs := chunks 240 (bs.length + 1) bs
  cs.zipIdx.map (fun ci => { vc := vc, first := ci.2 == 0, last := ci.2 + 1 == cs.length, payload := ci.1 })

/-- Queue a packet at a port. -/
def queuePacket (p vc : Nat) (bs : List Byte) (s : State) : State :=
  updPort p (fun x => { x with queue := x.queue ++ flitsOf vc bs }) s

/-! ### Routing (R305 to R307) -/

/-- Coordinate of a dimension. -/
def dimOf (c : BitVec 16) (j : Nat) : Nat := fldN c (4 * j) 4

/-- Size of a dimension. -/
def sizeOf (s : State) (j : Nat) : Nat := fldN s.fabric.sizes (4 * j) 4 + 1

/-- Every part of a coordinate is below its dimension's size. -/
def inSizes (s : State) (c : BitVec 16) : Bool := (List.range 4).all (fun j => decide (dimOf c j < sizeOf s j))

/-- The neighbour of a coordinate in a direction. -/
def stepCoord (s : State) (c : BitVec 16) (d : Nat) : BitVec 16 :=
  let j := d / 2
  let n := sizeOf s j
  let i := dimOf c j
  let i' := if d % 2 == 0 then (i + 1) % n else (i + n - 1) % n
  BitVec.ofNat 16 (c.toNat - i * 2 ^ (4 * j) + i' * 2 ^ (4 * j))

/-- Direction by dimension order, none at the destination (R305). -/
def dimOrder (s : State) (here dest : BitVec 16) : Option Nat :=
  ((List.range 4).find? (fun j => dimOf here j != dimOf dest j)).map (fun j =>
    let n := sizeOf s j
    let plus := (dimOf dest j + n - dimOf here j) % n
    2 * j + (if plus ≤ n - plus then 0 else 1))

/-- A hop in a direction from here crosses the dateline (R305). -/
def crosses (s : State) (here : BitVec 16) (d : Nat) : Bool :=
  if d % 2 == 0 then dimOf here (d / 2) == sizeOf s (d / 2) - 1 else dimOf here (d / 2) == 0

/-- Ports of a direction in the trunk (R306). -/
def trunk (s : State) (d : Nat) : List Nat :=
  (List.range 40).filter (fun p =>
    let x := getPort s p
    (x.role == roleTorus || x.role == roleExtra) && portDir s p == d && x.txState != .down && x.power == .active)

/-- The DEEP member that a packet to a trunk without a member wakes (R298). -/
def wakeable (s : State) (d : Nat) : Option Nat :=
  (List.range 40).find? (fun p =>
    let x := getPort s p
    (x.role == roleTorus || x.role == roleExtra) && portDir s p == d && x.power == .deep && x.autoWake)

/-- A port of the direction that is ACTIVE, whatever its state. -/
def activeMember (s : State) (d : Nat) : Bool :=
  (List.range 40).any (fun p =>
    let x := getPort s p
    (x.role == roleTorus || x.role == roleExtra) && portDir s p == d && x.power == .active)

/-- Where a packet leaves (DEDUCED, log entry 17). -/
inductive Exit where
  /-- By a port that is there. -/
  | port (p : Nat)
  /-- By a DEEP port that it wakes. -/
  | waking (p : Nat)
  | nowhere
  deriving DecidableEq, Repr

/-- The trunk member a host packet takes (R306) (DEDUCED, log entries 17, 34). -/
def trunkExit (s : State) (d : Nat) (src dest : BitVec 16) : Exit :=
  let ms := trunk s d
  if ms.isEmpty then
    match (if activeMember s d then none else wakeable s d) with
    | some p => .waking p
    | none => .nowhere
  else .port (ms.getD ((src ^^^ dest).toNat % ms.length) 0)

/-- The hops of a source route keep R307: port hops first or last only, torus hops in dimension order with one sense each. -/
def routeOk (hops : List Nat) : Bool :=
  let torus := hops.filter (fun h => decide (h < 8))
  let inner := (hops.drop 1).dropLast
  inner.all (fun h => decide (h < 8)) && (torus.zip (torus.drop 1)).all (fun ab => ab.1 == ab.2 || decide (ab.1 / 2 < ab.2 / 2))

/-- Virtual channel of a host packet's next hop: the pair's even one, or the odd one from the dateline hop on in its
dimension (R305). `oddSoFar` says that it came on the odd channel in the same dimension. -/
def nextVc (s : State) (ty d : Nat) (oddSoFar : Bool) : Nat :=
  let cross := match s.fabric.coord with
    | some c => crosses s c d
    | none => false
  (if ty == tyReply then 2 else 0) + (if cross || oddSoFar then 1 else 0)

/-- A packet that this device sends on: the exit, the virtual channel, and the packet as it leaves. `inDir` is the
direction it travelled in to arrive, with whether it came on an odd channel. -/
def routeOut? (s : State) (k : FabPacket) (inDir : Option (Nat × Bool)) : Exit × Nat × FabPacket :=
  let odd (d : Nat) : Bool := match inDir with
    | some (e, o) => e == d && o
    | none => false
  if k.sourceRouted then
    let h := k.route.getD k.hop 0
    let k' := { k with hop := k.hop + 1 }
    if h < 8 then (trunkExit s h k.src k.dest, nextVc s k.ty h (odd h), k')
    else (if (getPort s (24 + h)).role != 0 then .port (24 + h) else .nowhere, if k.ty == tyReply then 2 else 0, k')
  else
    match s.fabric.coord with
    | none => (.nowhere, 0, k)
    | some c =>
      match dimOrder s c k.dest with
      | none => (.nowhere, 0, k)
      | some d => (trunkExit s d k.src k.dest, nextVc s k.ty d (odd d), k)

/-- Discarding counts of R308. -/
def countUnroutable (s : State) : State := { s with fabric := { s.fabric with unroutable := satAdd s.fabric.unroutable 1 } }

/-- Send a packet to its exit. -/
def sendExit (e : Exit × Nat × FabPacket) (s : State) : State :=
  match e.1 with
  | .port p => queuePacket p e.2.1 e.2.2.bytes s
  | .waking p => queuePacket p e.2.1 e.2.2.bytes (wakePort p s)
  | .nowhere => countUnroutable s

/-- A reply's or event's packet (R309). -/
def replyPacket (s : State) (r : Route) (body : List Byte) : FabPacket :=
  let src := s.fabric.coord.getD 0xFFFF
  if r.sourceRouted then
    let hops := ((r.hops.filter (fun h => decide (h < 8))).reverse.map (fun d => d ^^^ 1)) ++ [8 + (r.origin.toNat - 32)]
    { dest := r.dest, src := src, ty := tyReply, sourceRouted := true, hopCount := hops.length, route := hops, origin := r.origin, body := body }
  else { dest := r.dest, src := src, ty := tyReply, hopCount := 1, origin := r.origin, body := body }

/-- A HOST_REPLY for this device as a bridge leaves by ORIGIN_PORT (R308) (DEDUCED, log entry 17). -/
def originExit (s : State) (o : BitVec 8) : Exit :=
  if 32 ≤ o.toNat && o.toNat < 40 && (getPort s o.toNat).role == roleHost then .port o.toNat else .nowhere

/-- Exit of a reply (R305 to R309) (DEDUCED, log entry 17). -/
def replyExit (s : State) (r : Route) (body : List Byte) : Exit × Nat × FabPacket :=
  let k := replyPacket s r body
  if !r.sourceRouted && (k.dest == s.fabric.coord.getD 0xFFFF) then (originExit s r.origin, 2, k)
  else routeOut? s k none

/-- A body in the frame of the management UART (R400). -/
def uartFramed (body : List Byte) : List Byte :=
  let b := leBytes 2 body.length ++ body
  [0x7E] ++ b ++ leBytes 4 (crc32 b).toNat

/-- Send a body of the command engine on its route (R309); the management UART has a line of its own, framed, and silent outside
recovery (R400) (DESIGN CHOICE, log entry 40). -/
def sendReply (r : Route) (body : List Byte) (s : State) : State :=
  let put (b : List Byte) (s : State) : State := { s with host := { s.host with sent := s.host.sent ++ [{ route := r, body := b }] } }
  if !r.uart then sendExit (replyExit s r body) (put body s)
  else if s.boot.stage == .recovery then put (uartFramed body) s
  else s

/-- The F-ports of a session's own link for a command (R309). -/
def linkPorts (s : State) (p : Packet) : List Nat :=
  [p.inPort] ++ (match (replyExit s (routeOfPacket p) []).1 with
    | .port q => [q]
    | .waking q => [q]
    | .nowhere => [])

/-! ### Rows of the table -/

/-- FLIT_RECEIVE (R300). -/
def execFlitReceive (port lane slot : Nat) (groups : BitVec 5140) (parity : BitVec 300) (next : Option (BitVec 5440)) (s : State) : Host.Outcome State Fault Refusal :=
  guardUnit (isPort port && isLane lane && decide (slot < 159)) (flitReceive port lane slot ((parity ++ groups) :: next.toList) s)

/-- NAK_REPEAT (R301). -/
def execNakRepeat (port : Nat) (s : State) : Host.Outcome State Fault Refusal := guardUnit (isPort port) (nakRepeat port s)

/-- RETRY_TIMEOUT (R301). -/
def execRetryTimeout (port : Nat) (s : State) : Host.Outcome State Fault Refusal :=
  guardUnit (isPort port) (retryTimeout port s)

end Sys2Proof.Machine
end

