-- ==== Sys2Proof/Machine/Reduce.lean ====
section
/-! DEFINITION. The two-pass block reduction: codes, aligned sums and results, and the members of a group (R199 to R205, R311 to R313). -/

namespace Sys2Proof.Machine

open Sys2Proof

/-! ### Blocks (R200 to R203) -/

/-- Data tokens of a block of a format (R200). -/
def blockTokens (fmt : Nat) : Nat := if fmt < 6 then mxWords fmt else 16

/-- Element i of a block: none for a NaN or an infinity. -/
def blockElem (desc : W64) (tokens : List SqWord) (i : Nat) : Option Fp :=
  let fmt := fldN desc 0 3
  if fmt == 7 then
    let w := (tokens.getD (i / 2) {}).v
    let x := fpDec 23 (lane w 32 (i % 2))
    if x.nan || x.inf then none else some x
  else
    let block := leNat (tokens.flatMap (fun t => w64Bytes t.v))
    match mxElem fmt (mxGet fmt block i) with
    | none => none
    | some (sg, m) => some { sign := sg, m := m, e := mxW fmt + (fldN desc 16 8 : Nat) - 127 }

/-- PASS1_CODE of R201. -/
def pass1Code (desc : W64) (tokens : List SqWord) : Nat :=
  let fmt := fldN desc 0 3
  if fldN desc 8 8 != 0 || fmt == 6 || tokens.any (·.poison) then 0x4000
  else
    let xs := (List.range 32).map (blockElem desc tokens)
    if xs.any (·.isNone) || (fmt ≤ 5 && fldN desc 16 8 == 0xFF) then 0x2000
    else
      let es := xs.filterMap (fun x => match x with
        | some f => if f.m == 0 then none else some ((msb f.m : Int) + f.e)
        | none => none)
      match es with
      | [] => 0
      | e :: es => (es.foldl max e + 150).toNat

/-- Combining of two partial results (R201). -/
def combineCode (a b : Nat) (same : Bool) : Nat := if same then max a b else max (max a b) 0x8000

/-- ALIGN of R202. -/
def alignElem (x : Fp) (e : Int) : Int :=
  let k := x.e + 14 - e
  let n : Nat :=
    if 0 ≤ k then x.m * 2 ^ k.toNat
    else
      let d := 2 ^ (-k).toNat
      let q := x.m / d
      let r := x.m % d
      if d < 2 * r || (2 * r == d && q % 2 == 1) then q + 1 else q
  let n := min n 32767
  if x.sign then -(n : Int) else n

/-- RESULT of R202. -/
def reduceResult (sum e : Int) (shift : Nat) : Nat :=
  if sum == 0 then 0 else round32 (decide (sum < 0)) sum.natAbs (e - 14 - shift) false

/-- Global exponent of a code. -/
def codeExp (code : Nat) : Int := ((code % 512 : Nat) : Int) - 150

/-- Pass 2 runs (R202). -/
def runsPass2 (code : Nat) : Bool := decide (1 ≤ code) && decide (code ≤ 0x1FFF)

/-- A member's own aligned values. -/
def alignedOwn (b : RedBlock) (code : Nat) : List Int :=
  (List.range 32).map (fun i => match blockElem b.desc b.tokens i with
    | some x => alignElem x (codeExp code)
    | none => 0)

/-- Sums of two lists of 32. -/
def addSums (a b : List Int) : List Int := (List.range 32).map (fun i => a.getD i 0 + b.getD i 0)

/-- The 16 result tokens of a block (R203). -/
def resultTokens (desc : W64) (code : Nat) (sums : List Int) : List SqWord :=
  let nan : Nat := 0x7FC00000
  let bad := decide (0x4000 ≤ code)
  let el (i : Nat) : Nat :=
    if bad || 0x2000 ≤ code then nan
    else if code == 0 then 0
    else reduceResult (sums.getD i 0) (codeExp code) (fldN desc 3 5)
  (List.range 16).map (fun j => { v := BitVec.ofNat 64 (el (2 * j) + el (2 * j + 1) * 2 ^ 32), poison := bad })

/-! ### Groups (R311) -/

/-- A reduction channel. -/
def getChan (s : State) (k : Nat) : Channel := Table.get {} s.fabric.channels k

/-- Changing a channel. -/
def updChan (k : Nat) (f : Channel → Channel) (s : State) : State :=
  { s with fabric := { s.fabric with channels := Table.upd {} s.fabric.channels k f } }

/-- START and LENGTH of a box in a dimension. -/
def boxStart (box : W32) (j : Nat) : Nat := fldN box (8 * j) 4
def boxLen (box : W32) (j : Nat) : Nat := fldN box (8 * j + 4) 4 + 1

/-- Position of a coordinate in a box. -/
def boxPos (s : State) (box : W32) (c : BitVec 16) (j : Nat) : Nat :=
  (dimOf c j + 16 * sizeOf s j - boxStart box j) % sizeOf s j

/-- Membership. -/
def inBox (s : State) (box : W32) (c : BitVec 16) : Bool := (List.range 4).all (fun j => decide (boxPos s box c j < boxLen box j))

/-- Direction toward a member's parent, none at the root. -/
def parentDir (s : State) (box : W32) (c : BitVec 16) : Option Nat :=
  ((List.range 4).find? (fun j => boxPos s box c j != boxLen box j / 2)).map (fun j =>
    2 * j + (if boxPos s box c j < boxLen box j / 2 then 0 else 1))

/-- Directions toward the children of a member: neighbours in the box whose parent it is. -/
def childDirs (s : State) (box : W32) (c : BitVec 16) : List Nat :=
  (List.range 8).filter (fun d =>
    let n := stepCoord s c d
    n != c && inBox s box n && (match parentDir s box n with
      | some e => stepCoord s n e == c && e == d ^^^ 1
      | none => false))

/-! ### Packets (R312) -/

/-- Body of a reduction packet. -/
def redBody (k : Nat) (r : RedPkt) : List Byte :=
  leBytes 1 k ++ leBytes 1 r.kind ++ leBytes 2 0 ++ leBytes 4 r.no ++ leBytes 8 r.desc.toNat ++ leBytes 2 r.code
    ++ List.replicate 14 0 ++ (if r.kind % 2 == 1 then (List.range 32).flatMap (fun i => leBytes 4 (unsigned 32 (r.sums.getD i 0))) else [])

/-- The packet a body spells. -/
def parseRed (src : BitVec 16) (b : List Byte) : Nat × RedPkt :=
  (leAt b 0 1, { src := src, kind := leAt b 1 1, no := leAt b 4 4, desc := BitVec.ofNat 64 (leAt b 8 8), code := leAt b 16 2
                 sums := if leAt b 1 1 % 2 == 1 then (List.range 32).map (fun i => signed 32 (leAt b (32 + 4 * i) 4)) else [] })

/-- Virtual channel of a kind (R303). -/
def redVc (kind : Nat) : Nat := if kind == 0 then 4 else if kind == 1 then 5 else 6

/-- Queue a reduction packet toward a direction. -/
def sendRed (k d : Nat) (r : RedPkt) (s : State) : State :=
  match s.fabric.coord with
  | none => s
  | some c =>
    let pk : FabPacket := { dest := stepCoord s c d, src := c, ty := tyReduce, hopCount := 1, body := redBody k r }
    updChan k (fun x => { x with outbox := x.outbox ++ (flitsOf (redVc r.kind) pk.bytes).map (fun f => (d, f)) }) s

/-- Flits of a port on a virtual channel whose credit has not returned. -/
def FPort.unreturned (x : FPort) (vc : Nat) : Nat :=
  (x.queue.filter (fun f => f.vc == vc)).length + (Table.get 0 x.sentOn vc - Table.get 0 x.credit vc)

/-- A packet for a trunk with no ACTIVE member wakes its lowest DEEP one that may wake (R298). -/
def wakeTrunk (d : Nat) (s : State) : State :=
  match (if activeMember s d then none else wakeable s d) with
  | some p => wakePort p s
  | none => s

/-- Give the first waiting packet's flits to its trunk member; a channel moves to another member only once its old one has
returned the credit of every flit on the channels of reduction packets (R303, R306). -/
def pumpChan (k : Nat) : Nat → State → State
  | 0, s => s
  | n + 1, s =>
    let x := getChan s k
    match x.outbox with
    | [] => s
    | (d, f) :: rest =>
      let ms := trunk s d
      if ms.isEmpty then wakeTrunk d s
      else
        let want := ms.getD (k % ms.length) 0
        let old := Table.get none x.member d
        let free := match old with
          | some p => p == want || [4, 5, 6].all (fun vc => (getPort s p).unreturned vc == 0)
          | none => true
        if !free then s
        else
          let s := updChan k (fun x => { x with outbox := rest, member := Table.set none x.member d (some want) }) s
          pumpChan k n (updPort want (fun y => { y with queue := y.queue ++ [f] }) s)

/-! ### Members (R313) -/

/-- Change the first block that satisfies a test. -/
def updBlock (k : Nat) (sel : RedBlock → Bool) (f : RedBlock → RedBlock) (s : State) : State :=
  updChan k (fun x => { x with blocks := match x.blocks.findIdx? sel with
    | some i => x.blocks.modify i f
    | none => x.blocks }) s

/-- Blocks whose results are known leave, up to the first that still waits: results are delivered in the order of the blocks (R194, R204) (DESIGN CHOICE, log entry 30). -/
def Channel.release (x : Channel) : Channel :=
  let out := x.blocks.takeWhile (fun b => b.ready.isSome)
  { x with blocks := x.blocks.dropWhile (fun b => b.ready.isSome), results := x.results ++ out.flatMap (fun b => b.ready.getD []) }

/-- The results of a block are known; they leave in their turn, and the counts are those of R203. -/
def deliverBlock (k : Nat) (b : RedBlock) (code : Nat) (sums : List Int) (s : State) : State :=
  let ready := some (resultTokens b.desc code sums)
  let s := updChan k Channel.release (updBlock k (fun y => y.no == b.no) (fun y => { y with ready := ready }) s)
  { s with ring := { s.ring with
      mismatch := if 0x8000 ≤ code then satAdd s.ring.mismatch 1 else s.ring.mismatch
      poison := if code < 0x8000 && 0x4000 ≤ code then satAdd s.ring.poison 1 else s.ring.poison
      nonfinite := if code < 0x4000 && 0x2000 ≤ code then satAdd s.ring.nonfinite 1 else s.ring.nonfinite } }

/-- The final code is known here: forward it to the children, and begin pass 2 or deliver (R313). -/
def settleCode (k : Nat) (b : RedBlock) (code : Nat) (s : State) : State :=
  match s.fabric.coord with
  | none => s
  | some c =>
    let s := (childDirs s (getChan s k).box c).foldl (fun s d =>
      sendRed k d { src := c, kind := 2, no := b.no, desc := b.desc, code := code } s) s
    if runsPass2 code then
      updBlock k (fun y => y.no == b.no) (fun y => { y with final := some code, sums := addSums (alignedOwn y code) (List.replicate 32 0) }) s
    else deliverBlock k b code [] s

/-- The final sums are known here: forward them to the children and deliver. -/
def settleSums (k : Nat) (b : RedBlock) (code : Nat) (sums : List Int) (s : State) : State :=
  match s.fabric.coord with
  | none => s
  | some c =>
    let s := (childDirs s (getChan s k).box c).foldl (fun s d =>
      sendRed k d { src := c, kind := 3, no := b.no, desc := b.desc, code := code, sums := sums } s) s
    deliverBlock k b code sums s

/-- Send pass 1 up, or settle it at the root, once every child has been combined. -/
def advancePass1 (k no : Nat) (s : State) : State :=
  let x := getChan s k
  match s.fabric.coord, x.blocks.find? (fun b => b.no == no) with
  | some c, some b =>
    if b.sent1 || b.ready.isSome || b.got1.length < (childDirs s x.box c).length then s
    else
      let s := updBlock k (fun y => y.no == no) (fun y => { y with sent1 := true }) s
      match parentDir s x.box c with
      | some d => sendRed k d { src := c, kind := 0, no := no, desc := b.desc, code := b.code } s
      | none => settleCode k b b.code s
  | _, _ => s

/-- Send pass 2 up, or settle it at the root, once every child has been added. -/
def advancePass2 (k no : Nat) (s : State) : State :=
  let x := getChan s k
  match s.fabric.coord, x.blocks.find? (fun b => b.no == no) with
  | some c, some b =>
    match b.final with
    | none => s
    | some code =>
      if b.sent2 || b.ready.isSome || b.got2.length < (childDirs s x.box c).length then s
      else
        let s := updBlock k (fun y => y.no == no) (fun y => { y with sent2 := true }) s
        match parentDir s x.box c with
        | some d => sendRed k d { src := c, kind := 1, no := no, desc := b.desc, code := code, sums := b.sums } s
        | none => settleSums k b code b.sums s
  | _, _ => s

/-- Tokens that have crossed to a channel's input join the block in assembly, up to its last one (R200, R205) (DESIGN CHOICE, log entry 30). -/
def reduceIntake (k : Nat) : Nat → State → State
  | 0, s => s
  | n + 1, s =>
    let x := getChan s k
    let want := match x.assembly with
      | [] => 1
      | d :: _ => 1 + blockTokens (fldN d.v 0 3)
    if !x.enabled || (!x.assembly.isEmpty && want ≤ x.assembly.length) then s
    else
      match edgeTake 6 k s with
      | none => s
      | some (t, s) => reduceIntake k n (updChan k (fun x => { x with assembly := x.assembly ++ [{ v := t.data, poison := t.poison }] }) s)

/-- The engine takes no further block: it holds as many as it can, the fabric has not taken its packets, or the canopy its
results. The block in assembly then waits, and with it the input endpoint (R205) (DESIGN CHOICE, log entry 30). -/
def engineHeld (x : Channel) : Bool := decide (Config.reduceBlocks < x.blocks.length) || !x.outbox.isEmpty || !x.results.isEmpty

/-- REDUCE_BLOCK_ENTRY (R201): the block in assembly is complete and pass 1 begins. A poisoned descriptor counts with the
block's tokens. -/
def blockEntry (k : Nat) (s : State) : State :=
  let s := reduceIntake k 17 s
  let x := getChan s k
  match x.assembly with
  | [] => s
  | d :: data =>
    if !x.enabled || data.length < blockTokens (fldN d.v 0 3) || engineHeld x then s
    else
      let code := if d.poison then 0x4000 else pass1Code d.v data
      let b : RedBlock := { no := x.blockNo, desc := d.v, tokens := data, code := code }
      let s := updChan k (fun x => { x with assembly := [], blockNo := (x.blockNo + 1) % 2 ^ 32, blocks := x.blocks ++ [b] }) s
      advancePass2 k b.no (advancePass1 k b.no s)

/-- Take the first packet of a kind from a channel's inbox that a test admits (DESIGN CHOICE, log entry 30). -/
def takeInbox (k : Nat) (sel : RedPkt → Bool) (s : State) : Option (RedPkt × State) :=
  match (getChan s k).inbox.find? sel with
  | none => none
  | some r => some (r, updChan k (fun x => { x with inbox := x.inbox.erase r }) s)

/-- REDUCE_PASS1_UP (R201, R313): the oldest block that lacks this child is combined with it. -/
def pass1Up (k : Nat) (s : State) : State :=
  let x := getChan s k
  let target (r : RedPkt) : Option RedBlock := x.blocks.find? (fun b => !b.sent1 && b.ready.isNone && !b.got1.contains r.src)
  match takeInbox k (fun r => r.kind == 0 && (target r).isSome) s with
  | none => s
  | some (r, s') =>
    match target r with
    | none => s
    | some b =>
      let same := r.desc == b.desc && r.no == b.no
      let s := updBlock k (fun y => y.no == b.no) (fun y => { y with code := combineCode y.code r.code same, got1 := y.got1 ++ [r.src] }) s'
      advancePass2 k b.no (advancePass1 k b.no s)

/-- REDUCE_PASS1_DOWN (R313). -/
def pass1Down (k : Nat) (s : State) : State :=
  match (getChan s k).blocks.find? (fun b => b.sent1 && b.final.isNone && b.ready.isNone) with
  | none => s
  | some b =>
    match takeInbox k (fun r => r.kind == 2) s with
    | none => s
    | some (r, s) => advancePass2 k b.no (settleCode k b r.code s)

/-- REDUCE_PASS2_UP (R313). -/
def pass2Up (k : Nat) (s : State) : State :=
  let x := getChan s k
  let target (r : RedPkt) : Option RedBlock := x.blocks.find? (fun b => b.final.isSome && !b.sent2 && b.ready.isNone && !b.got2.contains r.src)
  match takeInbox k (fun r => r.kind == 1 && (target r).isSome) s with
  | none => s
  | some (r, s') =>
    match target r with
    | none => s
    | some b =>
      advancePass2 k b.no (updBlock k (fun y => y.no == b.no) (fun y => { y with sums := addSums y.sums r.sums, got2 := y.got2 ++ [r.src] }) s')

/-- REDUCE_PASS2_DOWN (R313). -/
def pass2Down (k : Nat) (s : State) : State :=
  match (getChan s k).blocks.find? (fun b => b.sent2 && b.ready.isNone) with
  | none => s
  | some b =>
    match takeInbox k (fun r => r.kind == 3) s with
    | none => s
    | some (r, s) => settleSums k b (b.final.getD 0) r.sums s

/-- A reduction packet at the device (R308, R313). -/
def reduceArrive (src : BitVec 16) (body : List Byte) (s : State) : State :=
  let r := parseRed src body
  if r.1 < 64 && (getChan s r.1).enabled then updChan r.1 (fun x => { x with inbox := x.inbox ++ [r.2] }) s
  else { s with fabric := { s.fabric with stray := satAdd s.fabric.stray 1 } }

/-- A result token leaves at a channel's output (R203). -/
def reduceOutput (k : Nat) (s : State) : State :=
  match (getChan s k).results with
  | [] => s
  | w :: ws =>
    match edgeDeliver 7 k w.v w.poison s with
    | some s => updChan k (fun x => { x with results := ws }) s
    | none => s

/-- Discard the partly combined blocks of a channel (R350). -/
def discardBlocks (k : Nat) (s : State) : State := updChan k (fun x => { x with assembly := [], blocks := [] }) s

/-! ### Rows of the table -/

/-- A channel of the part. -/
def isChannel (k : Nat) : Bool := decide (k < 64)

/-- REDUCE_BLOCK_ENTRY (R201). -/
def execReduceBlockEntry (channel : Nat) (s : State) : Host.Outcome State Fault Refusal :=
  guardUnit (isChannel channel) (blockEntry channel s)

/-- REDUCE_PASS1_UP (R313). -/
def execReducePass1Up (channel : Nat) (s : State) : Host.Outcome State Fault Refusal :=
  guardUnit (isChannel channel) (pass1Up channel s)

/-- REDUCE_PASS2_UP (R313). -/
def execReducePass2Up (channel : Nat) (s : State) : Host.Outcome State Fault Refusal :=
  guardUnit (isChannel channel) (pass2Up channel s)

/-- REDUCE_PASS1_DOWN (R313). -/
def execReducePass1Down (channel : Nat) (s : State) : Host.Outcome State Fault Refusal :=
  guardUnit (isChannel channel) (pass1Down channel s)

/-- REDUCE_PASS2_DOWN (R313). -/
def execReducePass2Down (channel : Nat) (s : State) : Host.Outcome State Fault Refusal :=
  guardUnit (isChannel channel) (pass2Down channel s)

end Sys2Proof.Machine
end

