-- ==== Sys2Proof/Machine/Canopy.lean ====
section
/-! DEFINITION. Partitions and contexts under command: START, STOP, STEP, DRAIN, unloading, quiescence, aborting a partition, the sampler and the deadlock watch (R63 to R67, R75 to R79, R163, R348 to R350, R357 to R359, R366). -/

namespace Sys2Proof.Machine

open Sys2Proof

/-! ### Fill of a partition (R366) -/

/-- The fill current of a partition's Start, in mA: FILL_LEVEL × 73 A × bays (DEDUCED, log entry 24). -/
def fillTarget (s : State) (p : Nat) : Nat := s.power.fillLevel * 730 * (getPart s p).bays

/-- Start the ramp of a partition's fill. -/
def fillStart (p : Nat) (s : State) : State :=
  { s with power := { s.power with fillOn := s.power.fillOn ||| (1#8 <<< p) } }

/-- The partition is quiescent after a stop: its fill falls to zero. -/
def fillStop (p : Nat) (s : State) : State :=
  { s with power := { s.power with fillOn := s.power.fillOn &&& ~~~(1#8 <<< p) } }

/-! ### Flights of a partition -/

/-- Fields that START and STEP carry. -/
def Flight.part (f : Flight) : Nat := f.pkt.at_ 0 1
def Flight.contexts (f : Flight) : List Nat := (List.range 4).filter (fun c => f.pkt.bits 1 c 1 == 1)
def Flight.first (f : Flight) : Nat := f.pkt.bits 1 4 2

/-- Commands of one kind being served for a partition. -/
def flightsOf (s : State) (op : Op) (p : Nat) : List Flight :=
  s.host.flights.filter (fun f => f.op == op && f.phase == .active && f.part == p)

/-! ### Starting (R357, R359) -/

/-- START's refusals (R357). -/
def startRefused (f : Flight) (s : State) : Option Nat :=
  let p := f.part
  let x := getPart s p
  if !partDefined s p then some stBadParam
  else if partForeign s p f.sess then some stDenied
  else if f.contexts.isEmpty || !f.contexts.contains f.first
      || f.contexts.any (fun c => (x.ctx c).state != .loaded && (x.ctx c).state != .drained)
      || (List.range 4).any (fun c => (x.ctx c).state == .faulted) then some stBadParam
  else none

/-- START: its tests; the governor then ramps the fill, and the handshake follows (R357, R366). -/
def serveStart (f : Flight) (s : State) : State :=
  match startRefused f s with
  | some st => answer f st s
  | none => fillStart f.part (updFlight f.id (fun f => { f with phase := .active }) s)

/-- STEP: its tests (R359). -/
def serveStep (f : Flight) (s : State) : State :=
  match startRefused f s with
  | some st => answer f st s
  | none =>
    if (getPart s f.part).busy || f.pkt.at_ 2 4 == 0 then answer f stBadParam s
    else fillStart f.part (updFlight f.id (fun f => { f with phase := .active, total := f.pkt.at_ 2 4 }) s)

/-- Change every listed tile of a partition (an unlisted one must be unchanged by `f`). -/
def mapTiles (p : Nat) (f : Tile → Tile) (s : State) : State :=
  let x := getPart s p
  let ts := Table.mapAll {} (fun k t => if x.hasCol (k / 512) then f t else t) s.canopy.tiles
  { s with canopy := { s.canopy with tiles := ts } }

/-- Make a context active in every tile of a partition. -/
def setActive (p c : Nat) (s : State) : State :=
  let x := getPart s p
  let s := mapTiles p (fun t => { t with active := c }) s
  if c == 0 then s
  else
    (List.range x.cols).foldl (fun s i => (List.range 512).foldl (fun s r =>
      updTile (x.firstCol + i) r (fun t => { t with active := c }) s) s) s

/-- Program counters of the named contexts go to 0 in every tile of a partition. -/
def zeroPcs (p : Nat) (cs : List Nat) (s : State) : State :=
  mapTiles p (fun t => cs.foldl (fun t c => t.updCtx c (fun y => { y with pc := 0, waiting := none, heldAt := none, creditHeld := false })) t) s

/-- A START or STEP takes effect (R357): `last` is the last cycle a STEP lets its contexts issue in. -/
def startContexts (f : Flight) (last : Option Nat) (s : State) : State :=
  let p := f.part
  let joined := (getPart s p).busy
  let cs := f.contexts.filter (fun c => ((getPart s p).ctx c).state == .loaded || ((getPart s p).ctx c).state == .drained)
  let s := zeroPcs p cs s
  let s := updPart p (fun x => cs.foldl (fun x c => x.updCtx c (fun k =>
    { k with state := .running, inputsStopped := false, tail := none, lastIssue := last, drainEnd := none })) x) s
  if joined then s
  else
    let s := setActive p f.first s
    let s := mapTiles p (fun t => (List.range 4).foldl (fun t d => t.updOut d (fun o => { o with ptr := 0 })) { t with lastV := none }) s
    updPart p (fun x => { x with
      start := s.canopy.now, seedInForce := BitVec.ofNat 64 (x.seedHi.toNat * 2 ^ 32 + x.seedLo.toNat), portsClosed := false
      stopped := none, firstRec := none, stepEnd := last, activity := s.canopy.now
      sampler := { x.sampler with lastAt := none } }) s

/-! ### Stopping (R358, R359) -/

/-- Tokens on links, requests and late work of a partition that have not come to rest (R163 steps 4 and 5). -/
def quiescent (s : State) (p : Nat) : Bool :=
  let x := getPart s p
  !x.busy && (match x.stopped with
    | some f => decide (f < s.canopy.now)
    | none => true)
  && (partTiles s p).all (fun kv =>
    let t := kv.2
    t.vq.isEmpty && t.dues.isEmpty && t.dot.isNone && t.cvt.isNone
      && (List.range 4).all (fun d => (t.inp d).wire.isEmpty))

/-- A partition stops as by STOP in the present cycle; a DRAIN in flight on it ends ABORTED (R358). -/
def stopAsCommand (p : Nat) (s : State) : State := endDrains p (stopPartition p s)

/-- STOP: its tests (R358). -/
def serveStop (f : Flight) (s : State) : State :=
  let p := f.part
  if !partDefined s p then answer f stBadParam s
  else if partForeign s p f.sess then answer f stDenied s
  else if !(getPart s p).busy then answerOk f s
  else updFlight f.id (fun f => { f with phase := .active }) s

/-- Cycles a STEP in flight has run, when its partition stopped in cycle `f`. -/
def stepRun (g : Flight) (f : Nat) : Nat := min g.total (f + 1 - g.acc.getD 0 0)

/-- STEPs of a partition that a STOP overtakes end ABORTED: one that runs once the partition is quiescent, one that waits at once. -/
def markSteps (p : Nat) (s : State) : State :=
  s.host.flights.foldl (fun s g =>
    if g.op != .step || g.part != p || g.phase.isDone then s
    else if g.stage == 1 then updFlight g.id (fun g => { g with aborting := true }) s
    else complete g.id { status := stAborted, isPartial := true } s) s

/-- STEP_END (R359): the last issuing cycle has come, and the partition stops in it (DEDUCED, log entry 36). -/
def stepEnd (p : Nat) (s : State) : State :=
  match (getPart s p).stepEnd with
  | some n =>
    if s.canopy.now < n || !(getPart s p).busy then s
    else
      let late := decide (n < s.canopy.now)
      let s := updPart p (fun x => { x with stepEnd := none }) (stopPartition p s)
      if late then
        updPart p (fun x =>
          let x := (List.range 4).foldl (fun x c => x.updCtx c (fun k => { k with tail := none })) x
          { x with stopped := some n }) s
      else s
  | none => s

/-! ### Draining and unloading (R65, R67) -/

/-- DRAIN: its tests, and its cases (R65) (DEDUCED, log entry 36). -/
def serveDrain (f : Flight) (s : State) : State :=
  let p := f.part
  let c := f.pkt.at_ 1 1
  let k := (getPart s p).ctx c
  if !partDefined s p then answer f stBadParam s
  else if partForeign s p f.sess then answer f stDenied s
  else if 3 < c || f.pkt.at_ 2 4 == 0 || k.state == .empty || k.state == .loading || k.state == .faulted then answer f stBadParam s
  else if k.state == .drained || (k.state == .loaded && !tokensPresent s p c) then
    answerOk f (updPart p (fun x => x.updCtx c (fun k => { k with state := .drained, inputsStopped := true })) s)
  else updFlight f.id (fun f => { f with phase := .active }) s

/-- A DRAIN takes effect in its apply cycle. -/
def applyDrain (f : Flight) (s : State) : State :=
  let c := f.pkt.at_ 1 1
  let lim := s.clk.aclk + f.pkt.at_ 2 4
  updFlight f.id (fun f => { f with stage := 1 })
    (updPart f.part (fun x =>
      let x := x.updCtx c (fun k => { k with state := .draining, inputsStopped := true, tail := none, lastIssue := none
                                             drainEnd := some lim, drainDiscard := f.pkt.bits 6 0 1 == 1 })
      { x with portsClosed := false, stopped := none, firstRec := none }) s)

/-- The DRAIN in flight for a context. -/
def drainFlight (s : State) (p c : Nat) : Option Flight := (flightsOf s .drain p).find? (fun f => f.pkt.at_ 1 1 == c)

/-- A draining context halts in a state. -/
def haltDrain (p c : Nat) (st : CtxState) (s : State) : State :=
  updPart p (fun x => x.updCtx c (fun k => { k with state := st, drainEnd := none, tail := none })) s

/-- A DRAIN completes in a step, which is its last (R337, R345) (DEDUCED, log entry 11). -/
def drainEnds (f : Flight) (r : Reply) (s : State) : State := reportStep 0x0214 f.id (complete f.id r s)

/-- DRAIN_EMPTY (R65): a draining context has no tokens present. -/
def drainEmpty (p c : Nat) (s : State) : State :=
  if ((getPart s p).ctx c).state != .draining || tokensPresent s p c then s
  else
    let s := haltDrain p c .drained s
    match drainFlight s p c with
    | some f => drainEnds f { status := stOk } s
    | none => s

/-- DRAIN_LIMIT (R65): the limit is reached with tokens present. -/
def drainLimit (p c : Nat) (s : State) : State :=
  let k := (getPart s p).ctx c
  match k.drainEnd with
  | none => s
  | some n =>
    if k.state != .draining || s.clk.aclk < n || !tokensPresent s p c then s
    else
      let count := tokenCount s p c
      let s := if k.drainDiscard then haltDrain p c .drained (discardTokens p c s) else haltDrain p c .loaded s
      match drainFlight s p c with
      | some f => drainEnds f { status := if k.drainDiscard then stOk else stNotEmpty, isPartial := true, progress := count } s
      | none => s

/-- A DRAIN that an ABORT ends: the context is LOADED with its inputs stopped, whether or not the DRAIN has been applied
(R65, R349) (DEDUCED, log entry 13). -/
def abortDrain (f : Flight) (s : State) : State :=
  let c := f.pkt.at_ 1 1
  let n := tokenCount s f.part c
  let s := updPart f.part (fun x => x.updCtx c (fun k =>
    if k.state.issues || k.state == .loaded then { k with state := .loaded, inputsStopped := true, drainEnd := none, tail := none } else k)) s
  complete f.id { status := stAborted, isPartial := true, progress := n } s

/-- What a context of a partition holds of an image goes: EMPTY (R63). -/
def emptyContext (p c : Nat) (s : State) : State :=
  updPart p (fun x => x.updCtx c (fun k => { inputsStopped := k.inputsStopped, faultCount := k.faultCount })) s

/-- UNLOAD_CONTEXT (R67). -/
def serveUnloadContext (f : Flight) (s : State) : State :=
  let p := f.part
  let c := f.pkt.at_ 1 1
  let st := ((getPart s p).ctx c).state
  if !partDefined s p || 3 < c then answer f stBadParam s
  else if partForeign s p f.sess then answer f stDenied s
  else if st.issues then answer f stNotEmpty s
  else if st == .faulted then answerOk f (emptyContext p c (discardTokens p c s))
  else if tokensPresent s p c then answer f stNotEmpty s
  else answerOk f (emptyContext p c s)

/-! ### Ending operations (R348 to R350) -/

/-- The status ABORTED for a command that has done `progress` of `total`. -/
def endAborted (f : Flight) (progress : Nat) (isPartial : Bool) (s : State) : State :=
  complete f.id { status := stAborted, isPartial := isPartial, progress := progress } s

/-- A LOAD_IMAGE ended after writing began: the context is EMPTY (R349). -/
def abortLoad (f : Flight) (s : State) : State :=
  let s := match f.acc with
    | c :: _ => if ((getPart s f.part).ctx c).state == .loading then emptyContext f.part c s else s
    | [] => s
  endAborted f f.progress true s

/-- An operation ends at once, between steps, with the effects of R349 (DEDUCED, log entry 13). -/
def endNow (f : Flight) (s : State) : State :=
  match f.phase with
  | .done _ _ => s
  | .waiting => endAborted f (if f.op == .drain then tokenCount s f.part (f.pkt.at_ 1 1) else 0) true s
  | .active =>
    match f.op with
    | .loadImage => abortLoad f s
    | .drain => abortDrain f s
    | .start | .step => endAborted f 0 true (if (getPart s f.part).busy then s else fillStop f.part s)
    | .arbEval =>
      let es := Table.mapAll {} (fun _ e => { e with samples := e.samples.filter (fun m => m.source != .command f.id) }) s.arbor.ensembles
      endAborted f 0 true { s with arbor := { s.arbor with ensembles := es } }
    | .healthTest => endAborted f f.progress true (if f.stage == 1 then testOver s else s)
    | _ => endAborted f f.progress (decide (f.progress < f.total) || f.total == 0) s

/-- An operation ends as the Aborted case of R348 states: at once, or at the end of its step in progress, or, for a STEP that
runs, once the partition has stopped; a reset of a domain ends with its step. Firmware, which ends operations between steps,
meets no step in progress. `at_` is the cycle of the ABORT's arrival (DEDUCED, log entry 13). -/
def abortFlight (between : Bool) (at_ : Option Nat) (g : Flight) (s : State) : State :=
  match g.phase with
  | .done _ _ => s
  | .waiting => endNow g s
  | .active =>
    if g.op == .sqWrite || (g.op == .step && g.stage == 1) || (g.op == .marginReplan && g.stage == 1) || g.op == .resetDomain
        || (!between && ((stepping s).map (fun x => x.id)) == some g.id) then
      updFlight g.id (fun g => { g with aborting := true, abortAt := if g.aborting then g.abortAt else at_ }) s
    else endNow g s

/-- The terminal reply keeps its status and adds ABORT_LATE (DEDUCED, log entry 13). -/
def markLate (g : Flight) (s : State) : State :=
  updFlight g.id (fun g => { g with phase := match g.phase with
    | .done t r => .done t { r with abortLate := true }
    | ph => ph }) s

/-- Steps 1 to 4 of R350. `named` says which flights name the partition (DEDUCED, log entry 13). -/
def abortPartition (p : Nat) (named : Flight → Bool) (s : State) : State :=
  let s := if (getPart s p).busy then stopAsCommand p (markSteps p s) else s
  let s := (List.range 4).foldl (fun s c => discardTokens p c s) s
  let s := s.host.flights.foldl (fun s f =>
    if named f then abortFlight false none f s else s) s
  let chans := (List.range 4).flatMap (fun c =>
    let k := (getPart s p).ctx c
    if k.state.resident then (k.image.ports.filter (fun e => e.unit == 6 || e.unit == 7)).map (fun e => e.index) else [])
  chans.foldl (fun s k => discardBlocks k s) s

/-! ### Quiescence (R163, R358, R359) -/

/-- Place of the latest record like this one in the log of its partition. -/
def recordNumber (x : Partition) (r : FaultRec) : Nat :=
  match x.log.reverse.findIdx? (fun q => q == r) with
  | some i => x.log.length - 1 - i
  | none => x.log.length

/-- A START or STEP that has not been applied keeps the fill of its partition on (R366, R369) (DEDUCED, log entry 24). -/
def fillWanted (s : State) (p : Nat) : Bool := (flightsOf s .start p ++ flightsOf s .step p).any (fun f => f.stage == 0)

/-- PARTITION_QUIESCENT: replies and the FAULT event that wait for it (DEDUCED, log entries 24, 36). -/
def partitionQuiescent (p : Nat) (s : State) : State :=
  if !quiescent s p then s
  else
    let x := getPart s p
    let f := x.stopped.getD s.canopy.now
    let s := match x.stopped, x.firstRec with
      | some _, some r => postOwner x.owner 0x0001 (r.bytes p (recordNumber x r)) s
      | _, _ => s
    let s := if x.stopped.isSome && !fillWanted s p then fillStop p s else s
    let s := updPart p (fun x => { x with stopped := none, firstRec := none, stepEnd := none }) s
    let s := (flightsOf s .step p).foldl (fun s g =>
      if g.stage != 1 || x.stopped.isNone then s
      else
        let n := stepRun g f
        complete g.id { status := stOk, isPartial := decide (n < g.total), progress := n } s) s
    let s := (flightsOf s .stop p).foldl (fun s g => if g.stage == 1 then answerOk g s else s) s
    s.host.flights.foldl (fun s g =>
      if g.op == .abort && g.phase == .active && g.stage == 1 && g.pkt.at_ 3 1 == p && g.pkt.at_ 0 1 == 1 then answerResult g [4] s else s) s

/-! ### The apply cycle of a canopy command (R33, R368) -/

/-- CANOPY_COMMAND_APPLY: the handshake is complete. A START or STEP waits for its partition's fill, and every command for
the end of a pause; nothing starts during an emergency stop, nor in a partition that has stopped and is not quiescent yet, whose
FAULT event R163 sends first (DEDUCED, log entry 24). -/
def canopyApply (id : Nat) (named : Flight → Bool) (s : State) : State :=
  match findFlight s id with
  | none => s
  | some f =>
    if f.phase != .active || f.stage != 0 || s.canopy.paused then s
    else
      let p := f.part
      let still := (getPart s p).stopped.isNone
      let filled := still && decide (fillTarget s p ≤ Table.get 0 s.power.fill p) && s.power.estop.isNone
      match f.op with
      | .start => if filled then answerOk f (startContexts f none s) else s
      | .step =>
        if filled then
          let a := s.canopy.now
          startContexts f (some (a + f.total - 1)) (updFlight id (fun f => { f with stage := 1, acc := [a] }) s)
        else s
      | .stop => updFlight id (fun f => { f with stage := 1 }) (if (getPart s p).busy then stopAsCommand p (markSteps p s) else s)
      | .drain => if still then applyDrain f s else s
      | .abort =>
        if f.pkt.at_ 0 1 == 1 then updFlight id (fun f => { f with stage := 1 }) (abortPartition (f.pkt.at_ 3 1) (fun g => g.id != id && named g) s)
        else
          let s := updFlight id (fun f => { f with stage := 2 }) s
          match findFlight s (f.acc.getD 0 0) with
          | some g =>
            if g.op == .step && g.stage == 1 && g.phase == .active && (getPart s g.part).busy then stopAsCommand g.part (markSteps g.part s) else s
          | none => s
      | _ => s

/-! ### Fault log (R164, R165) -/

/-- FAULT_STATUS_CLEAR: CLEAR empties the log and zeroes its counts. -/
def clearFaultLog (p : Nat) (s : State) : State := updPart p (fun x => { x with log := [], lost := 0, logMark := none }) s

/-! ### The sampler (R75 to R77) -/

/-- Outputs that the SEND of a tile waits for in this cycle, with its context: one that has been held, or that stands ready. -/
def sendWaits (s : State) (p col row : Nat) : Option (Nat × List Nat) :=
  let t := getTile s col row
  let c := t.active
  let f := fieldsOf (wordAt s { p := p, col := col, row := row, c := c, index := (t.ctx c).pc.toNat, tag := s.canopy.now })
  if (t.ctx c).heldAt == some s.canopy.now && (t.ctx c).creditHeld && f.opc == 0x29 then some (c, sendMask f) else sendWants s col row

/-- VQ_DEPTH, VAULT_Q, ACTIVE_CTX, HELD, CREDIT_WAIT and FAULTED of a tile. VQ_DEPTH is the number of entries in use (DESIGN CHOICE, log entry 44). -/
def samplerEntry (s : State) (p col row : Nat) : List W64 :=
  let t := getTile s col row
  let x := getPart s p
  let depth := (List.range 16).foldl (fun a i => a + (((t.inp (i / 4)).held (i % 4)) % 16) * 2 ^ (4 * i)) 0
  let waits (c : Nat) : Bool := c == t.active && issuable s (x.ctx c) && (match (t.ctx c).waiting with
    | some w => w.met.isNone && !waitHolds s.canopy.now t c w
    | none => false)
  let held := (List.range 4).foldl (fun a c => if (t.ctx c).heldAt == some s.canopy.now || waits c then a + 2 ^ c else a) 0
  let wait := (List.range 4).foldl (fun a o =>
    let blocked := (List.range 4).any (fun d =>
      let l := t.inp d
      (List.range 4).any (fun c => (passReady l c).isSome && routePass (routeOf s p col row c) d
        && (selecting (routeOf s p col row c) d).contains o && !hasCredit s p col row o c))
    let send := match sendWaits s p col row with
      | some (c, m) => m.contains o && !hasCredit s p col row o c
      | none => false
    if blocked || send then a + 2 ^ o else a) 0
  let faulted := (List.range 4).any (fun c => (x.ctx c).state == .faulted)
  [BitVec.ofNat 64 depth,
   BitVec.ofNat 64 (t.vq.length + 32 * (t.active % 4) + 128 * held + 2048 * wait + 32768 * b2n faulted)]

/-- The cells of a snapshot: its header, then the entries of the tiles (R77). -/
def snapshotCells (p : Nat) (s : State) : List (List W64) :=
  let x := getPart s p
  let cyc := s.canopy.now - x.start
  let header := bytesW64 (padTo 64 (leBytes 8 cyc ++ leBytes 4 (cyc / x.sampler.period) ++ leBytes 1 p ++ leBytes 1 0
    ++ leBytes 2 x.firstCol ++ leBytes 2 x.cols))
  let entries := (List.range (x.cols * 512)).flatMap (fun i => samplerEntry s p (x.firstCol + i / 512) (i % 512))
  header :: chunks 8 (x.cols * 128 + 1) entries

/-- SAMPLER_SNAPSHOT (R75, R76): at a multiple of PERIOD of a running partition's count; none is taken once the partition
has stopped (DESIGN CHOICE, log entry 44). -/
def samplerSnapshot (p : Nat) (s : State) : State :=
  let x := getPart s p
  let g := x.sampler
  if !g.enable || !x.busy || s.canopy.paused || (s.canopy.now - x.start) % g.period != 0 || g.lastAt == some s.canopy.now then s
  else if !g.draining.isEmpty then
    updPart p (fun x => { x with sampler := { x.sampler with skip := satAdd x.sampler.skip 1, lastAt := some s.canopy.now } }) s
  else
    let cells := snapshotCells p s
    updPart p (fun x => { x with sampler := { x.sampler with draining := cells, lastAt := some s.canopy.now } }) s

/-- SNAPSHOT_DRAIN (R76, R189): the next cell of a snapshot is committed to its queue, once the tail buffer has room. -/
def snapshotDrain (p : Nat) (s : State) : State :=
  let g := (getPart s p).sampler
  match g.draining with
  | [] => s
  | c :: rest =>
    if !sqReady (getQueue s g.queue) then s
    else commitCell g.queue wrSampler c (updPart p (fun x => { x with sampler := { x.sampler with draining := rest } }) s)

/-- ENABLE of SAMPLER_CTRL (R75). -/
def samplerEnable (p : Nat) (on : Bool) (s : State) : State :=
  updPart p (fun x => { x with sampler := { x.sampler with enable := on } }) s

/-! ### The deadlock watch of compatibility mode (R79) -/

/-- A link input queue of C0 is full. -/
def InLink.full0 (l : InLink) : Bool := l.depth 0 != 0 && decide (l.depth 0 ≤ l.held 0)

/-- Compatibility spill area in tokens of 16 bytes, for the COMPAT_AREA of the image (DESIGN CHOICE, log entry 44). -/
def areaCapacity (s : State) (p : Nat) : Nat :=
  let x := getPart s p
  (x.ctx 0).image.compatPages * 4096 * 32 * x.cols / 16

/-- Tokens in the compatibility spill area of a partition (DESIGN CHOICE, log entry 44). -/
def areaTokens (s : State) (p : Nat) : Nat :=
  ((partTiles s p).map (fun kv => ((List.range 4).map (fun d => (kv.2.inp d).spilled.length)).sum)).sum

/-- The contents of a queue of C0 move to the area, and their credits are freed. Tokens that have entered the queue again are
older than those still in the area, and those that arrived later are younger (R79) (DESIGN CHOICE, log entry 44). -/
def spillQueue (col row d : Nat) (s : State) : State :=
  let l := (getTile s col row).inp d
  let s := updTile col row (fun t => t.updIn d (fun l =>
    { l with spilled := l.queue 0 ++ l.spilled ++ l.behind, behind := [], queues := Table.set [] l.queues 0 [] })) s
  (List.range (l.held 0)).foldl (fun s _ => freeCredit col row d 0 s) s

/-- DEADLOCK_DETECT (R79): 4,096 cycles without an issue or a token moving, with a full queue. The tokens moved leave their
queues, so that their credits return (R56); the area they stand in is held beside the vaults (DESIGN CHOICE, log entry 44). -/
def deadlockDetect (p : Nat) (s : State) : State :=
  let x := getPart s p
  let fulls := (partTiles s p).flatMap (fun kv => ((List.range 4).filter (fun d => (kv.2.inp d).full0)).map (fun d => (kv.1, d)))
  if !(x.ctx 0).image.compat || !x.busy || s.canopy.paused || s.canopy.now < x.activity + 4096 || fulls.isEmpty then s
  else
    let n := (fulls.map (fun kd => ((Table.get {} s.canopy.tiles kd.1).inp kd.2).held 0)).sum
    if areaCapacity s p < areaTokens s p + n then
      match fulls with
      | (k, _) :: _ => raiseFault p 0x05 (k / 512) (k % 512) 0 0xFF 1 [] true s
      | [] => s
    else
      let s := fulls.foldl (fun s kd => spillQueue (kd.1 / 512) (kd.1 % 512) kd.2 s) s
      let s := updPart p (fun x => { x with activity := s.canopy.now }) s
      postOwner x.owner 0x0008 (leBytes 4 p ++ leBytes 4 n) s

/-- A moved token enters its queue again: `swap` says that the oldest token that arrived later gives it its entry and moves to
the area instead, with its credit. Once none is left in the area, those that arrived later follow (R79) (DESIGN CHOICE, log entry 44). -/
def InLink.reinject (l : InLink) (swap : Bool) : InLink :=
  match l.spilled with
  | [] => l
  | k :: rest =>
    let rest := if swap then rest ++ l.behind.take 1 else rest
    let behind := if swap then l.behind.drop 1 else l.behind
    { l with spilled := rest, behind := if rest.isEmpty then [] else behind
             queues := Table.set [] l.queues 0 (l.queue 0 ++ k :: (if rest.isEmpty then behind else [])) }

/-- DEADLOCK_REINJECT (R79): the oldest moved token of one input enters its queue again, before any that arrived later, once
there is room. It takes a credit of the link (R56), or the entry of a token that arrived later (DESIGN CHOICE, log entry 44). -/
def deadlockReinject (col row d : Nat) (s : State) : State :=
  match partOf s col with
  | none => s
  | some p =>
    let l := (getTile s col row).inp d
    let free := decide (l.held 0 < l.depth 0) && decide ((senderOf s col row d).used.getD 0 0 < l.depth 0)
    let swap := !free && !l.behind.isEmpty
    if s.canopy.paused || l.spilled.isEmpty || !(free || swap) then s
    else
      let s := if swap then s else updSender col row d (fun o => o.take 0) s
      updPart p (fun x => { x with activity := s.canopy.now })
        (updTile col row (fun t => t.updIn d (fun l => l.reinject swap)) s)

/-! ### Rows of the table -/

/-- FAULT_STATUS_CLEAR (R165). -/
def execFaultStatusClear (part : Nat) (s : State) : Host.Outcome State Fault Refusal :=
  guardUnit (decide (part < 8)) (clearFaultLog part s)

/-- SAMPLER_ENABLE (R75). -/
def execSamplerEnable (part : Nat) (on : Bool) (s : State) : Host.Outcome State Fault Refusal :=
  guardUnit (decide (part < 8)) (samplerEnable part on s)

/-- SAMPLER_SNAPSHOT (R75). -/
def execSamplerSnapshot (part : Nat) (s : State) : Host.Outcome State Fault Refusal :=
  guardUnit (decide (part < 8)) (samplerSnapshot part s)

/-- SNAPSHOT_DRAIN (R76). -/
def execSnapshotDrain (part : Nat) (s : State) : Host.Outcome State Fault Refusal :=
  guardUnit (decide (part < 8)) (snapshotDrain part s)

/-- DEADLOCK_DETECT (R79). -/
def execDeadlockDetect (part : Nat) (s : State) : Host.Outcome State Fault Refusal :=
  guardUnit (decide (part < 8)) (deadlockDetect part s)

/-- DEADLOCK_REINJECT (R79). -/
def execDeadlockReinject (col row dir : Nat) (s : State) : Host.Outcome State Fault Refusal :=
  guardUnit (isTile col row && decide (dir < 4)) (deadlockReinject col row dir s)

/-- DRAIN_EMPTY (R65). -/
def execDrainEmpty (part ctx : Nat) (s : State) : Host.Outcome State Fault Refusal :=
  guardUnit (decide (part < 8) && decide (ctx < 4)) (drainEmpty part ctx s)

/-- DRAIN_LIMIT (R65). -/
def execDrainLimit (part ctx : Nat) (s : State) : Host.Outcome State Fault Refusal :=
  guardUnit (decide (part < 8) && decide (ctx < 4)) (drainLimit part ctx s)

/-- STEP_END (R359). -/
def execStepEnd (part : Nat) (s : State) : Host.Outcome State Fault Refusal :=
  guardUnit (decide (part < 8)) (stepEnd part s)

end Sys2Proof.Machine
end

