-- ==== Sys2Proof/Machine/FabricCmds.lean ====
section
/-! DEFINITION. The fabric commands of R314. -/

namespace Sys2Proof.Machine

open Sys2Proof

/-- FPORT_POWER (R297, R298, R314). -/
def serveFportPower (f : Flight) (s : State) : State :=
  let p := f.pkt.at_ 0 1
  let mode := f.pkt.at_ 1 1
  let x := getPort s p
  if 40 ≤ p then answer f stBadParam s
  else if foreign x.owner f.sess then answer f stDenied s
  else if 1 < mode || x.role == 0 || (linkPorts s f.pkt).contains p then answer f stBadParam s
  else
    let s := updPort p (fun x => { x with autoWake := f.pkt.bits 2 0 1 == 1 }) s
    if mode == 1 then
      if x.power == .active then updPort p (fun x => { x with power := .entering, entered := s.clk.tticks }) s
      else if x.txAsleep then complete f.id { status := stOk, isPartial := !x.rxAsleep } s
      else s
    else
      let s := if x.power == .active then s else wakePort p s
      let x := getPort s p
      if x.txState == .up && x.rxState == .up then answerOk f s else s

/-- Lanes of a port that would be left to it: receive lanes not FAILED (DEDUCED, log entry 34). -/
def lanesLeft (x : FPort) (except_ : Nat) : Bool := (List.range 9).any (fun l => l != except_ && !(x.lane l).failed)

/-- LANE_CONTROL (R314) (DEDUCED, log entry 34). -/
def serveLaneControl (f : Flight) (s : State) : State :=
  let p := f.pkt.at_ 0 1
  let l := f.pkt.at_ 1 1
  let a := f.pkt.at_ 2 1
  let x := getPort s p
  if 40 ≤ p then answer f stBadParam s
  else if foreign x.owner f.sess then answer f stDenied s
  else if 8 < l || 2 < a then answer f stBadParam s
  else if (linkPorts s f.pkt).contains p && a != 2 && !lanesLeft x l then answer f stBadParam s
  else
    let act (k : Lane) : Lane :=
      if a == 1 then { k.leaveSearch with failed := true, rx := .off }
      else
        let k := if a == 2 then { k with failed := false } else k
        if x.role == 0 || x.power == .deep then k
        else if a == 2 then (if k.rx == .off then { k with rx := .acquire, good := 0, counted := false } else k)
        else { k.leaveSearch with tx := startTx (lasersLit s), rx := if k.failed then .off else .acquire, good := 0, counted := false }
    answerOk f (settlePort p (updPort p (fun x => (x.updLane l act).nextOffset s.clk.tticks) s))

/-- FABRIC_CONFIG (R305, R309, R314). -/
def serveFabricConfig (f : Flight) (s : State) : State :=
  let c : BitVec 16 := BitVec.ofNat 16 (f.pkt.at_ 0 2)
  let z : BitVec 16 := BitVec.ofNat 16 (f.pkt.at_ 2 2)
  let bridge := f.pkt.bits 4 0 1 == 1
  let ms : List (BitVec 16) := (chunks 2 2081 f.pkt.payload).map (fun b => BitVec.ofNat 16 (leNat b))
  let sz := { s with fabric := { s.fabric with sizes := z } }
  let ports := (List.range 40).map (getPort s)
  if ports.any (fun x => (x.role == roleTorus || x.role == roleExtra) && foreign x.owner f.sess) then answer f stDenied s
  else if !inSizes sz c || ms.any (fun m => !inSizes sz m) || f.pkt.payload.length % 2 == 1
      || (bridge && (!ports.any (fun x => x.role == roleHost) || ms.isEmpty || decide (64 < ms.length) || !ms.contains c))
      || s.fabric.channels.any (fun kv => kv.2.enabled) then answer f stBadParam s
  else answerOk f { s with fabric := { s.fabric with coord := some c, sizes := z, isBridge := bridge, members := ms } }

/-- An image bound to endpoint unit 6 or 7 of a channel is loaded. -/
def channelBound (s : State) (k : Nat) : Bool := (boundTo s 6 k).isSome || (boundTo s 7 k).isSome

/-- REDUCE_GROUP (R311, R314). -/
def serveReduceGroup (f : Flight) (s : State) : State :=
  let k := f.pkt.at_ 0 1
  let on := f.pkt.bits 1 0 1 == 1
  let box : W32 := BitVec.ofNat 32 (f.pkt.at_ 2 4)
  let x := getChan s k
  if 64 ≤ k then answer f stBadParam s
  else if foreign x.owner f.sess then answer f stDenied s
  else
    match s.fabric.coord with
    | none => answer f stBadParam s
    | some c =>
      if (List.range 4).any (fun j => decide (sizeOf s j < boxLen box j)) || !inBox s box c || channelBound s k then
        answer f stBadParam s
      else if on then
        answerOk f (updChan k (fun x => ({ enabled := true, owner := some (x.owner.getD f.sess), box := box } : Channel)) s)
      else answerOk f (updChan k (fun _ => ({ box := box } : Channel)) s)

end Sys2Proof.Machine
end

