-- ==== Sys2Proof/Machine/Image.lean ====
section
/-! DEFINITION. LOAD_IMAGE: the image format, its load-time checks, and what a load writes (R60, R67, R68, R78, R149, R157 to R162, R181, R356). -/

namespace Sys2Proof.Machine

open Sys2Proof

/-! ### The format (R157 to R159) -/

/-- Entry size of a section type, 0 for no such type. -/
def sectionSize (ty : Nat) : Nat :=
  match ty with
  | 1 => 768 | 2 => 16 | 3 => 4 | 4 => 8 | 5 => 32 | 6 => 8 | 7 => 16 | 8 => 16 | 9 => 8 | 10 => 8 | 11 => 8 | _ => 0

/-- An entry of the section table. -/
structure Section where
  ty : Nat
  reserved : Nat
  count : Nat
  offset : Nat
  deriving DecidableEq, Repr

/-- The section table. -/
def sectionsOf (b : List Byte) : List Section :=
  (List.range (min (leAt b 28 4) ((b.length - 256) / 16))).map (fun i =>
    let o := 256 + 16 * i
    { ty := leAt b o 2, reserved := leAt b (o + 2) 2, count := leAt b (o + 4) 4, offset := leAt b (o + 8) 8 })

/-- Entries of a section, none where it is absent. -/
def entriesOf (b : List Byte) (ty : Nat) : List (List Byte) :=
  match (sectionsOf b).find? (fun x => x.ty == ty) with
  | some x => (List.range x.count).map (fun i => slice b (x.offset + i * sectionSize ty) (sectionSize ty))
  | none => []

/-- A SCRATCH_INIT entry. -/
structure ScrInit where
  colFirst : Nat
  colLast : Nat
  rowFirst : Nat
  rowLast : Nat
  word : Nat
  words : Nat
  offset : Nat
  deriving DecidableEq, Repr

/-- Entries as R159 lays them out. -/
def mapEntryOf (e : List Byte) : MapEntry :=
  { colFirst := leAt e 0 2, colLast := leAt e 2 2, rowFirst := leAt e 4 2, rowLast := leAt e 6 2
    code := leAt e 8 2, route := leAt e 10 2, split := leAt e 12 2, sched := leAt e 14 2 }
def edgePortOf (e : List Byte) : EdgePort := { col := leAt e 0 2, side := leAt e 2 1, unit := leAt e 7 1, index := leAt e 4 2 }
def vrangeOf (e : List Byte) : VRange :=
  { colFirst := leAt e 0 2, colLast := leAt e 2 2, segFirst := leAt e 4 1, segLast := leAt e 5 1, pageFirst := leAt e 6 2, pageLast := leAt e 8 2 }
def declOf (e : List Byte) : Decl := { inEntry := leAt e 0 2, outEntry := leAt e 2 2, cycles := leAt e 4 4 }
def scrInitOf (e : List Byte) : ScrInit :=
  { colFirst := leAt e 0 2, colLast := leAt e 2 2, rowFirst := leAt e 4 2, rowLast := leAt e 6 2
    word := leAt e 8 2, words := leAt e 10 2, offset := leAt e 12 4 }

/-- What becomes resident of an image. -/
def imageOf (b : List Byte) : Image :=
  { fixedClass := (leAt b 19 1).testBit 0, compat := leAt b 16 2 == 0x5100, scratchBase := leAt b 25 1, granules := leAt b 26 2
    code := (entriesOf b 1).map (fun e => (chunks 12 65 e).map (fun w => BitVec.ofNat 96 (leNat w)))
    tiles := (entriesOf b 2).map mapEntryOf
    routes := (entriesOf b 3).map (fun e => BitVec.ofNat 32 (leNat e))
    scheds := (entriesOf b 5).map (fun e => BitVec.ofNat 256 (leNat e))
    ports := (entriesOf b 6).map edgePortOf
    ranges := (entriesOf b 8).map vrangeOf
    decls := (entriesOf b 9).map declOf
    compatPages := ((entriesOf b 10).map (fun e => leAt e 0 2)).headD 0
    layers := ((entriesOf b 11).map (fun e => leAt e 0 4)).headD 0 }

/-- SPLIT entries: the four depths of each of the four links. -/
def splitsOf (b : List Byte) : List (List (List Nat)) :=
  (entriesOf b 4).map (fun e => (List.range 4).map (fun d => (List.range 4).map (fun c => leNat e / 2 ^ (16 * d + 4 * c) % 16)))

/-- Split that an image states for a tile's links, none where it leaves them (R52, R159). -/
def splitAt (im : Image) (splits : List (List (List Nat))) (rc row : Nat) : Option (List (List Nat)) :=
  (im.entry rc row).bind (fun e => blockAt splits e.split)

/-- Tiles of the rectangles of the tile map, each where the entry governs it. -/
def governed (im : Image) (cols : Nat) : List (Nat × Nat) :=
  im.tiles.flatMap (fun e =>
    (List.range (min (e.colLast + 1) cols - e.colFirst)).flatMap (fun i =>
      ((List.range (min (e.rowLast + 1) 512 - e.rowFirst)).map (fun j => (e.colFirst + i, e.rowFirst + j))).filter (fun t => im.entry t.1 t.2 == some e)))

/-! ### The checks -/

/-- Header conditions that R356 tests before R67. -/
def headerBad (b : List Byte) (len : Nat) : Bool :=
  decide (len < 256) || leAt b 0 4 != 0x4E524F57 || leAt b 4 2 != 1 || leAt b 6 2 != 256 || leAt b 32 8 != len || 3 < leAt b 18 1

/-- An index of a tile map or declaration that points past its section. -/
def indexBad (i n : Nat) : Bool := i != 0xFFFF && decide (n ≤ i)

/-- The remaining Malformed conditions of R161 (DESIGN CHOICE, log entry 44). -/
def malformed (b : List Byte) : Bool :=
  let ss := sectionsOf b
  let n := b.length
  let has (ty : Nat) : Bool := ss.any (fun x => x.ty == ty)
  let count (ty : Nat) : Nat := (entriesOf b ty).length
  let im := imageOf b
  leAt b 26 2 == 0 || 4 ≤ leAt b 19 1 || !allZero (slice b 41 3) || !allZero (slice b 48 48) || !allZero (slice b 240 16)
  || n < 256 + 16 * leAt b 28 4
  || ss.any (fun x => sectionSize x.ty == 0 || x.reserved != 0 || n < x.offset + x.count * sectionSize x.ty)
  || ss.any (fun x => 1 < (ss.filter (fun y => y.ty == x.ty)).length)
  || !has 1 || !has 2
  || im.tiles.any (fun e => indexBad e.code (count 1) || indexBad e.route (count 3) || indexBad e.split (count 4) || indexBad e.sched (count 5))
  || (entriesOf b 3).any (fun e => 65536 ≤ leNat e)
  || (entriesOf b 6).any (fun e => leAt e 3 1 != 0 || leAt e 6 1 != 0 || leAt e 7 1 == 0 || 8 < leAt e 7 1)
  || (entriesOf b 7).any (fun e => n < leAt e 12 4 + 8 * leAt e 10 2)
  || (entriesOf b 8).any (fun e => leAt e 10 6 != 0)
  || im.decls.any (fun d => indexBad d.inEntry (count 6) || indexBad d.outEntry (count 6))
  || (entriesOf b 10).any (fun e => leAt e 2 6 != 0)
  || (entriesOf b 11).any (fun e => leAt e 4 4 != 0)

/-- Keys of a profile that are used (R387). -/
def profileKeys (prof : List Byte) : List (List Byte) :=
  ((List.range 4).map (fun i => slice prof (256 + 96 * i) 96)).filter (fun k => !allZero k && k.length == 96)

/-- FLAGS of the profile in force. -/
def profileFlag (s : State) (i : Nat) : Bool := (leAt s.boot.profile 6 1).testBit i

/-- Digest or signature case. -/
def signatureBad (b : List Byte) (s : State) : Bool :=
  let signed := (leAt b 19 1).testBit 1
  sha384 (b.drop 256) != slice b 96 48
    || (if signed then
          !(profileKeys s.boot.profile).any (fun k => ecdsaVerify k (sha384 (b.take 144)) (beAt b 144 48) (beAt b 192 48))
        else !profileFlag s 1)

/-- Split in force on a link once the load completes. -/
def splitAfter (s : State) (im : Image) (splits : List (List (List Nat))) (firstCol rc row d : Nat) : List Nat :=
  match splitAt im splits rc row with
  | some sp => sp.getD d []
  | none => ((getTile s (firstCol + rc) row).inp d).split

/-- Compatibility case (R78). An image for the device is not held to the conditions of a compatibility image that is resident
in C0 (DESIGN CHOICE, log entry 44). -/
def compatBad (b : List Byte) (p : Nat) (s : State) : Bool :=
  let target := leAt b 16 2
  let x := getPart s p
  let im := imageOf b
  let area := (sectionsOf b).any (fun x => x.ty == 10)
  if target == 0x9400 then area
  else if target == 0x5100 then
    let bytes := im.compatPages * 4096 * 32 * x.cols
    !area || 4 < x.bays || x.padded || leAt b 18 1 != 0 || im.fixedClass || bytes < 2 ^ 20 || 2 ^ 28 < bytes
      || (List.range 4).any (fun c => c != 0 && (x.ctx c).state.resident)
      || (List.range x.cols).any (fun rc => (List.range 512).any (fun row => (List.range 4).any (fun d =>
        splitAfter s im (splitsOf b) x.firstCol rc row d != [8, 0, 0, 0])))
  else true

/-- Shape case. -/
def shapeBad (b : List Byte) (p : Nat) (s : State) : Bool :=
  let x := getPart s p
  leAt b 24 1 != x.bays || leAt b 21 1 != b2n x.byteMode || 64 < leAt b 40 1 || 1048576 < leAt b 44 4

/-- Latency class case. -/
def latencyBad (b : List Byte) (p : Nat) (s : State) : Bool :=
  let x := getPart s p
  let im := imageOf b
  leAt b 20 1 != b2n x.padded || (im.fixedClass && (!x.padded || !profileFlag s 0))
    || (im.fixedClass && im.decls.isEmpty) || (!im.fixedClass && (sectionsOf b).any (fun x => x.ty == 9))
    || im.decls.any (fun d => d.cycles == 0 || decide (480 < d.cycles))

/-- A route code is invalid (R159). -/
def routeBad (r : Nat) : Bool :=
  (List.range 4).any (fun d =>
    let c := r / 8 ^ d % 8
    c == 2 || c == 3 || c == 4 + d)

/-- A link that the tile's route uses, as an output or as the source of one, crosses the partition's boundary or is no bound edge
port. -/
def linkRefused (im : Image) (x : Partition) (rc row d : Nat) : Bool :=
  match edgeSide row d with
  | some side => (im.portAt rc side).isNone
  | none => (d == 1 && decide (x.cols ≤ rc + 1)) || (d == 3 && rc == 0)

/-- A route of a tile that R54 refuses. -/
def routeRefused (s : State) (im : Image) (splits : List (List (List Nat))) (x : Partition) (c rc row : Nat) : Bool :=
  let r := im.routeAt rc row
  let outs := (List.range 4).filter (fun d => fldN r (3 * d) 3 != 0)
  let sources := (List.range 4).filter (fun i => !(selecting r i).isEmpty)
  (outs ++ sources).any (linkRefused im x rc row)
    || outs.any (fun d =>
      if (edgeSide row d).isSome then false
      else
        let rc' := if d == 1 then rc + 1 else if d == 3 then rc - 1 else rc
        let row' := if d == 0 then row - 1 else if d == 2 then row + 1 else row
        (splitAfter s im splits x.firstCol rc' row' (opposite d)).getD c 0 == 0)

/-- Two bindings are of one endpoint: the data and the tag endpoint of an ingress endpoint both read its queue (R60, R181, R242). -/
def sameEndpoint (e g : EdgePort) : Bool := g.unit == e.unit && (g.index == e.index || (e.unit == 8 && g.index % 16 == e.index % 16))

/-- A load that has passed its checks binds the endpoint when it completes (R60, R68) (DEDUCED, log entry 36). -/
def boundByLoad (s : State) (e : EdgePort) : Bool :=
  s.host.flights.any (fun g => g.op == .loadImage && g.phase == .active && g.stage == 1
    && (imageOf g.bytes).ports.any (sameEndpoint e))

/-- A resident context's binding of an endpoint, but for the context that is loaded. -/
def boundElsewhere (s : State) (p c : Nat) (e : EdgePort) : Bool :=
  boundByLoad s e || (List.range 8).any (fun p' =>
    let x := getPart s p'
    x.valid && (List.range 4).any (fun c' => !(p' == p && c' == c) && (x.ctx c').state.resident
      && (x.ctx c').image.ports.any (fun g => sameEndpoint e g || (p' == p && g.col == e.col && g.side == e.side))))

/-- An ensemble that a MAC's extractor feeds (R278, R60). -/
def extractorFeeds (s : State) (first : Nat) : Bool := s.eth.macs.any (fun kv => kv.2.conf.extract.first == some first)

/-- An enabled ingress endpoint has the queue (R242). -/
def ingressOf (s : State) (q : Nat) : Bool := (List.range 16).any (fun i => (getStream s i).enable && (getStream s i).queue == q)

/-- An endpoint outside the session's ownership (R60, R181, R218, R242, R342). -/
def endpointRefused (s : State) (session : Nat) (im : Image) (e : EdgePort) : Bool :=
  let q := getQueue s (e.index % 256)
  match e.unit with
  | 1 => 511 < e.index || foreign q.owner session || ingressOf s (e.index % 256)
      || (if e.index < 256 then q.writer != wrCanopy else q.writer != wrCanopy && q.reader != rdCanopy)
  | 2 => 255 < e.index || foreign q.owner session || ingressOf s (e.index % 256) || q.reader != rdCanopy
  | 3 | 4 =>
    (getEns s e.index).engines == 0 || extractorFeeds s e.index
      || (List.range (getEns s e.index).engines).any (fun i => foreign (getEngine s (e.index + i)).owner session)
  | 5 => 63 < e.index || foreign s.trig.owner session
  | 6 | 7 => 63 < e.index || foreign (getChan s e.index).owner session
  | 8 =>
    let t := getStream s (e.index % 16)
    31 < e.index || foreign s.trig.owner session
      || (t.enable && (foreign (getQueue s t.queue).owner session || (getQueue s t.queue).reader != rdCanopy || im.ports.any (fun g => g.unit == 2 && g.index == t.queue)))
  | _ => true

/-- Placement case. -/
def placementBad (b : List Byte) (p c session : Nat) (s : State) : Bool :=
  let x := getPart s p
  let im := imageOf b
  let splits := splitsOf b
  let has (ty : Nat) : Bool := (sectionsOf b).any (fun x => x.ty == ty)
  im.tiles.any (fun e => x.cols ≤ e.colLast || x.cols ≤ e.colFirst || 511 < e.rowLast || 511 < e.rowFirst)
    || ((entriesOf b 7).map scrInitOf).any (fun e => x.cols ≤ e.colLast || x.cols ≤ e.colFirst || 511 < e.rowLast || 511 < e.rowFirst)
    || im.ranges.any (fun r => x.cols ≤ r.colLast || x.cols ≤ r.colFirst || 31 < r.segLast || 31 < r.segFirst)
    || im.routes.any (fun r => routeBad r.toNat)
    || splits.any (fun sp => sp.any (fun d => d.sum != 8))
    || (x.byteMode && has 5) || (!x.byteMode && has 8)
    || (governed im x.cols).any (fun t => routeRefused s im splits x c t.1 t.2)
    || im.ports.any (fun e => x.cols ≤ e.col || 1 < e.side || boundElsewhere s p c e || endpointRefused s session im e)
    || im.ports.any (fun e => 1 < (im.ports.filter (fun g => g.unit == e.unit && g.index == e.index)).length
        || 1 < (im.ports.filter (fun g => g.col == e.col && g.side == e.side)).length)

/-- Two vault ranges of a partition share a page. -/
def rangesMeet (a r : VRange) : Bool :=
  decide (max a.colFirst r.colFirst ≤ min a.colLast r.colLast) && decide (max a.segFirst r.segFirst ≤ min a.segLast r.segLast)
    && decide (max a.pageFirst r.pageFirst ≤ min a.pageLast r.pageLast)

/-- A vault range of a partition meets a queue's region. -/
def rangeMeetsRegion (firstCol : Nat) (r : VRange) (q : Spill) : Bool :=
  decide (0 < q.vaults) && decide (r.pageFirst ≤ r.pageLast)
    && decide (max r.pageFirst q.firstPage < min (r.pageLast + 1) (q.firstPage + q.pages))
    && (List.range (r.colLast + 1 - r.colFirst)).any (fun i =>
      let v := 32 * (firstCol + r.colFirst + i)
      decide (max (v + r.segFirst) q.firstVault < min (v + r.segLast + 1) (q.firstVault + q.vaults)))

/-- First page of the compatibility spill area of a partition, or the vault's end where there is none (DESIGN CHOICE, log entry 44). -/
def areaStart (s : State) (x : Partition) : Nat :=
  let n := vaultWords s / 128
  (List.range 4).foldl (fun a c =>
    let k := x.ctx c
    if k.state.resident && k.image.compat then min a (n - k.image.compatPages) else a) n

/-- Ownership case. -/
def ownershipBad (b : List Byte) (p c : Nat) (s : State) : Bool :=
  let x := getPart s p
  let im := imageOf b
  let others := ((List.range 4).filter (fun c' => c' != c && (x.ctx c').state.resident)).map (fun c' => (x.ctx c').image)
  let pages := vaultWords s / 128
  let own := if im.compat then pages - im.compatPages else pages
  decide (128 < im.scratchBase + im.granules)
    || (x.byteMode && others.any (fun o => decide (max o.scratchBase im.scratchBase < min (o.scratchBase + o.granules) (im.scratchBase + im.granules))))
    || (x.byteMode && im.ranges.any (fun r =>
        others.any (fun o => o.ranges.any (fun a => rangesMeet a r))
          || s.queues.any (fun kq => rangeMeetsRegion x.firstCol r kq.2) || decide (min (areaStart s x) own ≤ r.pageLast)))
    || im.ranges.any (fun r => decide (pages ≤ r.pageLast) || decide (pages ≤ r.pageFirst))
    || (List.range x.cols).any (fun rc => (List.range 32).any (fun g => decide (4 < (im.ranges.filter (fun r =>
        decide (r.colFirst ≤ rc) && decide (rc ≤ r.colLast) && decide (r.segFirst ≤ g) && decide (g ≤ r.segLast))).length)))
    || ((entriesOf b 7).map scrInitOf).any (fun e =>
        decide (e.word < 8 * im.scratchBase) || decide (8 * (im.scratchBase + im.granules) < e.word + e.words))

/-- The case of R161 that refuses an image, none when it is accepted. -/
def imageRefused (b : List Byte) (p c session : Nat) (s : State) : Option Nat :=
  if malformed b then some stBadParam
  else if signatureBad b s then some stSignature
  else if leAt b 22 2 != 1 then some stLatency
  else if compatBad b p s then some stGeometry
  else if shapeBad b p s then some stGeometry
  else if latencyBad b p s then some stLatency
  else if placementBad b p c session s then some stGeometry
  else if ownershipBad b p c s then some stGeometry
  else none

/-- A link's split changes while it, or another context of the partition, is busy (R67). -/
def splitBusy (b : List Byte) (p c : Nat) (s : State) : Bool :=
  let x := getPart s p
  let im := imageOf b
  let splits := splitsOf b
  let running := (List.range 4).any (fun c' => c' != c && (x.ctx c').state.issues)
  (governed im x.cols).any (fun t =>
    match splitAt im splits t.1 t.2 with
    | none => false
    | some sp => (List.range 4).any (fun d =>
      let l := (getTile s (x.firstCol + t.1) t.2).inp d
      sp.getD d [] != l.split && (running || (List.range 4).any (fun k => !(l.queue k).isEmpty))))

/-! ### What a load writes (R68, R162) -/

/-- Clear the written bits of an allocation and set the sequence counters of a context to 0 in a tile. -/
def clearTile (im : Image) (c : Nat) (t : Tile) : Tile :=
  let t := { t with scratch := Table.mapAll {} (fun w x =>
    if 8 * im.scratchBase ≤ w && w < 8 * (im.scratchBase + im.granules) then { x with written := false } else x) t.scratch }
  t.updCtx c (fun y => { y with dseqA := 0, dseqB := 0, cseq := 0 })

/-- Apply a SCRATCH_INIT entry. -/
def applyInit (b : List Byte) (x : Partition) (e : ScrInit) (s : State) : State :=
  let ws := bytesW64 (slice b e.offset (8 * e.words))
  (List.range (e.colLast + 1 - e.colFirst)).foldl (fun s i => (List.range (e.rowLast + 1 - e.rowFirst)).foldl (fun s j =>
    updTile (x.firstCol + e.colFirst + i) (e.rowFirst + j) (fun t =>
      (ws.zipIdx).foldl (fun t wi => t.setWord (e.word + wi.2) { data := wi.1, written := true }) t) s) s) s

/-- The effect of an accepted image. -/
def installImage (b : List Byte) (p c : Nat) (s : State) : State :=
  let im := imageOf b
  let x := getPart s p
  let splits := splitsOf b
  let s := mapTiles p (clearTile im c) s
  let s := ((entriesOf b 7).map scrInitOf).foldl (fun s e => applyInit b x e s) s
  let s := (governed im x.cols).foldl (fun s t =>
    match splitAt im splits t.1 t.2 with
    | some sp => updTile (x.firstCol + t.1) t.2 (fun u => (List.range 4).foldl (fun u d => u.updIn d (fun l => { l with split := sp.getD d l.split })) u) s
    | none => s) s
  updPart p (fun x => x.updCtx c (fun k =>
    { k with state := .loaded, faultCount := 0, imageId := BitVec.ofNat 64 (leAt b 8 8), image := im, tail := none, lastIssue := none
             drainEnd := none })) s

/-! ### The command -/

/-- LOAD_IMAGE: it becomes a stepped operation (R345). -/
def serveLoadImage (f : Flight) (s : State) : State :=
  updFlight f.id (fun f => { f with phase := .active, total := loadLen f }) s

/-- Cases 1 to 3 of R356. -/
def loadRefused (f : Flight) (s : State) : Option Nat :=
  let p := f.part
  let parts := rangeParts s (loadAddr f) (loadBytes f)
  if !partDefined s p || loadLen f == 0 || !rangeValid s (loadAddr f) (loadBytes f) then some stBadParam
  else if partForeign s p f.sess || parts.any (fun q => partForeign s q f.sess) then some stDenied
  else if parts.any (fun q => (getPart s q).busy) then some stBadParam
  else none

/-- The cases of R67 for a load into a context. -/
def loadBusy (b : List Byte) (p c : Nat) (s : State) : Bool :=
  let st := ((getPart s p).ctx c).state
  st.issues || st == .faulted || tokensPresent s p c || splitBusy b p c s

/-- The first step of a LOAD_IMAGE ends: its image has been read and is checked, and the context becomes LOADING (DEDUCED, log entry 36). -/
def loadCheck (f : Flight) (s : State) : State :=
  let b := f.bytes.take (loadLen f)
  let p := f.part
  let c := leAt b 18 1
  let refused (st : Nat) : State := complete f.id { status := st, progress := loadLen f } s
  if headerBad b (loadLen f) then refused stBadParam
  else if loadBusy b p c s then refused stNotEmpty
  else
    match imageRefused b p c f.sess s with
    | some st => refused st
    | none =>
      updFlight f.id (fun f => { f with acc := [c], bytes := b, stage := 1 })
        (updPart p (fun x => x.updCtx c (fun k => { k with state := .loading, image := { layers := (imageOf b).layers }, tail := none, drainEnd := none })) s)

/-- A LOAD_IMAGE goes on: in its first step it reads its image word by word, in its final one the context becomes LOADED (R162, R349) (DEDUCED, log entry 11). -/
def stepLoadImage (f : Flight) (s : State) : State :=
  if f.stage == 0 then
    match loadRefused f s with
    | some st => answer f st s
    | none =>
      let s := readImage f s
      match imageRead s f with
      | some g => loadCheck g s
      | none => s
  else complete f.id { status := stOk, progress := loadLen f } (installImage f.bytes f.part (f.acc.getD 0 0) s)

end Sys2Proof.Machine
end

