-- ==== Sys2Proof/Machine/MemCmds.lean ====
section
/-! DEFINITION. Memory commands and spill-queue commands (R176, R180, R185, R191, R192, R246, R360, R361). -/

namespace Sys2Proof.Machine

open Sys2Proof

/-- A step size the spec leaves open: at least one unit, at most those remaining (DEDUCED, log entry 11; DESIGN CHOICE, log entry 3). -/
def stepSize (remaining : Nat) (s : State) : Nat × State :=
  let r := takeFree s
  (1 + r.1 % max 1 remaining, r.2)

/-! ### Memory commands (R360) -/

/-- Length of a memory command. -/
def memLen (f : Flight) : Nat := if f.op == .memWrite then f.pkt.payload.length else f.pkt.at_ 8 8

/-- A page of a range lies in a vault of a busy partition, outside spill-queue regions. -/
def pageBusy (s : State) (page : Nat) : Bool :=
  let v := page / 8192
  match partOf s (v / 32) with
  | some p => (getPart s p).busy && !inSpillRegion s v (page % 8192)
  | none => false

/-- The tests of R360 on a range. -/
def rangeRefused (f : Flight) (a n : Nat) (s : State) : Option Nat :=
  if n == 0 || !rangeValid s a n then some stBadParam
  else if (rangeParts s a n).any (fun p => partForeign s p f.sess) then some stDenied
  else if (rangeParts s a n).any (fun p => (getPart s p).busy)
      && (List.range ((a + n - 1) / 4096 + 1 - a / 4096)).any (fun i => pageBusy s (a / 4096 + i)) then some stBadParam
  else none

/-- The tests of R360. -/
def memRefused (f : Flight) (s : State) : Option Nat := rangeRefused f (memAddr f) (memLen f) s

/-- A memory command: its tests, then steps. -/
def serveMem (f : Flight) (s : State) : State :=
  match memRefused f s with
  | some st => answer f st s
  | none => updFlight f.id (fun f => { f with phase := .active, total := memLen f }) s

/-- MEM_READ, MEM_WRITE, MEM_FILL and SCRUB (R360). -/
def serveMemRead (f : Flight) (s : State) : State := serveMem f s
def serveMemWrite (f : Flight) (s : State) : State := serveMem f s
def serveMemFill (f : Flight) (s : State) : State := serveMem f s
def serveScrub (f : Flight) (s : State) : State := serveMem f s

/-- Progress of a memory command by one word, which completes at the end of its range. -/
def memProgress (f : Flight) (s : State) : State :=
  let n := f.progress + 32
  if n < f.total then updFlight f.id (fun g => { g with progress := n, stepLeft := f.stepLeft }) s
  else complete f.id { status := stOk, progress := f.total } s

/-- The size of a step of a memory command is settled as it begins (DEDUCED, log entry 11). -/
def beginStep (f : Flight) (s : State) : Flight × State :=
  if 0 < f.stepLeft then (f, s)
  else
    let r := stepSize ((f.total - f.progress - f.bytes.length) / 32) s
    ({ f with stepLeft := r.1 }, updFlight f.id (fun g => { g with stepLeft := r.1 }) r.2)

/-- A memory command goes on by one word of its step, which ends with the last of them (DEDUCED, log entries 11, 26). -/
def memStep (f : Flight) (effect : Flight → Nat → State → State) (s : State) : State :=
  let r := beginStep f s
  accessNext r.1 (effect { r.1 with stepLeft := r.1.stepLeft - 1 }) r.2

/-- A MEM_WRITE or MEM_FILL writes a word. -/
def stepMemWrite (f : Flight) (s : State) : State :=
  memStep f (fun f a s => memProgress f (writeWord (devVault a) (devWord a) (slice f.pkt.payload f.progress 32) false s)) s
def stepMemFill (f : Flight) (s : State) : State :=
  memStep f (fun f a s => memProgress f (writeWord (devVault a) (devWord a) (f.pkt.bytes 16 32) false s)) s

/-- A SCRUB scrubs a word (R176). -/
def stepScrub (f : Flight) (s : State) : State :=
  memStep f (fun f a s => memProgress f (scrubWord (devVault a) (devWord a) s)) s

/-- A MEM_READ reads device memory word `a` into `bytes`. `acc` holds the count of poisoned words and, once there is one, the
address of the first. -/
def readMem (f : Flight) (a : Nat) (s : State) : Flight × State :=
  let r := readWord (devVault a) (devWord a) srcHost s
  let first := match f.acc[1]? with
    | some x => [x]
    | none => if r.1.2 then [32 * a] else []
  ({ f with bytes := f.bytes ++ r.1.1, acc := (f.acc.getD 0 0 + b2n r.1.2) :: first }, r.2)

/-- Send what a MEM_READ has read: each 4,096 bytes that are not its last in a reply with MORE set, and the rest in the
terminal reply once the range has been read (R337, R360). -/
def sendRead : Nat → Flight → State → State
  | 0, f, s => updFlight f.id (fun _ => f) s
  | n + 1, f, s =>
    if f.progress + f.bytes.length < f.total || decide (4096 < f.bytes.length) then
      if f.bytes.length < 4096 then updFlight f.id (fun _ => f) s
      else
        let g := { f with progress := f.progress + 4096, bytes := f.bytes.drop 4096 }
        sendRead n g (sendMore f 0x0300 { status := stOk, progress := g.progress, payload := f.bytes.take 4096 } s)
    else
      let where_ := match f.acc[1]? with
        | some x => x
        | none => 0xFFFFFFFFFF
      complete f.id { status := stOk, progress := f.total, payload := f.bytes
                      result := leBytes 4 (f.acc.getD 0 0) ++ List.replicate 4 0 ++ leBytes 8 where_ } (updFlight f.id (fun _ => f) s)

/-- A MEM_READ reads a word. -/
def stepMemRead (f : Flight) (s : State) : State := memStep f (fun f a s => let r := readMem f a s; sendRead 2 r.1 r.2) s


/-! ### Spill-queue commands (R361) -/

/-- Queue of a spill-queue command. -/
def Flight.queue (f : Flight) : Nat := f.pkt.at_ 0 1

/-- A spill-queue command on a queue that another session does not own (R191). -/
def withQueue (f : Flight) (s : State) (k : Spill → State) : State :=
  let x := getQueue s f.queue
  if foreign x.owner f.sess then answer f stDenied s else k x

/-- A control command, refused on the ingress queue of an enabled endpoint (R246). The control word of an image that falls in
the same cycle acts first (R186) (DEDUCED, log entry 45). -/
def withControl (f : Flight) (s : State) (k : Spill → State → State) : State :=
  withQueue f s (fun _ =>
    if ingressOf s f.queue then answer f stBadParam s
    else
      let s := sqControlWord f.queue s
      k (getQueue s f.queue) s)

/-- A region that R180 refuses (DEDUCED, log entry 16). -/
def regionBad (q : Nat) (y : Spill) (s : State) : Bool :=
  if y.vaults == 0 then false
  else
    let others := s.queues.filter (fun kv => kv.1 != q && kv.2.vaults != 0)
    let size := y.vaults * y.pages
    decide (logicalVaults s < y.firstVault + y.vaults) || decide (vaultWords s / 128 < y.firstPage + y.pages) || y.pages == 0
      || decide (262144 < size) || decide (2 ^ 24 < (others.map (fun kv => kv.2.vaults * kv.2.pages)).sum + size)
      || others.any (fun kv => decide (max y.firstVault kv.2.firstVault < min (y.firstVault + y.vaults) (kv.2.firstVault + kv.2.vaults))
          && decide (max y.firstPage kv.2.firstPage < min (y.firstPage + y.pages) (kv.2.firstPage + kv.2.pages)))
      || (List.range 8).any (fun p =>
          let x := getPart s p
          x.valid &&
            ((x.byteMode && (List.range 4).any (fun c => (x.ctx c).state.resident && (x.ctx c).image.ranges.any (fun r => rangeMeetsRegion x.firstCol r y)))
             || (decide (areaStart s x < y.firstPage + y.pages)
                 && decide (max y.firstVault (32 * x.firstCol) < min (y.firstVault + y.vaults) (32 * (x.firstCol + x.cols))))))

/-- SQ_CONFIG (R180, R181, R191). -/
def serveSqConfig (f : Flight) (s : State) : State :=
  withQueue f s (fun x =>
    let p := f.pkt
    let w := p.bits 1 0 3
    let r := p.bits 1 3 3
    let y : Spill := { x with
      writer := w, reader := r, circular := p.bits 1 6 1 == 1, firstVault := p.at_ 2 2, vaults := p.at_ 4 2
      firstPage := p.at_ 6 2, pages := p.at_ 8 2, owner := some (x.owner.getD f.sess) }
    if 5 < w || 3 < r || p.bits 1 7 1 == 1 || ingressOf s f.queue || x.wr != x.rel || !x.assembly.isEmpty || !x.incoming.isEmpty || !x.arrived.isEmpty || queueBound s f.queue
        || regionBad f.queue y s then answer f stBadParam s
    else answerOk f (updQueue f.queue (fun _ => y.reset) s))

/-- Cells of an SQ_WRITE's payload. -/
def writeCells (f : Flight) : List (List W64) := (chunks 64 65 f.pkt.payload).map bytesW64

/-- Offer the next cell of an SQ_WRITE: none where the host is the writer and the tail buffer is full (R189). -/
def offerCell (f : Flight) (s : State) : Option (Flight × State) :=
  let x := getQueue s f.queue
  if x.writer == wrHost && !sqReady x then none
  else
    let s := arriveCell f.queue { source := wrHost, cell := cellOf ((writeCells f).getD f.progress []), flight := some f.id } s
    some ({ f with progress := f.progress + 1 }, updFlight f.id (fun g => { g with progress := f.progress + 1 }) s)

/-- The reply of an SQ_WRITE that has offered every cell (DEDUCED, log entry 36). -/
def writeDone (f : Flight) (s : State) : State :=
  let stored := f.acc.getD 0 0
  complete f.id { status := stOk, isPartial := decide (stored < f.total), progress := f.progress, result := leBytes 4 stored } s

/-- Offer at most `n` cells of an SQ_WRITE (DEDUCED, log entry 36). -/
def offerCells : Nat → Flight → State → State
  | 0, _, s => s
  | n + 1, f, s =>
    if f.total ≤ f.progress then s
    else
      match offerCell f s with
      | none => s
      | some (g, s) => offerCells n g s

/-- The SQ_WRITEs whose cells have all been offered reply at the end of the cycle, when it is known which were stored (R186, R361) (DEDUCED, log entry 36). -/
def settleWrites (s : State) : State :=
  s.host.flights.foldl (fun s g => if g.op == .sqWrite && g.phase == .active && decide (g.total ≤ g.progress) then writeDone g s else s) s

/-- SQ_WRITE (R185, R361). -/
def serveSqWrite (f : Flight) (s : State) : State :=
  withQueue f s (fun _ =>
    let n := f.pkt.payload.length / 64
    if n == 0 || f.pkt.payload.length % 64 != 0 then answer f stBadParam s
    else
      let g := { f with phase := .active, total := n }
      offerCells n g (updFlight f.id (fun f => { f with phase := .active, total := n }) s))

/-- A step of an SQ_WRITE: one cell. -/
def stepSqWrite (f : Flight) (s : State) : State := offerCells 1 f s

/-- An SQ_READ goes on: it takes the words that are on die, in a cycle in which no control operation has acted (R186), and replies
once it has those that were readable when it was served, or none is left. `acc` holds the words taken (DEDUCED, log entry 36). -/
def readOn (f : Flight) (s : State) : State :=
  let r := readWords f.queue (if readsNow s f.queue then f.total - f.acc.length else 0) s
  let got := f.acc ++ r.1.map (fun w => w.v.toNat)
  let x := getQueue r.2 f.queue
  if f.total ≤ got.length || x.wr == x.rd then answerData f (got.flatMap (fun w => w64Bytes (BitVec.ofNat 64 w))) r.2
  else updFlight f.id (fun g => { g with phase := .active, total := f.total, acc := got }) r.2

/-- SQ_READ (R192, R361): it waits for words in transit (R189, R435) (DEDUCED, log entry 36). -/
def serveSqRead (f : Flight) (s : State) : State :=
  withQueue f s (fun x =>
    let n := f.pkt.at_ 1 1
    if x.reader != rdHost || n == 0 || 64 < n then answer f stBadParam s
    else readOn { f with total := min (8 * n) (8 * (x.wr - x.rd) - x.rdWord) } s)

/-- The SQ_READ commands that go on, oldest first: those on one queue, or all (DEDUCED, log entry 36). -/
def resumeReads (onQueue : Nat → Bool) (s : State) : State :=
  (s.host.flights.filter (fun g => g.op == .sqRead && g.phase == .active && onQueue g.queue)).foldl (fun s g => readOn g s) s

/-- SQ_CELL_TO_HEAD (R188, R189). -/
def execSqCellToHead (q : Nat) (s : State) : Host.Outcome State Fault Refusal :=
  guardUnit (isQueue q) (resumeReads (fun k => k == q) (cellToHead q s))

/-- SQ_MARK (R185). -/
def serveSqMark (f : Flight) (s : State) : State := withControl f s (fun _ s => answerOk f (queueControl f.queue Spill.mark s))

/-- SQ_REWIND (R185). -/
def serveSqRewind (f : Flight) (s : State) : State :=
  withControl f s (fun x s =>
    if x.markValid then answerOk f (queueControl f.queue Spill.rewind s)
    else answer f stBadParam (queueControl f.queue Spill.reject s))

/-- SQ_RELEASE (R185). -/
def serveSqRelease (f : Flight) (s : State) : State :=
  withControl f s (fun x s =>
    let n := f.pkt.at_ 1 4
    let k := (x.release n).2
    complete f.id { status := stOk, isPartial := decide (k < n), progress := if k < n then k else 0 }
      (queueControl f.queue (fun x => (x.release n).1) s))

/-- An SQ_FLUSH acts, or waits until the tail buffer has room for its cell (R185, R189) (DEDUCED, log entries 36, 45). -/
def flushOn (f : Flight) (s : State) : State :=
  if (getQueue s f.queue).flushHeld then updFlight f.id (fun g => { g with phase := .active }) s
  else answerOk f (queueControl f.queue Spill.flush s)

/-- SQ_FLUSH (R185). -/
def serveSqFlush (f : Flight) (s : State) : State := withControl f s (fun _ s => flushOn f s)

/-- The SQ_FLUSH commands that wait for room go on, oldest first (DEDUCED, log entry 45). -/
def resumeFlushes (onQueue : Nat → Bool) (s : State) : State :=
  (s.host.flights.filter (fun g => g.op == .sqFlush && g.phase == .active && onQueue g.queue)).foldl (fun s g => flushOn g s) s

/-- SQ_CELL_TO_REGION (R188). -/
def execSqCellToRegion (q : Nat) (s : State) : Host.Outcome State Fault Refusal :=
  guardUnit (isQueue q) (resumeFlushes (fun k => k == q) (cellToRegion q s))

/-- SQ_RESET (R185, R191). -/
def serveSqReset (f : Flight) (s : State) : State :=
  withControl f s (fun _ s =>
    answerOk f (queueControl f.queue (fun x =>
      let y := x.reset
      if f.pkt.bits 1 0 1 == 1 then { y with owner := none } else y) s))

end Sys2Proof.Machine
end

