-- ==== Sys2Proof/Machine/Ring.lean ====
section
/-! DEFINITION. Ring records, seals, and the ring-log commands (R211 to R215). -/

namespace Sys2Proof.Machine

open Sys2Proof

/-- The 256 bytes of a ring record (R211). -/
def ringRecord (g : RingLog) (d : StepDone) : List Byte :=
  padTo 160 (leBytes 4 0x474E4952 ++ leBytes 2 1 ++ leBytes 2 (b2n d.cutRange + 2 * b2n d.skew) ++ leBytes 8 g.nextIndex.toNat
    ++ leBytes 8 (g.firstStep + g.nextIndex).toNat ++ leBytes 4 g.rank.toNat ++ leBytes 4 g.devices.toNat ++ padTo 16 g.runId
    ++ (List.range 4).flatMap (fun c => w64Bytes (d.images.getD c 0)) ++ w64Bytes d.seed ++ w64Bytes d.deviceFold
    ++ leBytes 2 d.layers ++ leBytes 1 d.bays)
    ++ padTo 48 d.digest ++ padTo 48 g.prevHash

/-- The 256 bytes of a seal but for its signature's nonce (R213) (DESIGN CHOICE, log entry 30). -/
def ringSeal (key : Nat) (index : W64) (recordHash : List Byte) (nonce : Nat) : List Byte :=
  let head := leBytes 4 0x4C414553 ++ leBytes 2 1 ++ leBytes 2 0 ++ w64Bytes index ++ padTo 48 recordHash
  padTo 256 (head ++ ecdsaSign key nonce (sha384 head))

/-- Keep the latest `n` entries; the answer's second part is how many unread ones were displaced. -/
def keepLatest (n : Nat) (l : List RingRec) : List RingRec × Nat :=
  let out := l.take (l.length - n)
  (l.drop (l.length - n), (out.filter (fun r => !r.read)).length)

/-- RING_RECORD_WRITE (R211 to R213): the record of the oldest completed step whose record is not written yet (DESIGN CHOICE, log entries 3, 30). -/
def recordWrite (s : State) : State :=
  let g := s.ring
  match g.due with
  | [] => s
  | d :: rest =>
    let d := { d with
      skew := d.skew || g.skew, deviceFold := if g.skew then 0 else d.deviceFold
      digest := if g.skew then List.replicate 48 0 else d.digest }
    let bytes := ringRecord g d
    let hash := sha384 bytes
    let kept := keepLatest 4096 (g.records ++ [{ index := g.nextIndex.toNat, bytes := bytes }])
    let sealed := decide (0 < g.signInterval) && (g.nextIndex.toNat + 1) % g.signInterval == 0
    let nonce := takeFree s
    let s := if sealed then nonce.2 else s
    let seals := if sealed then
        (keepLatest 64 (g.seals ++ [{ index := g.nextIndex.toNat, bytes := ringSeal s.boot.identityKey g.nextIndex hash nonce.1 }])).1
      else g.seals
    let s := { s with ring := { g with
      due := rest, records := kept.1, lost := satAdd g.lost kept.2, seals := seals
      nextIndex := g.nextIndex + 1, prevHash := hash } }
    match g.part with
    | some p => postOwner (getPart s p).owner 0x000A (w64Bytes g.nextIndex ++ w64Bytes (g.firstStep + g.nextIndex)) s
    | none => s

/-- RING_RECORD_WRITE (R211). -/
def execRingRecordWrite (s : State) : Host.Outcome State Fault Refusal := .next (recordWrite s)

/-- The ownership test of R214 for a ring-log command other than RING_START. -/
def ringForeign (s : State) (session : Nat) : Bool :=
  match s.ring.part with
  | some p => partForeign s p session
  | none => false

/-- The ring log of an accepted RING_START (R215). -/
def ringStarted (g : RingLog) (p : Nat) (b : List Byte) : RingLog :=
  { g with
    active := true, part := some p, captureReg := BitVec.ofNat 16 (leAt b 84 2), capture := leAt b 84 2
    folds := [], cuts := [], completed := 0, openStep := {}, nextStep := {}, held := {}, heldStep := none
    skew := false, due := [], records := [], seals := [], nextIndex := 0
    prevHash := slice b 0 48, firstStep := BitVec.ofNat 64 (leAt b 48 8), rank := BitVec.ofNat 32 (leAt b 56 4)
    devices := BitVec.ofNat 32 (leAt b 60 4), runId := slice b 64 16, signInterval := leAt b 82 2 }

/-- RING_START (R215). -/
def serveRingStart (f : Flight) (s : State) : State :=
  let b := f.pkt.payload
  let p := leAt b 80 1
  let devices := leAt b 60 4
  let cap := leAt b 84 2
  if f.pkt.payloadLength.toNat != 88 || !partDefined s p || devices == 0 || 65536 < devices || devices ≤ leAt b 56 4
      || 4096 < leAt b 82 2 || (4097 ≤ cap && cap ≤ 0xFFFE) || leAt b 81 1 != 0 || leAt b 86 2 != 0 then answer f stBadParam s
  else if partForeign s p f.sess then answer f stDenied s
  else if s.ring.active then answer f stBadParam s
  else if (getPart s p).busy then answer f stBadParam s
  else answerOk f { s with ring := ringStarted s.ring p b }

/-- RING_STOP (R214). -/
def serveRingStop (f : Flight) (s : State) : State :=
  if ringForeign s f.sess then answer f stDenied s
  else answerOk f { s with ring := { s.ring with
    active := false, folds := [], cuts := [], openStep := {}, nextStep := {} } }

/-- Held entries from an index on, at most `n` (R214). -/
def ringPick (l : List RingRec) (first n : Nat) : List RingRec := (l.filter (fun r => decide (first ≤ r.index))).take n

/-- RING_READ and RING_SEAL_READ (R214). -/
def serveRingGet (seals : Bool) (f : Flight) (s : State) : State :=
  let first := f.pkt.at_ 0 8
  let n := f.pkt.at_ 8 1
  if ringForeign s f.sess then answer f stDenied s
  else if s.ring.part.isSome && (n == 0 || 16 < n) then answer f stBadParam s
  else
    let got := ringPick (if seals then s.ring.seals else s.ring.records) first n
    let mark (l : List RingRec) : List RingRec := l.map (fun r => if got.any (fun x => x.index == r.index) then { r with read := true } else r)
    let s := if seals then s else { s with ring := { s.ring with records := mark s.ring.records } }
    complete f.id
      { status := stOk, isPartial := got.length < n || s.ring.part.isNone, progress := if got.length < n then got.length else 0
        payload := got.flatMap (fun r => r.bytes) } s

/-- RING_READ (R214). -/
def serveRingRead (f : Flight) (s : State) : State := serveRingGet false f s

/-- RING_SEAL_READ (R214). -/
def serveRingSealRead (f : Flight) (s : State) : State := serveRingGet true f s

/-- FOLD_READ (R214). -/
def serveFoldRead (f : Flight) (s : State) : State :=
  let kind := f.pkt.at_ 0 1
  let first := f.pkt.at_ 2 4
  let n := f.pkt.at_ 6 4
  if ringForeign s f.sess then answer f stDenied s
  else
    match s.ring.part with
    | none => answer f stBadParam s
    | some p =>
      let idx := (List.range (min n 511)).map (fun i => first + i)
      let ok (i : Nat) : Bool :=
        if kind == 0 then decide (i < layersOf s p) || i == 4096 else decide (i < (getPart s p).vaultCount)
      if 2 < kind || n == 0 || 511 < n || !idx.all ok then answer f stBadParam s
      else
        let t := if kind == 0 then s.ring.held.table else if kind == 1 then s.ring.held.vstep else s.ring.held.vcap
        let stepNo : W64 := s.ring.heldStep.getD 0xFFFFFFFFFFFFFFFF
        answerData f (w64Bytes stepNo ++ idx.flatMap (fun i => w64Bytes (Table.get 0 t i))) s

end Sys2Proof.Machine
end

