-- ==== Sys2Proof/Machine/Names.lean ====
section
/-! DEFINITION. The opcodes of R432, the parameter fields of every command, and the resources a command names (R335, R342, R344 to R348, R432). -/

namespace Sys2Proof

open Sys2Proof.Machine

/-- OPCODE of a command (R432). -/
def Op.code : Op → Nat
  | .nop => 0x0000 | .identify => 0x0001 | .getStatus => 0x0002 | .openSession => 0x0003
  | .closeSession => 0x0004 | .resetDomain => 0x0005 | .readCsr => 0x0010 | .writeCsr => 0x0011
  | .selectProfile => 0x0100 | .readProfile => 0x0101 | .writeProfile => 0x0102 | .loadImage => 0x0200
  | .unloadContext => 0x0201 | .start => 0x0210 | .stop => 0x0211 | .abort => 0x0212
  | .step => 0x0213 | .drain => 0x0214 | .memRead => 0x0300 | .memWrite => 0x0301
  | .memFill => 0x0302 | .scrub => 0x0303 | .sqConfig => 0x0400 | .sqWrite => 0x0401
  | .sqRead => 0x0402 | .sqMark => 0x0403 | .sqRewind => 0x0404 | .sqRelease => 0x0405
  | .sqFlush => 0x0406 | .sqReset => 0x0407 | .arbLoad => 0x0500 | .arbRead => 0x0501
  | .arbVerify => 0x0502 | .arbTcamLoad => 0x0503 | .arbEnsemble => 0x0504 | .arbMode => 0x0505
  | .arbEval => 0x0506 | .streamConfig => 0x0600 | .trigArm => 0x0601 | .trigDisarm => 0x0602
  | .trigRearm => 0x0603 | .macConfig => 0x0700 | .macFilter => 0x0701 | .gateListLoad => 0x0702
  | .extractConfig => 0x0703 | .templateLoad => 0x0704 | .replyConfig => 0x0705 | .countersRead => 0x0706
  | .fportPower => 0x0710 | .laneControl => 0x0711 | .fabricConfig => 0x0712 | .reduceGroup => 0x0713
  | .timeRead => 0x0800 | .timeSet => 0x0801 | .timeStep => 0x0802 | .timeAdjFreq => 0x0803
  | .timeInvalidate => 0x0804 | .timeSource => 0x0805 | .ptpPortConfig => 0x0806 | .ppsConfig => 0x0807
  | .powerStop => 0x0900 | .marginReplan => 0x0901 | .healthTest => 0x0902 | .columnFail => 0x0903
  | .attest => 0x0A00 | .getCert => 0x0A01 | .fwUpdate => 0x0A02 | .fwRecover => 0x0A03
  | .safeModelStore => 0x0A04 | .ringStart => 0x0B00 | .ringStop => 0x0B01 | .ringRead => 0x0B02
  | .ringSealRead => 0x0B03 | .foldRead => 0x0B04

/-- Whole parameter bytes `k` to `k + n - 1` as a field. -/
def byteField (k n : Nat) : Nat × Nat := (8 * k, 8 * n)

/-- The parameter fields of a command's table: low bit and width (R335). -/
def Op.fields : Op → List (Nat × Nat)
  | .nop | .identify | .getStatus | .closeSession | .timeRead | .timeInvalidate | .powerStop | .marginReplan | .getCert | .ringStart | .ringStop =>
    []
  | .openSession | .fabricConfig => [byteField 0 2, byteField 2 2, (32, 1)]
  | .resetDomain | .unloadContext | .sqRead | .arbMode | .templateLoad | .safeModelStore =>
    [byteField 0 1, byteField 1 1]
  | .readCsr => [byteField 0 4, byteField 4 2]
  | .writeCsr => [byteField 0 4]
  | .selectProfile | .readProfile | .writeProfile | .stop | .sqWrite | .sqMark | .sqRewind | .sqFlush | .arbVerify | .countersRead | .timeSource =>
    [byteField 0 1]
  | .loadImage => [byteField 0 1, byteField 1 5, byteField 6 4]
  | .start => [byteField 0 1, (8, 6)]
  | .abort => [byteField 0 1, (8, 12), byteField 3 1]
  | .step => [byteField 0 1, (8, 6), byteField 2 4]
  | .drain => [byteField 0 1, byteField 1 1, byteField 2 4, (48, 1)]
  | .memRead | .scrub => [byteField 0 5, byteField 8 8]
  | .memWrite | .timeAdjFreq => [byteField 0 5]
  | .memFill => [byteField 0 5, byteField 8 8, byteField 16 32]
  | .sqConfig => [byteField 0 1, (8, 7), byteField 2 2, byteField 4 2, byteField 6 2, byteField 8 2]
  | .sqRelease | .arbLoad => [byteField 0 1, byteField 1 4]
  | .sqReset => [byteField 0 1, (8, 1)]
  | .arbRead => [byteField 0 1, byteField 1 4, byteField 5 2]
  | .arbTcamLoad => [byteField 0 1, (8, 2), byteField 2 2, byteField 4 1, byteField 5 2]
  | .arbEnsemble => [byteField 0 1, byteField 1 1, byteField 2 2, byteField 4 1, byteField 8 4]
  | .arbEval => [byteField 0 1, (8, 1), byteField 2 2]
  | .streamConfig => [byteField 0 1, byteField 1 1, byteField 2 1, byteField 3 1, (32, 1)]
  | .trigArm | .trigDisarm | .ringRead | .ringSealRead => [byteField 0 8, byteField 8 1]
  | .trigRearm => [(0, 4)]
  | .macConfig => [byteField 0 1, (8, 5), byteField 2 2, byteField 4 1, byteField 5 1, byteField 6 1, byteField 7 1, byteField 8 8]
  | .macFilter => [byteField 0 1, byteField 1 1, byteField 2 6, (64, 2)]
  | .gateListLoad => [byteField 0 1, byteField 1 1, byteField 6 6, byteField 12 4, byteField 16 4]
  | .extractConfig => [byteField 0 1, byteField 1 1, byteField 2 1, byteField 3 1, byteField 4 2]
  | .replyConfig => [byteField 0 1, byteField 1 1, byteField 2 1, byteField 3 1, byteField 4 4, byteField 8 4]
  | .fportPower => [byteField 0 1, byteField 1 1, (16, 1)]
  | .laneControl => [byteField 0 1, byteField 1 1, byteField 2 1]
  | .reduceGroup => [byteField 0 1, (8, 1), byteField 2 4]
  | .timeSet => [byteField 0 6, byteField 6 4]
  | .timeStep => [byteField 0 8]
  | .ptpPortConfig => [byteField 0 1, (8, 1), byteField 4 4]
  | .ppsConfig => [(0, 1), byteField 2 2]
  | .healthTest => [(0, 20)]
  | .columnFail => [byteField 0 2, (16, 1)]
  | .attest => [byteField 0 32]
  | .fwUpdate => [byteField 0 5, byteField 5 4]
  | .fwRecover => [byteField 0 4, (32, 1)]
  | .foldRead => [byteField 0 1, byteField 2 4, byteField 6 4]

/-- A PARAMS bit is set that lies outside the fields of the command's table (R335) (DEDUCED, log entry 16). -/
def Packet.strays (op : Op) (p : Packet) : Bool :=
  let mask := op.fields.foldl (fun (m : BitVec 384) f => m ||| (BitVec.ofNat 384 (2 ^ f.2 - 1) <<< f.1)) 0
  (p.params &&& ~~~mask) != 0

end Sys2Proof

namespace Sys2Proof.Machine

open Sys2Proof

/-! ### Resources (R342, R346) -/

/-- Owner of a resource. -/
def resOwner (s : State) : Res → Option Nat
  | .partition p => (getPart s p).owner
  | .eport e => (getEPort s e).owner
  | .fport f => (getPort s f).owner
  | .trigger => s.trig.owner
  | .queue q => (getQueue s q).owner
  | .engine e => (getEngine s e).owner
  | .channel k => (getChan s k).owner
  | .timebase => s.time.owner
  | .ringLog => s.ring.part.bind (fun p => (getPart s p).owner)
  | .range _ _ => none

/-- Partitions that the profile in force defines. -/
def definedParts (s : State) : List Nat := (List.range 8).filter (partDefined s)

/-- Ends of the stretches of a range of bytes within vaults of no partition, one resource a vault. -/
def rangeNames (s : State) (addr len : Nat) : List Res :=
  if !rangeValid s addr len then []
  else
    let vs := rangeVaults addr len
    (rangeParts s addr len).map Res.partition
      ++ ((List.range (vs.2 + 1 - vs.1)).filterMap (fun i =>
        let v := vs.1 + i
        if (partOf s (v / 32)).isSome then none
        else
          let a := max (addr / 32) (v * 2 ^ 20)
          let b := min ((addr + len) / 32) ((v + 1) * 2 ^ 20)
          some (.range a (b - a))))

/-- Partitions that cover a logical bay. -/
def bayParts (s : State) (lb : Nat) : List Nat :=
  (List.range 8).filter (fun p =>
    let x := getPart s p
    x.valid && decide (x.firstBay ≤ lb) && decide (lb < x.firstBay + x.bays))

/-- Partitions that cover a physical bay. -/
def physBayParts (s : State) (b : Nat) : List Nat :=
  match (liveBays s).findIdx? (fun x => x == b) with
  | some lb => bayParts s lb
  | none => []

/-- Engines of the ensemble that starts at an engine. -/
def ensembleNames (s : State) (first : Nat) : List Res :=
  (List.range (max 1 (getEns s first).engines)).map (fun i => .engine (first + i))

/-- The resources that a command names, but for WRITE_CSR, whose registers name theirs (DEDUCED, log entry 12). -/
def namesOf (f : Flight) (s : State) : List Res :=
  let p := f.pkt
  let b0 := p.at_ 0 1
  match f.op with
  | .unloadContext | .start | .stop | .step | .drain => [.partition b0]
  | .loadImage => .partition b0 :: rangeNames s (loadAddr f) (loadBytes f)
  | .abort => if b0 == 1 then [.partition (p.at_ 3 1)] else []
  | .memRead | .memWrite | .memFill | .scrub => rangeNames s (memAddr f) (memLen f)
  | .fwUpdate => rangeNames s (fwAddr f) (fwBytes f)
  | .sqConfig | .sqWrite | .sqRead | .sqMark | .sqRewind | .sqRelease | .sqFlush | .sqReset => [.queue b0]
  | .arbLoad | .arbRead | .arbVerify | .arbTcamLoad | .arbMode | .safeModelStore => [.engine b0]
  | .arbEnsemble =>
    (List.range (min 64 (p.at_ 1 1))).map (fun i => .engine (b0 + i)) ++ ensembleNames s b0
  | .arbEval => ensembleNames s b0
  | .streamConfig => [.trigger, .eport (p.at_ 1 1), .queue (p.at_ 3 1)]
  | .trigArm | .trigDisarm | .trigRearm => [.trigger]
  | .macConfig =>
    [.eport (b0 / 8)] ++ (if p.bits 1 3 1 == 1 then [.queue (p.at_ 4 1)] else []) ++ (if p.bits 1 4 1 == 1 then [.queue (p.at_ 5 1)] else [])
      ++ ((List.range 8).filter (fun c => p.bits 7 c 1 == 1)).map (fun c => .queue (p.at_ (8 + c) 1))
  | .macFilter | .gateListLoad | .replyConfig | .countersRead | .ptpPortConfig => [.eport (b0 / 8)]
  | .extractConfig => .eport (b0 / 8) :: (if p.at_ 1 1 == 0xFF then [] else ensembleNames s (p.at_ 1 1))
  | .templateLoad => [.eport b0]
  | .fportPower | .laneControl => [.fport b0]
  | .reduceGroup => [.channel b0]
  | .timeRead | .timeSet | .timeStep | .timeAdjFreq | .timeInvalidate | .timeSource | .ppsConfig => [.timebase]
  | .ringStart => [.ringLog, .partition (leAt p.payload 80 1)]
  | .ringStop | .ringRead | .ringSealRead | .foldRead => [.ringLog]
  | .resetDomain =>
    match b0 with
    | 1 | 2 | 4 => (definedParts s).map Res.partition
    | 3 => .range 0 (2 ^ 35) :: (definedParts s).map Res.partition
    | 5 => [.eport (p.at_ 1 1)]
    | 6 => [.fport (p.at_ 1 1)]
    | 7 => [.trigger]
    | _ => []
  | .healthTest => ((List.range 20).filter (fun b => p.params.getLsbD b)).flatMap (fun b => (physBayParts s b).map Res.partition)
  | .columnFail => (physBayParts s (p.at_ 0 2 / 33)).map Res.partition
  | _ => []

/-- Two resources are one, or ranges that overlap. -/
def Res.meets : Res → Res → Bool
  | .range a n, .range b m => decide (max a b < min (a + n) (b + m))
  | x, y => x == y

/-- Two commands name a resource in common (DEDUCED, log entry 12). -/
def namesMeet (a b : List Res) : Bool := a.any (fun x => b.any (Res.meets x))

/-- A flight names a partition. -/
def Flight.namesPart (f : Flight) (p : Nat) : Bool := f.names.any (fun r => r == .partition p)

end Sys2Proof.Machine
end

