-- ==== Sys2Proof/Machine/Csr.lean ====
section
/-! DEFINITION. The register maps: what a word of each register reads as, what reading it clears, and what writing it does (R18 to R22, R354, R355, and the register maps of every chapter). -/

namespace Sys2Proof.Machine

open Sys2Proof

/-- One word of a register. -/
structure Csr where
  /-- What it reads as. -/
  value : W32
  /-- Whose register it is. -/
  res : List Res := []
  /-- How a read that clears it leaves it at a count (RC). -/
  onClear : Option (W32 → State → State) := none
  /-- What writing it does. -/
  onWrite : W32 → State → State := fun _ => id

/-- A read-only word. -/
def ro (v : W32) (res : List Res := []) : Csr := { value := v, res := res }

/-- A saturating count that its read clears. -/
def rc (v : W32) (put : W32 → State → State) (res : List Res := []) : Csr := { value := v, res := res, onClear := some put }

/-- A register written whole. -/
def rw (v : W32) (write : W32 → State → State) (res : List Res := []) : Csr := { value := v, res := res, onWrite := write }

/-- Word `i` of a wide register. -/
def wordOf (n i : Nat) : W32 := BitVec.ofNat 32 (n / 2 ^ (32 * i))

/-- Index and offset of an address within an array of `n` blocks of `size` bytes. -/
def within (a base size n : Nat) : Option (Nat × Nat) :=
  if base ≤ a && a < base + size * n then some ((a - base) / size, (a - base) % size) else none

/-- Owner fields: OWNED and OWNER. -/
def owned (o : Option Nat) : Nat := b2n o.isSome
def ownerNo (o : Option Nat) : Nat := o.getD 0

/-! ### Device and sessions -/

/-- RESERVE of an open session. -/
def reserveOf (s : State) (i : Nat) : Nat := if (getSession s i).isOpen then (getSession s i).reserve else 0

/-- Commands in flight for a session. -/
def inFlight (s : State) (i : Nat) : Nat := (s.host.flights.filter (fun f => f.sess == i)).length

/-- Sum of RESERVE over open sessions. -/
def reserveSum (s : State) : Nat := ((List.range 8).map (reserveOf s)).sum

/-- STEPPING code. -/
def steppingCode (s : State) : Nat := if s.part.b0 then 0xB0 else 0xA0

/-- "CLR-9400X4" or "CLR-9400X2" in ASCII. -/
def orderingCode (s : State) : List Byte := [0x43, 0x4C, 0x52, 0x2D, 0x39, 0x34, 0x30, 0x30, 0x58, if s.part.x2 then 0x32 else 0x34]

/-- Whole seconds since a session's last command. -/
def idleSeconds (s : State) (x : Session) : Nat := min 65535 ((s.clk.tticks - x.lastCommand) / 1000000000)

/-- 0x0000_0000 to 0x000F_FFFF (DESIGN CHOICE, log entry 2). -/
def deviceCsr (s : State) (a : Nat) : Option Csr :=
  if a == 0 then some (ro (regWord [(16, 16, 0x9400), (8, 8, steppingCode s), (0, 3, if s.part.x2 then 2 else 4)]))
  else if a == 0x10 then some (ro (regWord [(16, 13, reserveSum s), (0, 13, s.host.flights.length)]))
  else if a == 0x14 then some (rc s.host.malformed (fun w s => { s with host := { s.host with malformed := w } }))
  else
    match within a 0x100 16 8 with
    | none => none
    | some (i, o) =>
      let x := getSession s i
      if o == 0 then some (ro (regWord [(31, 1, b2n x.isOpen), (16, 13, x.reserve), (0, 13, inFlight s i)]))
      else if o == 4 then some (ro (regWord [(16, 16, x.src.toNat), (8, 8, x.origin.toNat)]))
      else if o == 8 then some (ro (regWord [(16, 16, x.idleLimit), (0, 16, if x.isOpen then idleSeconds s x else 0)]))
      else some (rc x.eventsLost (fun w => updSession i (fun x => { x with eventsLost := w })))

/-! ### Profile -/

/-- A slot of flash. -/
def getSlot (s : State) (n : Nat) : Slot := Table.get {} s.flash.slots n

/-- 0x0010_0000 on. -/
def profileCsr (s : State) (a : Nat) : Option Csr :=
  if a == 0 then
    some (ro (regWord [(20, 4, s.boot.validSlots.toNat), (16, 4, s.boot.lockedSlots.toNat), (9, 1, b2n s.boot.fallback),
      (8, 1, b2n s.boot.byCommand), (4, 2, s.pins.profileSel.toNat), (2, 1, b2n s.boot.builtIn), (0, 2, s.boot.slot)]))
  else
    match within a 0x10 8 4 with
    | some (n, o) => some (ro (wordOf (if s.boot.loaded then (getSlot s n).writes else 0) (o / 4)))
    | none => none

/-! ### Canopy -/

/-- LISTED of LATENCY_CONTRACTS: LC-1 (R149). -/
def contractsListed : Nat := 2

/-- Registers of a partition that lie in a block of 16 bytes. -/
def partCsr (s : State) (base : Nat) (p o : Nat) : Option Csr :=
  let x := getPart s p
  let r := [Res.partition p]
  match base, o with
  | 0x200, _ =>
    let k := x.ctx (o / 4)
    some (ro (regWord [(8, 8, k.faultCount), (4, 1, b2n k.inputsStopped), (3, 1, b2n (tokensPresent s p (o / 4))), (0, 3, k.state.code)]) r)
  | 0x400, 0 =>
    some (rw (regWord [(1, 8, x.sampler.queue), (0, 1, b2n x.sampler.enable)])
      (fun v s => samplerEnable p (v.getLsbD 0) (updPart p (fun x => { x with sampler := { x.sampler with queue := fldN v 1 8 } }) s)) r)
  | 0x400, 4 =>
    some (rw (BitVec.ofNat 32 x.sampler.period)
      (fun v => updPart p (fun x => { x with sampler := { x.sampler with period := max 4096 v.toNat } })) r)
  | 0x400, 8 => some (rc x.sampler.skip (fun w => updPart p (fun x => { x with sampler := { x.sampler with skip := w } })) r)
  | 0x500, 0 => some (rc x.sat (fun w => updPart p (fun x => { x with sat := w })) r)
  | 0x500, 4 => some (rc x.nonfinite (fun w => updPart p (fun x => { x with nonfinite := w })) r)
  | 0x500, 8 => some (rc x.scratchCorrected (fun w => updPart p (fun x => { x with scratchCorrected := w })) r)
  | 0x500, 12 => some (rc x.linkParity (fun w => updPart p (fun x => { x with linkParity := w })) r)
  | 0x600, 0 => some (rw x.seedLo (fun v => updPart p (fun x => { x with seedLo := v })) r)
  | 0x600, 4 => some (rw x.seedHi (fun v => updPart p (fun x => { x with seedHi := v })) r)
  | 0x700, 0 =>
    let first := match x.log with
      | f :: _ => f.code
      | [] => 0
    some (rw (regWord [(16, 8, x.lost), (8, 8, first), (0, 7, x.log.length)]) (fun v s => if v.getLsbD 31 then clearFaultLog p s else s) r)
  | 0x800, 0 =>
    some (ro (regWord [(21, 3, if x.valid then ownerNo x.owner else 0), (20, 1, b2n (profileFlag s 0)), (19, 1, b2n x.padded), (18, 1, b2n x.byteMode),
      (17, 1, b2n x.valid), (6, 6, x.bays), (0, 5, x.firstBay)]) r)
  | _, _ => none

/-- 0x0020_0000 on. -/
def canopyCsr (s : State) (a : Nat) : Option Csr :=
  if a == 0 then some (ro (regWord [(0, 16, contractsListed)]))
  else
    match within a 0x100 4 20 with
    | some (b, _) =>
      let g := graftOf s b
      some (ro (regWord [(9, 1, b2n g.bypassOk), (8, 1, b2n g.retired), (7, 1, b2n (decide (g.failedPos < 32))), (0, 6, g.failedPos)]))
    | none =>
      match within a 0x1000 0x800 8 with
      | some (p, o) =>
        let x := getPart s p
        let b := match x.log[o / 32]? with
          | some r => r.bytes p (o / 32)
          | none => []
        some (ro (BitVec.ofNat 32 (leAt b (o % 32) 4)) [Res.partition p])
      | none =>
        match [0x200, 0x400, 0x500, 0x600, 0x700, 0x800].find? (fun base => decide (base ≤ a) && decide (a < base + 128)) with
        | some base => partCsr s base ((a - base) / 16) ((a - base) % 16)
        | none => none

/-! ### Vaults -/

/-- 0x0030_0000 on. -/
def vaultCsr (s : State) (a : Nat) : Option Csr :=
  let v := s.vaults
  let last := match v.eccLast with
    | some (source, vault, word) => 2 ^ 61 + source * 2 ^ 52 + vault * 2 ^ 32 + word
    | none => 0
  match a with
  | 0x00 => some (ro (regWord [(20, 5, wordBits s), (0, 15, logicalVaults s)]))
  | 0x10 =>
    some (rw (regWord [(24, 8, v.passes % 256), (1, 8, v.passHours), (0, 1, b2n v.scrubEnable)])
      (fun w s => { s with vaults := { s.vaults with passHours := max 1 (fldN w 1 8), scrubEnable := w.getLsbD 0 } }))
  | 0x20 => some (rc v.eccCorrected (fun w s => { s with vaults := { s.vaults with eccCorrected := w } }))
  | 0x24 => some (rc v.eccUncorrected (fun w s => { s with vaults := { s.vaults with eccUncorrected := w } }))
  | 0x28 => some (rc v.poisonReads (fun w s => { s with vaults := { s.vaults with poisonReads := w } }))
  | 0x30 => some (ro (wordOf last 0))
  | 0x34 => some (ro (wordOf last 1))
  | 0x40 => some (ro (regWord [(16, 3, fewestFree s), (0, 16, min 65535 v.repairs)]))
  | _ => none

/-! ### Spill queues -/

/-- 0x0040_0000 on. -/
def queueCsr (s : State) (a : Nat) : Option Csr :=
  match within a 0 64 256 with
  | none => none
  | some (q, o) =>
    let x := getQueue s q
    let r := [Res.queue q]
    let clear (w : W32) (i : Nat) (f : Spill → Spill) (s : State) : State := if w.getLsbD i then updQueue q f s else s
    match o with
    | 0x00 => some (ro (regWord [(10, 1, owned x.owner), (7, 3, ownerNo x.owner), (6, 1, b2n x.circular), (3, 3, x.reader), (0, 3, x.writer)]) r)
    | 0x04 => some (ro (regWord [(16, 13, x.firstPage), (0, 15, x.firstVault)]) r)
    | 0x08 => some (ro (regWord [(16, 14, x.pages), (0, 15, x.vaults)]) r)
    | 0x0C =>
      some (rw (regWord [(16, 3, x.mkWord), (13, 3, x.rdWord), (10, 3, x.assembly.length), (7, 1, b2n x.poisonSeen), (6, 1, b2n x.ctrlRejected),
          (5, 1, b2n x.frozen), (4, 1, b2n x.markValid), (3, 1, b2n x.overrun), (2, 1, b2n x.full), (1, 1, b2n (x.rd == x.wr))])
        (fun w s => clear w 3 Spill.clearOverrun (clear w 6 Spill.clearRejected (clear w 7 Spill.clearPoison s))) r)
    | 0x10 => some (ro (BitVec.ofNat 32 x.wr) r)
    | 0x14 => some (ro (BitVec.ofNat 32 x.rd) r)
    | 0x18 => some (ro (BitVec.ofNat 32 x.rel) r)
    | 0x1C => some (ro (BitVec.ofNat 32 x.mkCell) r)
    | 0x20 => some (rc x.overrunCount (fun w => updQueue q (fun x => { x with overrunCount := w })) r)
    | 0x24 => some (rc x.discardCount (fun w => updQueue q (fun x => { x with discardCount := w })) r)
    | 0x28 => some (rc x.poisonCount (fun w => updQueue q (fun x => { x with poisonCount := w })) r)
    | _ => none

/-! ### Arbor -/

/-- Mode code of R233. -/
def EngMode.code : EngMode → Nat
  | .idle => 0 | .node => 1 | .ternary => 2 | .retired => 3

/-- One more than the highest VALID entry index. -/
def Engine.entryCount (x : Engine) : Nat := x.entries.foldl (fun a kv => if kv.2.valid then max a (kv.1 + 1) else a) 0

/-- 0x0050_0000 on. -/
def arborCsr (s : State) (a : Nat) : Option Csr :=
  match a with
  | 0x800 => some (rc s.arbor.nodeCorrected (fun w s => { s with arbor := { s.arbor with nodeCorrected := w } }))
  | 0x804 => some (rc s.arbor.nodeUncorrected (fun w s => { s with arbor := { s.arbor with nodeUncorrected := w } }))
  | 0x808 => some (rc s.arbor.tcamMiss (fun w s => { s with arbor := { s.arbor with tcamMiss := w } }))
  | 0x80C => some (rc s.arbor.poison (fun w s => { s with arbor := { s.arbor with poison := w } }))
  | 0x810 => some (rc s.arbor.failed (fun w s => { s with arbor := { s.arbor with failed := w } }))
  | 0x814 => some (rc s.arbor.late (fun w s => { s with arbor := { s.arbor with late := w } }))
  | _ =>
    match within a 0 32 64 with
    | none => none
    | some (e, o) =>
      let x := getEngine s e
      let n := getEns s e
      let r := [Res.engine e]
      match o with
      | 0x00 =>
        some (ro (regWord [(29, 1, b2n x.tcamFailed), (26, 3, ownerNo x.owner), (25, 1, owned x.owner), (24, 1, b2n x.verified),
          (23, 1, b2n x.safeLoaded), (20, 3, x.mode.code), (0, 18, x.root)]) r)
      | 0x04 => some (ro (regWord [(31, 1, b2n (n.engines != 0)), (24, 7, n.engines), (13, 5, n.depth), (0, 13, n.features)]) r)
      | 0x08 => some (ro n.base r)
      | 0x0C => some (ro (regWord [(24, 5, x.trees), (10, 13, x.entryCount), (0, 10, x.predicates)]) r)
      | 0x10 => some (ro (regWord [(7, 16, n.seq), (0, 7, n.slots)]) r)
      | _ => none

/-! ### Streams and triggers -/

/-- Declared latency of the image that binds trigger endpoint k. -/
def declLatency (s : State) (k : Nat) : Nat :=
  match boundTo s 5 k with
  | none => 0
  | some (p, c, _, _) =>
    let im := ((getPart s p).ctx c).image
    match im.ports.findIdx? (fun e => e.unit == 5 && e.index == k) with
    | some i => ((im.decls.find? (fun d => d.outEntry == i)).map (fun d => d.cycles)).getD 0
    | none => 0

/-- STATE code of a capture unit. -/
def CapState.code : CapState → Nat
  | .idle => 0 | .armed => 1 | .post => 2 | .frozen => 3

/-- Registers of an ingress endpoint. -/
def streamCsr (s : State) (i o : Nat) : Option Csr :=
  let x := getStream s i
  let r := [Res.trigger]
  let upd (f : Stream → Stream) (s : State) : State := updStream i f s
  match o with
  | 0x00 => some (ro (regWord [(19, 1, b2n x.enable), (16, 3, x.port), (8, 8, x.mask.toNat), (0, 8, x.queue)]) r)
  | 0x04 => some (rc x.accepted (fun w => upd (fun x => { x with accepted := w })) r)
  | 0x08 => some (rc x.drop (fun w => upd (fun x => { x with drop := w })) r)
  | 0x0C => some (rc x.crc (fun w => upd (fun x => { x with crc := w })) r)
  | 0x10 => some (rc x.malformed (fun w => upd (fun x => { x with malformed := w })) r)
  | 0x14 => some (rc x.stopped (fun w => upd (fun x => { x with stopped := w })) r)
  | 0x18 => some (ro (BitVec.ofNat 32 x.nextSeq) r)
  | _ => none

/-- Registers of a trigger channel. -/
def chanCsr (s : State) (k o : Nat) : Option Csr :=
  let x := getChanT s k
  let g := x.reg
  let r := [Res.trigger]
  let set (f : ChanCfg → ChanCfg) (s : State) : State := updChanT k (fun x => { x with reg := f x.reg }) s
  match o with
  | 0x0 =>
    some (rw (regWord [(31, 1, b2n x.high), (30, 1, b2n x.armed), (21, 9, declLatency s k), (18, 2, g.pin), (17, 1, b2n g.rawHalf),
        (7, 10, g.rawWord), (3, 4, g.endpoint), (2, 1, b2n g.polarity), (0, 2, g.source)])
      (fun w => set (fun c => { c with
        pin := fldN w 18 2, rawHalf := w.getLsbD 17, rawWord := fldN w 7 10, endpoint := fldN w 3 4, polarity := w.getLsbD 2
        source := fldN w 0 2 })) r)
  | 0x4 => some (rw g.level (fun w => set (fun c => { c with level := w })) r)
  | 0x8 => some (rw g.hyst (fun w => set (fun c => { c with hyst := w })) r)
  | _ => some (ro x.release r)

/-- Low or high word of a 64-bit mask written. -/
def setHalf (m : W64) (i : Nat) (w : W32) : W64 :=
  if i == 0 then (m &&& 0xFFFFFFFF00000000) ||| w.setWidth 64 else (m &&& 0xFFFFFFFF) ||| (w.setWidth 64 <<< 32)

/-- Registers of an output and its capture unit. -/
def outCsr (s : State) (o off : Nat) : Option Csr :=
  let x := getOut s o
  let g := x.reg
  let u := getCap s o
  let r := [Res.trigger]
  let set (f : OutCfg → OutCfg) (s : State) : State := updOutT o (fun x => { x with reg := f x.reg }) s
  let cap (f : CapCfg → CapCfg) (s : State) : State := updCap o (fun u => { u with reg := f u.reg }) s
  match off with
  | 0x00 =>
    some (rw (regWord [(31, 1, b2n x.armed), (8, 23, g.holdoff), (0, 8, g.width)])
      (fun w => set (fun c => { c with holdoff := fldN w 8 23, width := fldN w 0 8 })) r)
  | 0x08 => some (rw (wordOf g.orMask.toNat 0) (fun w => set (fun c => { c with orMask := setHalf c.orMask 0 w })) r)
  | 0x0C => some (rw (wordOf g.orMask.toNat 1) (fun w => set (fun c => { c with orMask := setHalf c.orMask 1 w })) r)
  | 0x10 => some (rw (wordOf g.andMask.toNat 0) (fun w => set (fun c => { c with andMask := setHalf c.andMask 0 w })) r)
  | 0x14 => some (rw (wordOf g.andMask.toNat 1) (fun w => set (fun c => { c with andMask := setHalf c.andMask 1 w })) r)
  | 0x20 =>
    some (rw (regWord [(12, 2, u.state.code), (8, 4, u.reg.source), (0, 8, u.reg.queue)])
      (fun w => cap (fun c => { c with source := fldN w 8 4, queue := fldN w 0 8 })) r)
  | 0x24 => some (rw (BitVec.ofNat 32 u.reg.post) (fun w => cap (fun c => { c with post := w.toNat })) r)
  | 0x28 => some (ro u.captureWr r)
  | _ => none

/-- 0x0060_0000 on. -/
def triggerCsr (s : State) (a : Nat) : Option Csr :=
  let t := s.trig
  let r := [Res.trigger]
  match a with
  | 0x800 =>
    some (rw (regWord [(8, 1, b2n t.decEnableReg), (0, 8, t.decQueueReg)])
      (fun w s => { s with trig := { s.trig with decEnableReg := w.getLsbD 8, decQueueReg := fldN w 0 8 } }) r)
  | 0x810 => some (rc t.nan (fun w s => { s with trig := { s.trig with nan := w } }) r)
  | 0x814 => some (rc t.poison (fun w s => { s with trig := { s.trig with poison := w } }) r)
  | 0x818 => some (rc t.suppressed (fun w s => { s with trig := { s.trig with suppressed := w } }) r)
  | 0x81C => some (rc t.decLost (fun w s => { s with trig := { s.trig with decLost := w } }) r)
  | 0x820 => some (rc t.capLost (fun w s => { s with trig := { s.trig with capLost := w } }) r)
  | 0x824 => some (rc t.unbound (fun w s => { s with trig := { s.trig with unbound := w } }) r)
  | _ =>
    match within a 0 32 16 with
    | some (i, o) => streamCsr s i o
    | none =>
      match within a 0x1000 16 64 with
      | some (k, o) => chanCsr s k o
      | none =>
        match within a 0x2000 64 4 with
        | some (o, off) => outCsr s o off
        | none => none

/-! ### Ethernet ports -/

/-- 0x0070_0000 on: a MAC's block, whatever the mode of its port (DEDUCED, log entry 27). -/
def macCsr (s : State) (a : Nat) : Option Csr :=
  match within a 0 0x10000 8 with
  | none => none
  | some (p, b) =>
    match within b 0 0x1000 8 with
    | none => none
    | some (k, o) =>
      let m := 8 * p + k
      let x := getMac s m
      let c := x.conf.cfg
      let r := [Res.eport p]
      if 0x100 ≤ o && o < 0x100 + 4 * 29 then some (ro (Table.get 0 x.counters ((o - 0x100) / 4)) r)
      else
        match o with
        | 0x00 =>
          some (ro (regWord [(31, 1, b2n c.enable), (30, 1, b2n c.promisc), (29, 1, b2n c.bcast), (26, 3, c.fwdTc), (24, 2, x.conf.reply.mode),
            (23, 1, b2n x.linkUp), (0, 14, c.maxFrame)]) r)
        | 0x04 =>
          some (ro (regWord [(24, 8, c.txValid.toNat), (17, 1, b2n c.ndValid), (16, 1, b2n c.rxValid), (8, 8, c.ndQueue), (0, 8, c.rxQueue)]) r)
        | 0x08 => some (ro (wordOf c.txQueues.toNat 0) r)
        | 0x0C => some (ro (wordOf c.txQueues.toNat 1) r)
        | 0x10 =>
          let gates := match x.inForce with
            | some g => fldN (g.entries.getD x.entry 0) 0 8
            | none => 0xFF
          some (ro (regWord [(31, 1, b2n x.inForce.isSome), (30, 1, b2n x.pendingGates.isSome), (8, 8, if x.inForce.isSome then x.entry else 0),
            (0, 8, gates)]) r)
        | _ => none

/-! ### Optical ports and the fabric -/

/-- POWER code. -/
def PortPower.code : PortPower → Nat
  | .active => 0 | .entering => 1 | .deep => 2

/-- Registers of a lane. -/
def laneCsr (s : State) (p l o : Nat) : Option Csr :=
  let k := (getPort s p).lane l
  let r := [Res.fport p]
  match o with
  | 0x0 =>
    some (ro (regWord [(24, 8, k.fom), (15, 9, k.offset), (14, 1, b2n k.marginal), (13, 1, b2n k.miswired), (12, 1, b2n k.failed),
      (8, 3, k.rx.code), (0, 3, k.tx.code)]) r)
  | 0x4 =>
    some (rw (regWord [(30, 1, b2n k.slipDone), (16, 4, k.slipFound), (0, 9, k.slipOffset)])
      (fun w => updPort p (fun x => x.updLane l (fun k => { k with slipOffset := min 256 (fldN w 0 9) }))) r)
  | 0x8 => some (ro k.eq r)
  | _ => none

/-- Registers of an F-port. -/
def fportCsr (s : State) (p o : Nat) : Option Csr :=
  let x := getPort s p
  let r := [Res.fport p]
  if o == 0 then
    some (ro (regWord [(28, 1, b2n x.autoWake), (26, 2, x.power.code), (24, 2, x.eqTable), (8, 3, x.direction), (0, 2, x.role)]) r)
  else if o == 4 then
    some (ro (regWord [(30, 2, x.txState.code), (28, 2, x.rxState.code), (18, 8, x.epoch.toNat), (9, 9, x.rxUse.toNat), (0, 9, x.txUse.toNat)]) r)
  else
    match within o 0x100 16 9 with
    | some (l, w) => laneCsr s p l w
    | none =>
      match within o 0x200 4 7 with
      | some (i, _) => some (rc (Table.get 0 x.counts i) (fun w => updPort p (fun x => { x with counts := Table.set 0 x.counts i w })) r)
      | none => none

/-- 0x008C_0000 on: the device's own registers of the fabric, and its channels. -/
def fabricOwnCsr (s : State) (a : Nat) : Option Csr :=
  let f := s.fabric
  match a with
  | 0x0 => some (ro (regWord [(31, 1, b2n f.coord.isSome), (0, 16, (f.coord.getD 0).toNat)]))
  | 0x4 => some (ro (regWord [(0, 16, f.sizes.toNat)]))
  | 0x8 => some (ro (regWord [(31, 1, b2n f.isBridge), (0, 7, f.members.length)]))
  | 0x100 => some (rc f.unroutable (fun w s => { s with fabric := { s.fabric with unroutable := w } }))
  | 0x104 => some (rc f.stray (fun w s => { s with fabric := { s.fabric with stray := w } }))
  | 0x108 => some (rc f.foreign (fun w s => { s with fabric := { s.fabric with foreign := w } }))
  | 0x10C => some (rc f.hostDrop (fun w s => { s with fabric := { s.fabric with hostDrop := w } }))
  | _ =>
    match within a 0x1000 16 64 with
    | some (k, o) =>
      let x := getChan s k
      if o == 0 then some (ro x.box [Res.channel k])
      else if o == 4 then some (ro (regWord [(31, 1, b2n x.enabled), (30, 1, owned x.owner), (27, 3, ownerNo x.owner)]) [Res.channel k])
      else none
    | none => none

/-- 0x0080_0000 on. -/
def fabricCsr (s : State) (a : Nat) : Option Csr :=
  if 0xC0000 ≤ a then fabricOwnCsr s (a - 0xC0000)
  else
    match within a 0 0x4000 40 with
    | some (p, o) => fportCsr s p o
    | none => none

/-! ### Time -/

/-- 0x0090_0000 on. -/
def timeCsr (s : State) (a : Nat) : Option Csr :=
  let t := s.time
  let r := [Res.timebase]
  let now := t.sec.toNat * 2 ^ 64 + t.ns.toNat * 2 ^ 32 + t.frac.toNat
  let pps := t.ppsInSec.toNat * 2 ^ 32 + t.ppsInNs.toNat
  match a with
  | 0x00 => some (ro (wordOf now 0) r)
  | 0x04 => some (ro (wordOf now 1) r)
  | 0x08 => some (ro (wordOf now 2) r)
  | 0x0C => some (ro (wordOf now 3) r)
  | 0x10 => some (ro (wordOf t.inc.toNat 0) r)
  | 0x14 => some (ro (wordOf t.inc.toNat 1) r)
  | 0x18 =>
    some (rw (regWord [(31, 1, b2n t.valid), (30, 1, b2n t.refused), (29, 1, b2n t.refLost), (28, 1, b2n t.pllLocked), (27, 1, b2n t.tref),
        (26, 1, owned t.owner), (23, 3, ownerNo t.owner), (0, 4, t.log.length)])
      (fun w s => if w.getLsbD 30 then clearRefused s else s) r)
  | 0x1C => some (rw t.jumpLimit (fun w s => { s with time := { s.time with jumpLimit := w } }) r)
  | 0x20 => some (rc t.jumps (fun w s => { s with time := { s.time with jumps := w } }) r)
  | 0x24 => some (rc t.refusedCount (fun w s => { s with time := { s.time with refusedCount := w } }) r)
  | 0x28 => some (rc t.ppsInCount (fun w s => { s with time := { s.time with ppsInCount := w } }) r)
  | 0x30 => some (ro (wordOf pps 0) r)
  | 0x34 => some (ro (wordOf pps 1) r)
  | 0x38 => some (ro (wordOf pps 2) r)
  | 0x40 =>
    some (rw (regWord [(1, 9, t.ppsWidth.toNat), (0, 1, b2n t.ppsEnable)]) (fun w s => setPps (w.getLsbD 0) (fldN w 1 9) s) r)
  | _ =>
    match within a 0x1000 32 64 with
    | some (m, o) =>
      let x : PtpMac := Table.get {} t.macs m
      let r := [Res.eport (m / 8)]
      let upd (f : PtpMac → PtpMac) (s : State) : State := { s with time := { s.time with macs := Table.upd {} s.time.macs m f } }
      match o with
      | 0x00 => some (ro (regWord [(0, 1, b2n x.tcEnable)]) r)
      | 0x04 => some (ro x.asym r)
      | 0x08 => some (rc x.updated (fun w => upd (fun x => { x with updated := w })) r)
      | 0x0C => some (rc x.stale (fun w => upd (fun x => { x with stale := w })) r)
      | 0x10 => some (rc x.saturated (fun w => upd (fun x => { x with saturated := w })) r)
      | 0x14 => some (rc x.oneStepSent (fun w => upd (fun x => { x with oneStepSent := w })) r)
      | 0x18 => some (rc x.oneStepSkipped (fun w => upd (fun x => { x with oneStepSkipped := w })) r)
      | _ => none
    | none =>
      match within a 0x2000 32 8 with
      | some (p, o) =>
        let mode := o / 4
        if 1 ≤ mode && mode ≤ 6 then
          let x : Trim := Table.get {} t.trims (8 * p + mode)
          some (ro (regWord [(16, 16, x.rx.toNat), (0, 16, if mode == 6 then 0 else x.tx.toNat)]) [Res.eport p])
        else none
      | none => none

/-! ### Power and health -/

/-- Mean of the latest samples of P, in microwatts (R364). -/
def powerAvg (s : State) : Nat := if s.power.samples.isEmpty then 0 else s.power.samples.sum / s.power.samples.length

/-- Total fill current in milliamperes. -/
def fillTotal (s : State) : Nat := (s.power.fill.map (fun kv => kv.2)).sum + s.power.ramp

/-- 0x00A0_0000 on. -/
def powerCsr (s : State) (a : Nat) : Option Csr :=
  let p := s.power
  let all := (definedParts s).map Res.partition
  let pending := (List.range 20).foldl (fun m b =>
    if (Table.get none p.pendGraft b).isSome || (Table.get none p.pendRetire b).isSome then m + 2 ^ b else m) 0
  match a with
  | 0x00 => some (ro (regWord [(21, 9, p.slew), (14, 7, p.fillLevel), (0, 12, p.limit)]) all)
  | 0x04 => some (ro (regWord [(20, 12, powerAvg s / 1000000), (13, 7, p.throttle), (0, 12, fillTotal s / 1000)]) all)
  | 0x08 => some (ro (regWord [(12, 10, p.maxMv), (0, 10, p.setpoint)]) all)
  | 0x0C =>
    some (ro (regWord [(31, 1, b2n p.warn), (30, 1, b2n p.warnPause.isSome), (29, 1, b2n p.hold), (0, 10, (Table.get {} p.rails 0).mv)]) all)
  | 0x10 => some (rc p.brownouts (fun w s => { s with power := { s.power with brownouts := w } }) all)
  | 0x14 => some (ro p.lastPause all)
  | 0x18 => some (ro (regWord [(0, 3, p.resetCause)]) all)
  | 0x1C => some (ro (BitVec.ofNat 32 s.canopy.pauses) all)
  | 0x20 => some (ro (regWord [(31, 1, b2n p.trip), (16, 8, p.limitC), (0, 8, p.maxC)]) all)
  | 0x30 => some (ro (regWord [(0, 20, p.noSpare.toNat)]) all)
  | 0x34 => some (ro (regWord [(0, 20, pending)]) all)
  | 0x40 =>
    some (rw (regWord [(16, 8, p.replanHours), (0, 8, p.offsetMv)])
      (fun w s => { s with power := { s.power with replanHours := max 1 (fldN w 16 8) } }) all)
  | _ =>
    match within a 0x1000 4 256 with
    | some (i, _) =>
      let m : Monitor := Table.get {} p.monitors i
      some (ro (regWord [(31, 1, b2n m.warn), (0, 16, min 65535 m.slowdown)]) all)
    | none => none

/-! ### Security -/

/-- STATE of GET_STATUS and SEC_STATUS (R383). -/
def BootStage.code : BootStage → Nat
  | .selfTest | .tested => 1
  | .ready => 2
  | .recovery => 3
  | _ => 0

/-- KEY_ID (R393): set with IDENTITY_OK. -/
def keyId (s : State) : List Byte :=
  if s.boot.identityOk then (sha384 (ecPublic s.boot.identityKey)).take 32 else List.replicate 32 0

/-- 0x00B0_0000 on. -/
def securityCsr (s : State) (a : Nat) : Option Csr :=
  match a with
  | 0x00 => some (ro (regWord [(27, 2, s.boot.stage.code), (24, 3, s.boot.cause), (0, 1, b2n s.boot.identityOk)]))
  | 0x04 => some (ro s.boot.fwVersion)
  | 0x08 => some (ro (regWord [(16, 16, s.boot.fwSecurity.toNat), (0, 16, s.boot.floor)]))
  | _ =>
    match within a 0x20 4 8 with
    | some (i, _) => some (ro (BitVec.ofNat 32 (leAt (keyId s) (4 * i) 4)))
    | none => none

/-! ### Ring log and reduction counts -/

/-- 0x00C0_0000 on. -/
def ringCsr (s : State) (a : Nat) : Option Csr :=
  let g := s.ring
  let r := [Res.ringLog]
  match a with
  | 0x00 =>
    some (rw (regWord [(16, 16, g.captureReg.toNat), (1, 3, g.part.getD 0), (0, 1, b2n g.active)])
      (fun w s => { s with ring := { s.ring with captureReg := fld w 16 16 } }) r)
  | 0x04 => some (ro (regWord [(31, 1, b2n g.skew), (16, 13, g.records.length), (0, 7, g.seals.length)]) r)
  | 0x08 => some (rc g.lost (fun w s => { s with ring := { s.ring with lost := w } }) r)
  | 0x10 => some (ro (wordOf g.nextIndex.toNat 0) r)
  | 0x14 => some (ro (wordOf g.nextIndex.toNat 1) r)
  | 0x100 => some (rc g.mismatch (fun w s => { s with ring := { s.ring with mismatch := w } }))
  | 0x104 => some (rc g.poison (fun w s => { s with ring := { s.ring with poison := w } }))
  | 0x108 => some (rc g.nonfinite (fun w s => { s with ring := { s.ring with nonfinite := w } }))
  | _ => none

/-! ### The whole map (R355) -/

/-- The register word at an address, none where nothing is mapped. -/
def csrAt (s : State) (a : Nat) : Option Csr :=
  let o := a % 0x100000
  match a / 0x100000 with
  | 0x0 => deviceCsr s o
  | 0x1 => profileCsr s o
  | 0x2 => canopyCsr s o
  | 0x3 => vaultCsr s o
  | 0x4 => queueCsr s o
  | 0x5 => arborCsr s o
  | 0x6 => triggerCsr s o
  | 0x7 => macCsr s o
  | 0x8 => fabricCsr s o
  | 0x9 => timeCsr s o
  | 0xA => powerCsr s o
  | 0xB => securityCsr s o
  | 0xC => ringCsr s o
  | _ => none

/-- Address and words of a READ_CSR or WRITE_CSR. -/
def csrAddr (f : Flight) : Nat := f.pkt.at_ 0 4
def csrWords (f : Flight) : List Nat :=
  let n := if f.op == .writeCsr then f.pkt.payload.length / 4 else f.pkt.at_ 4 2
  (List.range (min 1025 n)).map (fun i => csrAddr f + 4 * i)

/-- R354, and the lengths of R351. -/
def csrBad (f : Flight) (s : State) : Bool :=
  let ws := csrWords f
  csrAddr f % 4 != 0 || ws.isEmpty || decide (1024 < ws.length) || (f.op == .writeCsr && f.pkt.payload.length % 4 != 0)
    || ws.any (fun a => (csrAt s a).isNone)

/-- Resources whose registers a WRITE_CSR covers (DEDUCED, log entry 12). -/
def csrRes (f : Flight) (s : State) : List Res :=
  ((csrWords f).flatMap (fun a => match csrAt s a with
    | some c => c.res
    | none => [])).eraseDups

/-- What a word at an address reads as, and the state that the read leaves: an RC register reads as before the events of the
present CCLK cycle, and holds those afterwards (R20) (DEDUCED, log entry 42). -/
def readCsrWord (a : Nat) (s : State) : W32 × State :=
  match csrAt s a with
  | none => (0, s)
  | some c =>
    match c.onClear with
    | none => (c.value, s)
    | some put =>
      let old := min (Table.get 0 s.host.cycleStart a).toNat c.value.toNat
      let s := put (BitVec.ofNat 32 (c.value.toNat - old)) s
      (BitVec.ofNat 32 old, { s with host := { s.host with cycleStart := Table.set 0 s.host.cycleStart a 0 } })

/-- The words at some addresses, in order (R354). -/
def readCsrWords : List Nat → State → List Byte × State
  | [], s => ([], s)
  | a :: as, s =>
    let r := readCsrWord a s
    let rest := readCsrWords as r.2
    (leBytes 4 r.1.toNat ++ rest.1, rest.2)

/-- READ_CSR (R19, R20, R354). -/
def serveReadCsr (f : Flight) (s : State) : State :=
  if csrBad f s then answer f stBadParam s
  else
    let r := readCsrWords (csrWords f) s
    answerData f r.1 r.2

/-- Words of a block of a register map from an address on. -/
def blockAddrs (base n : Nat) : List Nat := (List.range n).map (fun i => base + 4 * i)

/-- Addresses of the registers that a read clears, but for those of a partition, queue, endpoint, MAC or port that nothing
has touched. -/
def rcAddrs (s : State) : List Nat :=
  [0x14] ++ (List.range 8).map (fun i => 0x10C + 16 * i)
    ++ s.canopy.parts.flatMap (fun kv => [0x200408 + 16 * kv.1] ++ blockAddrs (0x200500 + 16 * kv.1) 4)
    ++ blockAddrs 0x300020 3 ++ s.queues.flatMap (fun kv => blockAddrs (0x400020 + 64 * kv.1) 3)
    ++ blockAddrs 0x500800 6 ++ s.trig.streams.flatMap (fun kv => blockAddrs (0x600004 + 32 * kv.1) 5) ++ blockAddrs 0x600810 6
    ++ s.fabric.ports.flatMap (fun kv => (List.range 7).map (fun i => 0x800200 + 0x4000 * kv.1 + 4 * i)) ++ blockAddrs 0x8C0100 4
    ++ blockAddrs 0x900020 3 ++ s.time.macs.flatMap (fun kv => blockAddrs (0x901008 + 32 * kv.1) 5)
    ++ [0xA00010, 0xC00008] ++ blockAddrs 0xC00100 3

/-- A CCLK cycle begins (R20) (DEDUCED, log entry 42). -/
def beginCclk (s : State) : State :=
  let start := (rcAddrs s).foldl (fun m a => match csrAt s a with
    | some c => if c.onClear.isSome then Table.set 0 m a c.value else m
    | none => m) []
  { s with
    host := { s.host with cycleStart := start }, time := { s.time with refusedNow := false }
    queues := if s.queues.all (fun kv => !kv.2.overrunNow && !kv.2.poisonNow && !kv.2.rejectedNow) then s.queues
      else Table.mapAll {} (fun _ x => { x with overrunNow := false, poisonNow := false, rejectedNow := false }) s.queues }

/-- WRITE_CSR (R19, R20, R354). -/
def serveWriteCsr (f : Flight) (s : State) : State :=
  if csrBad f s then answer f stBadParam s
  else if (csrRes f s).any (fun r => foreign (resOwner s r) f.sess) then answer f stDenied s
  else
    let ws := (csrWords f).zip (bytesW32 f.pkt.payload)
    answerOk f (ws.foldl (fun s aw => match csrAt s aw.1 with
      | some c => c.onWrite aw.2 s
      | none => s) s)

/-- Every resource a command names (R346). A WRITE_CSR to the power block, which needs every partition (R379), names none (DEDUCED, log entry 12). -/
def allNames (f : Flight) (s : State) : List Res :=
  if f.op == .writeCsr then (if csrAddr f / 0x100000 == 0xA then [] else csrRes f s) else namesOf f s

end Sys2Proof.Machine
end

