-- ==== Sys2Proof/Machine/Power.lean ====
section
/-! DEFINITION. The governor, pauses, emergency stops, supply warnings, AVSBus moves, ageing and the margin re-plan (R362 to R374, R379, R380, R426). -/

namespace Sys2Proof.Machine

open Sys2Proof

/-! ### Pauses (R366, R371) -/

/-- Latch bits of STATUS_WORD (R428). -/
def latchStatus (bit : Nat) (s : State) : State :=
  { s with mgmt := { s.mgmt with pmbus := { s.mgmt.pmbus with status := s.mgmt.pmbus.status ||| (1#16 <<< bit) } } }

/-- A pause ends: it counts, and pin changes sampled during it reach their channels once the canopy is not paused. -/
def pauseEnded (s : State) : State :=
  let s := { s with canopy := { s.canopy with pauses := s.canopy.pauses + 1 } }
  if s.canopy.paused then s else releasePins s

/-- Whether the present cycle is paused: by THROTTLE, which takes the first cycles of each 64-cycle frame counted from
reset; by a warning pause; or while RESET_N ramps the current down. A run of throttled cycles that has ended counts. -/
def setPause (s : State) : State :=
  let was := s.canopy.throttled
  let thr := decide (s.clk.aclk % 64 < s.power.throttle)
  let stop := thr || s.power.warnPause.isSome || s.boot.phase != .running
  let s := { s with canopy := { s.canopy with throttled := thr, paused := stop
                                              pausedAt := if stop then some s.clk.tticks else s.canopy.pausedAt } }
  if was && !thr then pauseEnded s else s

/-! ### Emergency stop (R369) -/

/-- VCORE's current as last sampled, in mA. -/
def vcoreMa (s : State) : Nat := (Table.get {} s.power.rails 0).ma

/-- Every optical engine's laser goes dark (DEDUCED, log entry 25). -/
def lasersOff (s : State) : State :=
  (List.range 40).foldl (fun s p =>
    settlePort p (updPort p (fun x => (List.range 9).foldl (fun x l => x.updLane l (fun k => { k with tx := .off })) x) s)) s

/-- The side of a thermal stop. -/
def thermalSide (s : State) : State := lasersOff { s with vaults := { s.vaults with selfRefresh := true } }

/-- An emergency stop: every partition is aborted, the arbor accepts no sample, and fill holds VCORE's current and lowers
it. A thermal trip during another stop makes the stop thermal (DEDUCED, log entry 24). -/
def emergencyStop (cause : StopCause) (s : State) : State :=
  match s.power.estop with
  | some _ => if cause == .thermal then thermalSide { s with power := { s.power with estop := some .thermal } } else s
  | none =>
    let s := latchStatus 6 s
    let s := (List.range 8).foldl (fun s p => abortPartition p (fun g => g.namesPart p) s) s
    let s := { s with
      arbor := { s.arbor with stopped := true }
      power := { s.power with estop := some cause, ramp := vcoreMa s, fill := [], fillOn := 0 } }
    if cause == .thermal then thermalSide s else s

/-- POWER_STOP (R379): it replies when the stop ends. -/
def servePowerStop (f : Flight) (s : State) : State :=
  updFlight f.id (fun f => { f with phase := .active }) (emergencyStop .command s)

/-- EMERGENCY_STOP_END: VCORE's current is at idle. A thermal stop goes on. -/
def emergencyStopEnd (s : State) : State :=
  if s.power.estop.isNone || s.power.ramp != 0 then s
  else
    let s := s.host.flights.foldl (fun s f => if f.op == .powerStop && f.phase == .active then answerOk f s else s) s
    if s.power.estop == some .thermal then s
    else resumeEvals { s with power := { s.power with estop := none }, arbor := { s.arbor with stopped := false } }

/-! ### The governor's sample (R364, R366, R372) -/

/-- Move fill currents toward their targets, lowest partition first, within what SLEW leaves (DEDUCED, log entry 24). -/
def moveFill (target : Nat → Nat) : List Nat → Nat → Table Nat → Table Nat
  | [], _, t => t
  | p :: ps, room, t =>
    let now := Table.get 0 t p
    let want := target p
    let next := if now < want then now + min room (want - now) else now - min room (now - want)
    let used := if now < next then next - now else now - next
    moveFill target ps (room - used) (Table.set 0 t p next)

/-- TCLK ticks between two moves of THROTTLE. -/
def throttleGap (s : State) : Nat := 1000 * max 1 (ceilDiv (vcoreMa s) (64000 * max 1 s.power.slew))

/-- THROTTLE may move (DEDUCED, log entry 24). -/
def throttleFree (s : State) : Bool :=
  match s.power.throttleMoved with
  | some t => decide (t + throttleGap s ≤ s.clk.tticks)
  | none => true

/-- Move THROTTLE. -/
def setThrottle (n : Nat) (s : State) : State :=
  let s := if s.power.throttle == 0 && n != 0 then latchStatus 14 s else s
  { s with power := { s.power with throttle := n, throttleMoved := some s.clk.tticks } }

/-- Power or temperature over its limit. -/
def overLimit (s : State) : Bool := decide (s.power.limit * 1000000 < powerAvg s) || decide (s.power.limitC < s.power.maxC)

/-- P_AVG below 98% of LIMIT, and no temperature above its limit. -/
def relaxed (s : State) : Bool := decide (100 * powerAvg s < 98 * s.power.limit * 1000000) && decide (s.power.maxC ≤ s.power.limitC)

/-- The fill currents move towards their targets; over a limit they fall to zero. -/
def governFill (s : State) : State :=
  let cut := overLimit s || (s.power.cut && !(relaxed s && s.power.throttle == 0))
  let target (p : Nat) : Nat := if !cut && s.power.fillOn.getLsbD p then fillTarget s p else 0
  { s with power := { s.power with cut := cut, fill := moveFill target (List.range 8) (1000 * s.power.slew) s.power.fill } }

/-- THROTTLE rises by one over a limit once no fill is left, and falls by one when all is relaxed. -/
def governThrottle (empty : Bool) (s : State) : State :=
  if overLimit s && empty && s.power.throttle < 64 && throttleFree s then setThrottle (s.power.throttle + 1) s
  else if !overLimit s && relaxed s && s.power.throttle != 0 && throttleFree s then setThrottle (s.power.throttle - 1) s
  else s

/-- A limit exceeded at full THROTTLE for long enough ends in an emergency stop. -/
def governFull (s : State) : State :=
  if overLimit s && s.power.throttle == 64 then
    match s.power.fullSince with
    | some t => if t + 64000 ≤ s.clk.tticks then emergencyStop .power s else s
    | none => { s with power := { s.power with fullSince := some s.clk.tticks } }
  else { s with power := { s.power with fullSince := none } }

/-- Fill and THROTTLE after a sample (DEDUCED, log entry 24). -/
def govern (s : State) : State :=
  if s.power.ramp != 0 || s.power.estop.isSome then
    { s with power := { s.power with ramp := s.power.ramp - 1000 * max 10 s.power.slew } }
  else if s.power.warnPause.isSome then s
  else governFull (governThrottle s.power.fill.isEmpty (governFill s))

/-- Setpoint that the levels of R370 follow (DEDUCED, log entry 24). -/
def levelBase (s : State) : Nat := s.power.setpoint

/-- VCORE below warning, and at or above recovery. -/
def belowWarning (s : State) (mv : Nat) : Bool := decide (100 * mv < 94 * levelBase s)
def atRecovery (s : State) (mv : Nat) : Bool := decide (96 * levelBase s ≤ 100 * mv)

/-- VCORE has been seen: below recovery, it restarts the hold of a warning pause (R371) (DEDUCED, log entry 24). -/
def noteDip (mv : Nat) (s : State) : State := if atRecovery s mv then s else { s with power := { s.power with hold := false, dipAt := s.clk.tticks } }

/-- GOVERNOR_SAMPLE: voltage and current of the nine rails, and the hottest junction. Samples are at least 1 µs apart (DEDUCED, log entry 24; DESIGN CHOICE, log entries 8, 41). -/
def governorSample (rails : List (Nat × Nat)) (maxC : Nat) (s : State) : State :=
  let late := match s.power.sampledAt with
    | some t => decide (t + 1000 ≤ s.clk.tticks)
    | none => true
  if !late || inReset s then s
  else
    let rs := rails.take 9
    let watts := (rs.map (fun r => r.1 * r.2)).sum
    let table := rs.zipIdx.foldl (fun t ri => Table.set {} t ri.2 { mv := ri.1.1, ma := ri.1.2 }) []
    let mv := (rs.headD (0, 0)).1
    let s := noteDip mv s
    let s := if s.power.limitC < maxC || s.power.trip then latchStatus 2 s else s
    govern { s with power := { s.power with
      samples := (watts :: s.power.samples).take 64, sampledAt := some s.clk.tticks, rails := table, maxC := maxC
      warn := belowWarning s mv, hold := s.power.warnPause.isSome && atRecovery s mv } }

/-- THERMAL_TRIP (R372): a junction at 115 °C (DEDUCED, log entry 25; DESIGN CHOICE, log entry 41). -/
def thermalTrip (maxC : Nat) (s : State) : State :=
  if maxC < 115 || s.power.trip || inReset s then s
  else emergencyStop .thermal (latchStatus 2 { s with power := { s.power with trip := true, maxC := maxC } })

/-! ### Supply warning (R371) -/

/-- VCORE as the detectors saw it last. -/
def setVcore (mv : Nat) (s : State) : State :=
  { s with power := { s.power with rails := Table.upd {} s.power.rails 0 (fun r => { r with mv := mv }) } }

/-- VCORE_WARNING: VCORE below warning begins a warning pause; during one it is the Dipping case. Nothing is detected in reset (DEDUCED, log entries 24, 25). -/
def vcoreWarning (mv : Nat) (s : State) : State :=
  if inReset s then s
  else if s.power.warnPause.isSome then noteDip mv (setVcore mv s)
  else if !belowWarning s mv then s
  else
    let s := latchStatus 15 (setVcore mv s)
    let s := { s with
      canopy := { s.canopy with paused := true, pausedAt := some s.clk.tticks }
      power := { s.power with warn := true, hold := false, dipAt := s.clk.tticks, warnPause := some s.clk.tticks, brownouts := satAdd s.power.brownouts 1 } }
    postAll 0x0004 (leBytes 4 s.power.brownouts.toNat ++ leBytes 2 s.power.setpoint ++ leBytes 2 mv) s

/-- PAUSE_END: VCORE has stayed at or above recovery for 2 µs, and no fall below it was seen meanwhile (DEDUCED, log entry 24). -/
def warningEnd (mv : Nat) (s : State) : State :=
  match s.power.warnPause with
  | none => s
  | some t =>
    if !atRecovery s mv then noteDip mv s
    else if s.clk.tticks < s.power.dipAt + 2000 then s
    else
      let s := setVcore mv { s with
        canopy := { s.canopy with paused := s.canopy.throttled || s.boot.phase != .running }
        power := { s.power with warn := false, hold := false, warnPause := none, lastPause := satAdd 0 (s.clk.tticks - t) } }
      pauseEnded s

/-! ### Margin re-plan (R374) -/

/-- AGEING event (R380). -/
def ageing (kind unit value : Nat) (s : State) : State :=
  postAll 0x0005 (leBytes 1 kind ++ leBytes 1 0 ++ leBytes 2 unit ++ leBytes 2 value) s

/-- The slowdown not yet made up, in units of 0.01%. -/
def replanEff (s : State) : Int :=
  let w := (List.range 256).foldl (fun a i => max a (min 65535 (Table.get ({} : Monitor) s.power.monitors i).slowdown)) 0
  (w : Int) - 50 * ((s.power.offsetMv / 5 : Nat) : Int)

/-- Steps of 5 mV that a re-plan takes. -/
def replanSteps (s : State) : Nat :=
  let eff := replanEff s
  if 200 < eff then min ((eff - 200 + 49) / 50).toNat ((s.power.maxMv - s.power.setpoint) / 5) else 0

/-- A re-plan ends: its events. -/
def replanEnd (r : Replan) (s : State) : State :=
  let eff := r.eff - 50 * (r.steps : Int)
  let s := { s with power := { s.power with replan := none } }
  let s := if r.steps != 0 then ageing 1 0 s.power.setpoint s else s
  if 300 < eff then ageing 2 0 s.power.setpoint s else s

/-- A re-plan begins: the first target is written, if any step is to be taken. -/
def replanBegin (flight : Option Nat) (s : State) : State :=
  let n := replanSteps s
  let r : Replan := { left := n, steps := n, eff := replanEff s, flight := flight }
  if n == 0 then replanEnd r s
  else avsMove (s.power.setpoint + 5) { s with power := { s.power with replan := some r } }

/-- A 5 mV raise of a re-plan has been acknowledged. -/
def replanStep (s : State) : State :=
  match s.power.replan with
  | none => s
  | some r =>
    let r := { r with left := r.left - 1 }
    let off := min 255 (s.power.offsetMv + 5)
    let s := { s with power := { s.power with offsetMv := off, replan := some r }, flash := { s.flash with offsetMv := off } }
    if r.flight.isSome then s
    else if r.left == 0 then replanEnd r s
    else avsMove (s.power.setpoint + 5) s

/-- AVS_ACK: the outstanding target is in force. -/
def avsAck (s : State) : State :=
  match s.power.avs with
  | none => s
  | some w =>
    let s := { s with power := { s.power with setpoint := w.target, avs := none } }
    if s.power.replan.isSome && s.power.setpoint == s.power.goal then replanStep s else avsNext s

/-- AVS_RETRY: the outstanding write is repeated every 10 µs. -/
def avsRetry (s : State) : State :=
  match s.power.avs with
  | some w => if w.at_ + 10000 ≤ s.clk.tticks then { s with power := { s.power with avs := some { w with at_ := s.clk.tticks } } } else s
  | none => s

/-- AUTO_REPLAN: REPLAN_HOURS of uptime have passed since the latest. -/
def autoReplan (s : State) : State :=
  if s.clk.tticks < s.power.replanAt + s.power.replanHours * 3600000000000 || s.power.replan.isSome || s.power.testFrom.isSome
      || !avsIdle s || s.boot.stage != .ready then s
  else replanBegin none { s with power := { s.power with replanAt := s.clk.tticks } }

/-- MARGIN_REPLAN (R379): it becomes a stepped operation. -/
def serveMarginReplan (f : Flight) (s : State) : State := updFlight f.id (fun f => { f with phase := .active }) s

/-- The reply of a MARGIN_REPLAN. -/
def replanReply (f : Flight) (status : Nat) (isPartial : Bool) (s : State) : State :=
  complete f.id { status := status, isPartial := isPartial, progress := f.progress, result := leBytes 2 s.power.setpoint } s

/-- A step of a MARGIN_REPLAN: it does not advance while a write is not acknowledged. -/
def stepMarginReplan (f : Flight) (s : State) : State :=
  if !avsIdle s then s
  else if f.stage == 0 then
    if s.power.replan.isSome || s.power.testFrom.isSome then s
    else
      let n := replanSteps s
      let s := replanBegin (some f.id) s
      let s := updFlight f.id (fun f => { f with stage := 1, total := n }) s
      if n == 0 then replanReply f stOk false s else s
  else
    match s.power.replan with
    | none => s
    | some r =>
      let g := { f with progress := r.steps - r.left }
      let s := updFlight f.id (fun f => { f with progress := g.progress }) s
      if r.left == 0 then replanReply g stOk false (replanEnd r s)
      else if f.aborting then replanReply g stAborted true { s with power := { s.power with replan := none } }
      else avsMove (s.power.setpoint + 5) s

/-! ### Ageing (R373) -/

/-- Birth period of a monitor, in units of its own (R373) (DESIGN CHOICE, log entry 6). -/
def birthPeriod (s : State) (i : Nat) : Nat := (10000 + Table.get 0 s.flash.births i).toNat

/-- SLOWDOWN of a period against a birth period, in units of 0.01% (R373) (DEDUCED, log entry 29). -/
def slowdownOf (period birth : Nat) : Nat := 10000 * period / birth - 10000

/-- One monitor's measurement (DEDUCED, log entry 29). -/
def measureMonitor (i period : Nat) (s : State) : State :=
  let v := slowdownOf period (birthPeriod s i)
  let m : Monitor := Table.get {} s.power.monitors i
  let warn := if m.warn then decide (250 ≤ v) else decide (300 ≤ v)
  let s := { s with power := { s.power with monitors := Table.set {} s.power.monitors i { slowdown := v, warn := warn } } }
  if warn && !m.warn then ageing 0 i (min 65535 v) s else s

/-- AGEING_MEASURE: present periods of monitors 0 on, once a second (DEDUCED, log entries 25, 29). -/
def ageingMeasure (vs : List Nat) (s : State) : State :=
  let late := match s.power.measuredAt with
    | some t => decide (t + 1000000000 ≤ s.clk.tticks)
    | none => true
  if !late || inReset s then s
  else
    (vs.take 256).zipIdx.foldl (fun s vi => measureMonitor vi.2 vi.1 s) { s with power := { s.power with measuredAt := some s.clk.tticks } }

/-! ### Rows of the table -/

/-- GOVERNOR_SAMPLE (R366). -/
def execGovernorSample (rails : List (Nat × Nat)) (maxC : Nat) (s : State) : Host.Outcome State Fault Refusal :=
  .next (governorSample rails maxC s)

/-- EMERGENCY_STOP_END (R369). -/
def execEmergencyStopEnd (s : State) : Host.Outcome State Fault Refusal := .next (emergencyStopEnd s)

/-- VCORE_WARNING (R371). -/
def execVcoreWarning (mv : Nat) (s : State) : Host.Outcome State Fault Refusal := .next (vcoreWarning mv s)

/-- PAUSE_END (R371). -/
def execPauseEnd (mv : Nat) (s : State) : Host.Outcome State Fault Refusal := .next (warningEnd mv s)

/-- THERMAL_TRIP (R372). -/
def execThermalTrip (maxC : Nat) (s : State) : Host.Outcome State Fault Refusal := .next (thermalTrip maxC s)

/-- AGEING_MEASURE (R373). -/
def execAgeingMeasure (periods : List Nat) (s : State) : Host.Outcome State Fault Refusal := .next (ageingMeasure periods s)

/-- AUTO_REPLAN (R374). -/
def execAutoReplan (s : State) : Host.Outcome State Fault Refusal := .next (autoReplan s)

/-- AVS_ACK (R426). -/
def execAvsAck (s : State) : Host.Outcome State Fault Refusal := .next (avsAck s)

/-- AVS_RETRY (R426). -/
def execAvsRetry (s : State) : Host.Outcome State Fault Refusal := .next (avsRetry s)

end Sys2Proof.Machine
end

