-- ==== Sys2Proof/Machine/Health.lean ====
section
/-! DEFINITION. Failed columns, grafts, bay retirement, health tests, and the auxiliary accesses of the vaults (R70 to R73, R171 to R173, R176 to R178, R375 to R379). -/

namespace Sys2Proof.Machine

open Sys2Proof

/-! ### Events -/

/-- SPARE_EXHAUSTED event (R380). -/
def spareEvent (kind bay failed : Nat) (s : State) : State :=
  postAll 0x0006 (leBytes 1 kind ++ leBytes 1 bay ++ leBytes 2 failed ++ leBytes 2 (logicalCols s)) s

/-! ### Column failures (R376) -/

/-- Make a retirement pending; one that is already pending stays (DEDUCED, log entry 28). -/
def pendRetirement (b failed : Nat) (s : State) : State :=
  if (Table.get none s.power.pendRetire b).isSome then s
  else { s with power := { s.power with pendRetire := Table.set none s.power.pendRetire b (some failed) } }

/-- NO_SPARE of a bay. -/
def setNoSpare (b : Nat) (s : State) : State := { s with power := { s.power with noSpare := s.power.noSpare ||| (1#20 <<< b) } }

/-- A physical column has failed: false where COLUMN_FAIL without RETIRE is refused. `host` says that it comes from
COLUMN_FAIL, `retire` its RETIRE (DEDUCED, log entry 28). -/
def columnFailure (col : Nat) (host retire : Bool) (s : State) : Bool × State :=
  let b := col / 33
  let pos := col % 33
  let g := graftOf s b
  let pending := (Table.get none s.power.pendGraft b).isSome
  if g.failedPos < 32 && pos == g.failedPos then (true, s)
  else if pos == 32 && g.failedPos == 32 && !pending then
    (true, spareEvent 0 b col (setNoSpare b s))
  else if !s.power.noSpare.getLsbD b then
    (true, ageing 3 col 0 (setNoSpare b
      { s with power := { s.power with pendGraft := Table.set none s.power.pendGraft b (some col) } }))
  else if host && !retire then (false, s)
  else (true, pendRetirement b col s)

/-- A failure that the device found: physical columns 0 to 659, or 660 + b for the bypass stage of bay b. -/
def foundFailure (unit : Nat) (s : State) : State :=
  if unit < 660 then (columnFailure unit false false s).2
  else if unit < 680 then pendRetirement (unit - 660) 0xFFFF s
  else s

/-- COLUMN_FAIL (R376, R379). -/
def serveColumnFail (f : Flight) (s : State) : State :=
  let col := f.pkt.at_ 0 2
  let b := col / 33
  if 659 < col || (graftOf s b).retired then answer f stBadParam s
  else if (physBayParts s b).any (fun p => partForeign s p f.sess) then answer f stDenied s
  else
    let r := columnFailure col true (f.pkt.bits 2 0 1 == 1) s
    if r.1 then answerOk f r.2 else answer f stSpare s

/-! ### Health test (R379) -/

/-- Bays that a HEALTH_TEST names. -/
def testBays (f : Flight) : List Nat := (List.range 20).filter (fun b => f.pkt.params.getLsbD b)

/-- HEALTH_TEST: its tests. -/
def serveHealthTest (f : Flight) (s : State) : State :=
  let bays := testBays f
  let parts := bays.flatMap (physBayParts s)
  if bays.isEmpty || bays.any (fun b => (graftOf s b).retired) then answer f stBadParam s
  else if parts.any (fun p => partForeign s p f.sess) then answer f stDenied s
  else if parts.any (fun p => (List.range 4).any (fun c => ((getPart s p).ctx c).state != .empty)) then answer f stNotEmpty s
  else updFlight f.id (fun f => { f with phase := .active, total := bays.length }) s

/-- A step of a HEALTH_TEST: VCORE goes 25 mV down, and then each step tests the next bay, whose failing units `found` names; after
the last, VCORE returns (R379) (DEDUCED, log entries 11, 26). -/
def stepHealthTest (found : List Nat) (f : Flight) (s : State) : State :=
  if !avsIdle s then s
  else if f.stage == 0 then
    if s.power.replan.isSome || s.power.testFrom.isSome then s
    else updFlight f.id (fun f => { f with stage := 1 })
      (avsMove (s.power.setpoint - 25) { s with power := { s.power with testFrom := some s.power.setpoint } })
  else
  let b := (testBays f).getD f.progress 0
  let inBay (u : Nat) : Bool := if u < 660 then u / 33 == b else u == 660 + b
  let s := (found.filter inBay).foldl (fun s u => foundFailure u s) s
  let n := f.progress + 1
  if n < f.total then updFlight f.id (fun f => { f with progress := n }) s
  else complete f.id { status := stOk, progress := n } (testOver s)

/-! ### Grafts (R377) -/

/-- Word addresses of a physical vault whose stored bytes are listed. -/
def listedWords (s : State) (pv : Nat) : List Nat :=
  (s.vaults.mem.filterMap (fun kv =>
    let loc := kv.1 / 64
    if loc / 2 ^ 21 != pv then none
    else
      let o := loc % 2 ^ 21
      if o < 2 ^ 20 then some o
      else
        let spare := (o - 2 ^ 20) / 64
        let r := s.vaults.redirects.find? (fun d => d.row.vault == pv && (d.row.die * 16 + d.row.bank) * 6 + d.spare == spare)
        r.map (fun d => d.row.die * 2 ^ 18 + d.row.row * 1024 + (o - 2 ^ 20) % 64 * 16 + d.row.bank))).eraseDups

/-- Copy the contents of a logical vault, whose words are read, to a physical vault (DEDUCED, log entry 28). -/
def copyVault (v dst : Nat) (s : State) : State :=
  let s := { s with vaults := { s.vaults with mem := s.vaults.mem.filter (fun kv => kv.1 / 64 / 2 ^ 21 != dst) } }
  (listedWords s (physVault s v)).foldl (fun s w =>
    let r := readWord v w srcRepair s
    let s := r.2
    let mem := setStored (physLoc s dst w) (encodeWord r.1.1 r.1.2) s.vaults.mem
    { s with vaults := { s.vaults with mem := mem } }) s

/-- Every covering context is EMPTY, and no operation taken before names its partition. -/
def bayFree (s : State) (b : Nat) : Bool :=
  let parts := physBayParts s b
  parts.all (fun p => (List.range 4).all (fun c => ((getPart s p).ctx c).state == .empty))
    && !s.host.flights.any (fun f => f.phase != .waiting && parts.any (fun p => f.namesPart p))

/-- Column steps of a graft that flash has recorded (R377). -/
def graftDone (s : State) (b col : Nat) : Nat :=
  match Table.get none s.flash.grafting b with
  | some (c, n) => if c == col then n else 0
  | none => 0

/-- Record a graft in flash as in progress (R377) (DEDUCED, log entry 28). -/
def recordGraft (b : Nat) (r : Option (Nat × Nat)) (s : State) : State :=
  { s with flash := { s.flash with grafting := Table.set none s.flash.grafting b r } }

/-- Copy the vaults of position `f + i` of physical bay `b`, which is logical bay `lb`, one position up (DEDUCED, log entry 28). -/
def copyColumn (b lb f i : Nat) (s : State) : State :=
  (List.range 32).foldl (fun s seg => copyVault (32 * (32 * lb + f + i) + seg) (32 * (33 * b + f + i + 1) + seg) s) s

/-- A graft is complete: the maps change (DEDUCED, log entry 28). -/
def graftEnds (b col : Nat) (s : State) : State :=
  let s := recordGraft b none { s with
    canopy := { s.canopy with grafts := Table.upd {} s.canopy.grafts b (fun g => { g with failedPos := col % 33 }) }
    flash := { s.flash with grafts := Table.upd {} s.flash.grafts b (fun g => { g with failedPos := col % 33 }) }
    power := { s.power with pendGraft := Table.set none s.power.pendGraft b none } }
  spareEvent 0 b col (ageing 4 col 0 (setNoSpare b s))

/-- Up to `n` column steps of a pending graft, from the last recorded one on; after the last the graft is complete (R377) (DEDUCED, log entry 28). -/
def applyGraft (n b : Nat) (s : State) : State :=
  match Table.get none s.power.pendGraft b with
  | none => s
  | some col =>
    let f := col % 33
    let lb := ((liveBays s).findIdx? (fun x => x == b)).getD 0
    let done := graftDone s b col
    let s := recordGraft b (some (col, min (32 - f) (done + n))) s
    let s := (((List.range (32 - f)).reverse.drop done).take n).foldl (fun s i => copyColumn b lb f i s) s
    if done + n < 32 - f then s else graftEnds b col s

/-! ### Retirement (R378) -/

/-- Non-retired bays. -/
def baysLeft (s : State) : Nat := (liveBays s).length

/-- The fallback of R378 for the partition map in force. -/
def fallBack (s : State) : State :=
  let n := min 20 (baysLeft s)
  (List.range 8).foldl (fun s p =>
    let x := getPart s p
    if !x.valid || x.firstBay + x.bays ≤ n then s
    else if n ≤ x.firstBay then updPart p (fun x => { x with valid := false, firstBay := 0, bays := 0 }) s
    else updPart p (fun x => { x with bays := n - x.firstBay }) s) s

/-- Apply a pending retirement; a graft of the bay that is pending with it is dropped (DEDUCED, log entry 28). -/
def applyRetire (b : Nat) (s : State) : State :=
  match Table.get none s.power.pendRetire b with
  | none => s
  | some col =>
    let s := { s with
      canopy := { s.canopy with grafts := Table.upd {} s.canopy.grafts b (fun g => { g with retired := true }) }
      flash := { s.flash with grafts := Table.upd {} s.flash.grafts b (fun g => { g with retired := true }) }
      power := { s.power with pendGraft := Table.set none s.power.pendGraft b none, pendRetire := Table.set none s.power.pendRetire b none } }
    spareEvent 1 b col (fallBack (recordGraft b none s))

/-! ### Auxiliary accesses (R171 to R173) -/

/-- Word address of a column of a row. -/
def RowId.word (r : RowId) (col : Nat) : Nat := r.die * 2 ^ 18 + r.row * 1024 + col * 16 + r.bank

/-- REFRESH: a row of a physical vault is refreshed, first of all accesses once its deadline has come (R173) (DEDUCED, log entry 39). -/
def refreshRow (r : RowId) (s : State) : State :=
  auxAccess (if refreshDue s r then .overdue else .refresh) r.vault r.bank
    (fun s => { s with vaults := { s.vaults with refreshed := Table.set 0 s.vaults.refreshed r.key s.clk.aclk } }) s

/-! ### Background scrub (R174, R176) -/

/-- Scrub the next word of the row whose visit is first; after its 64 words the visit is over (DEDUCED, log entry 39). -/
def visitWord (r : RowId) (col : Nat) (s : State) : State :=
  let s := match logicalOf s r.vault with
    | some v => scrubWord v (r.word col) s
    | none => s
  let rest := s.vaults.visits.drop 1
  { s with vaults := { s.vaults with visits := if col < 63 then (r, col + 1) :: rest else rest } }

/-- The place after a word in a pass. -/
def scrubNext (s : State) : State :=
  let v := s.vaults.scrubAt / 2 ^ 20
  let w := s.vaults.scrubAt % 2 ^ 20
  if w + 1 < vaultWords s then { s with vaults := { s.vaults with scrubAt := s.vaults.scrubAt + 1 } }
  else if v + 1 < logicalVaults s then { s with vaults := { s.vaults with scrubAt := (v + 1) * 2 ^ 20 } }
  else { s with vaults := { s.vaults with scrubAt := 0, passes := s.vaults.passes + 1 } }

/-- SCRUB_VISIT: a row queued for a visit, or else the next word of the pass (DEDUCED, log entry 39). -/
def scrubVisit (s : State) : State :=
  if !s.vaults.scrubEnable then s
  else
    match s.vaults.visits with
    | (r, col) :: _ => auxAccess .scrub r.vault r.bank (visitWord r col) s
    | [] =>
      let v := s.vaults.scrubAt / 2 ^ 20
      let w := s.vaults.scrubAt % 2 ^ 20
      if logicalVaults s ≤ v then { s with vaults := { s.vaults with scrubAt := 0 } }
      else auxAccess .scrub (physVault s v) (bankOf w) (fun s => scrubNext (scrubWord v w s)) s

/-! ### Row repair (R177, R178) -/

/-- Copy the next word of a row under repair to its spare row (DEDUCED, log entry 39). -/
def copyRepair (d : Repair) : State → State :=
  auxAccess .repair d.row.vault d.row.bank (fun s =>
    let w := d.row.word d.copied
    let r := match logicalOf s d.row.vault with
      | some v => readWord v w srcRepair s
      | none => ((decodeWord (storedWord s (physLoc s d.row.vault w))).2, s)
    let s := r.2
    let d' := { d with copied := d.copied + 1 }
    let s := { s with vaults := { s.vaults with redirects := s.vaults.redirects.map (fun x => if x == d then d' else x) } }
    let mem := setStored (physLoc s d.row.vault w) (encodeWord r.1.1 r.1.2) s.vaults.mem
    let s := { s with vaults := { s.vaults with mem := mem } }
    if d'.copied < 64 then s
    else
      let n := min 65535 (s.vaults.repairs + 1)
      let kept := s.vaults.redirects.filter (fun x => x.copied == 64)
      { s with vaults := { s.vaults with repairs := n, corrected := s.vaults.corrected.filter (fun x => x.1 != d.row) }
               flash := { s.flash with redirects := kept, repairs := n } })

/-- A row whose bank has no free spare row: its vault, and so its column, has failed (R178). -/
def leaveRow (r : RowId) (s : State) : State :=
  let known := s.vaults.unrepaired.any (fun x => x.vault / 32 == r.vault / 32)
  let us := s.vaults.unrepaired ++ [r]
  let s := { s with vaults := { s.vaults with unrepaired := us }, flash := { s.flash with unrepaired := us } }
  if known then s else foundFailure (r.vault / 32) s

/-- ROW_REPAIR_COPY: a word of the row under repair is copied, or the next queued row comes under repair; the
latest redirection of a row comes first (DEDUCED, log entry 39). -/
def rowRepairCopy (s : State) : State :=
  match s.vaults.redirects.find? (fun d => decide (d.copied < 64)) with
  | some d => copyRepair d s
  | none =>
    match s.vaults.repairQueue with
    | [] => s
    | r :: rest =>
      let s := { s with vaults := { s.vaults with repairQueue := rest } }
      match freeSpares s r.vault r.bank r.die with
      | [] => leaveRow r s
      | i :: _ =>
        let d : Repair := { row := r, spare := i }
        copyRepair d { s with vaults := { s.vaults with redirects := d :: s.vaults.redirects } }

/-! ### Rows of the table -/

/-- SCRUB_ENABLE (R176). -/
def execScrubEnable (on : Bool) (s : State) : Host.Outcome State Fault Refusal :=
  .next { s with vaults := { s.vaults with scrubEnable := on } }

/-- REFRESH (R173). -/
def execRefresh (vault bank die row : Nat) (s : State) : Host.Outcome State Fault Refusal :=
  guardUnit (decide (vault < 21120) && decide (bank < 16) && decide (die < dies s) && decide (row < 256))
    (refreshRow { vault := vault, bank := bank, die := die, row := row } s)

/-- SCRUB_VISIT (R176). -/
def execScrubVisit (s : State) : Host.Outcome State Fault Refusal := .next (scrubVisit s)

/-- ROW_REPAIR_COPY (R177). -/
def execRowRepairCopy (s : State) : Host.Outcome State Fault Refusal := .next (rowRepairCopy s)

end Sys2Proof.Machine
end

