-- ==== Sys2Proof/Machine/Profile.lean ====
section
/-! DEFINITION. Profiles: their layout and rules, loading one, the profile commands, and the resets of ports (R34, R302, R381 to R391). -/

namespace Sys2Proof.Machine

open Sys2Proof

/-! ### Layout and rules (R387, R388) -/

/-- Partition fields of a profile: FIRST_BAY, BAYS, mode byte, reserved byte. -/
def profPart (b : List Byte) (p : Nat) : Nat × Nat × Nat × Nat :=
  (leAt b (24 + 4 * p) 1, leAt b (25 + 4 * p) 1, leAt b (26 + 4 * p) 1, leAt b (27 + 4 * p) 1)

/-- Bays of two partitions overlap. -/
def profOverlap (b : List Byte) (p q : Nat) : Bool :=
  let x := profPart b p
  let y := profPart b q
  x.2.1 != 0 && y.2.1 != 0 && decide (max x.1 y.1 < min (x.1 + x.2.1) (y.1 + y.2.1))

/-- An owner byte. -/
def profOwner (n : Nat) : Option Nat := if n / 128 % 2 == 1 then some (n % 8) else none

/-- Every byte of a stretch is zero. -/
def zeroAt (b : List Byte) (off len : Nat) : Bool := allZero (slice b off len)

/-- Partition rules of R388. -/
def profPartsOk (b : List Byte) : Bool :=
  (List.range 8).all (fun p =>
    let x := profPart b p
    x.2.2.1 / 32 == 0 && x.2.2.2 == 0 && (x.2.1 == 0 || (decide (x.1 + x.2.1 ≤ 20) && (x.2.2.1 / 16 % 2 == 1 || decide (x.2.1 ≤ 4))))
      && (List.range p).all (fun q => !profOverlap b p q))

/-- Port rules of R388. -/
def profPortsOk (b : List Byte) : Bool :=
  (List.range 8).all (fun e => decide (leAt b (56 + e) 1 ≤ 6) && leAt b (64 + e) 1 / 8 % 16 == 0)
    && (List.range 40).all (fun p =>
      let v := leAt b (72 + p) 1
      let role := v % 4
      decide (v < 32) && (role == roleExtra || v / 4 == 0) && leAt b (112 + p) 1 / 8 % 16 == 0
        && (if p < 32 then role == 0 || role == roleTorus else role != roleTorus))

/-- A profile is well-formed (R388). -/
def profileOk (b : List Byte) : Bool :=
  let flags := leAt b 6 1
  b.length == 1024 && leAt b 0 4 == 0x464F5250 && leAt b 4 2 == 1
    && decide (13 ≤ leAt b 7 1) && decide (leAt b 7 1 ≤ 26) && (!flags.testBit 0 || leAt b 7 1 == 26)
    && decide (650 ≤ leAt b 10 2) && decide (leAt b 10 2 ≤ leAt b 8 2) && decide (leAt b 8 2 ≤ leAt b 12 2) && decide (leAt b 12 2 ≤ 900)
    && decide (600 ≤ leAt b 14 2) && decide (leAt b 14 2 ≤ 2400) && decide (10 ≤ leAt b 16 2) && decide (leAt b 16 2 ≤ 400)
    && decide (leAt b 18 1 ≤ 100) && decide (85 ≤ leAt b 19 1) && decide (leAt b 19 1 ≤ 105) && decide (leAt b 23 1 ≤ 3)
    && profPartsOk b && profPortsOk b && (!flags.testBit 2 || !zeroAt b 640 96)
    && flags / 8 == 0 && leAt b 20 1 / 8 % 16 == 0 && leAt b 21 1 / 2 == 0 && zeroAt b 152 104 && zeroAt b 736 240
    && slice b 976 48 == sha384 (slice b 0 976)

/-- A slot is valid (R384). -/
def slotValid (x : Slot) : Bool :=
  match x.bytes with
  | some b => profileOk b
  | none => false

/-- A slot's stored profile has LOCKED set. -/
def slotLocked (x : Slot) : Bool :=
  match x.bytes with
  | some b => (leAt b 6 1).testBit 2
  | none => false

/-- The built-in profile of R384 (DEDUCED, log entry 27). -/
def builtInProfile : List Byte :=
  leBytes 4 0x464F5250 ++ leBytes 2 1 ++ leBytes 1 0 ++ leBytes 1 26 ++ leBytes 2 750 ++ leBytes 2 650 ++ leBytes 2 900
    ++ leBytes 2 2400 ++ leBytes 2 50 ++ leBytes 1 80 ++ leBytes 1 100 ++ List.replicate 84 0 ++ List.replicate 8 3 ++ List.replicate 912 0

/-- VALID_SLOTS and LOCKED_SLOTS (DEDUCED, log entry 27). -/
def noteSlots (s : State) : State :=
  let bits (f : Slot → Bool) : BitVec 4 := BitVec.ofNat 4 ((List.range 4).foldl (fun m n => if f (getSlot s n) then m + 2 ^ n else m) 0)
  { s with boot := { s.boot with validSlots := bits slotValid, lockedSlots := bits slotLocked } }

/-- The profile in force as commands report it (R352, R384). -/
def profileNo (s : State) : Nat := if s.boot.builtIn then 0xFF else s.boot.slot

/-! ### Operations that a reset of a domain ends (R35) -/

/-- Operations that use a domain, which its reset ends (R35, R435) (DEDUCED, log entries 12, 18). -/
def usesDomain (code port : Nat) (f : Flight) : Bool :=
  let names (k : Res → Bool) : Bool := f.op != .resetDomain && f.names.any k
  match code with
  | 1 => f.op == .loadImage || f.op == .unloadContext || f.op == .start || f.op == .step || f.op == .drain
  | 2 => names (fun r => match r with | .engine _ => true | _ => false)
  | 3 => f.op == .memRead || f.op == .memWrite || f.op == .memFill || f.op == .scrub || f.op == .loadImage
  | 4 => names (fun r => match r with | .queue _ => true | _ => false)
  | 5 => names (fun r => r == .eport port)
  | 6 => names (fun r => r == .fport port)
  | _ => names (fun r => r == .trigger)

/-- End an operation that uses a domain under reset (DEDUCED, log entry 18). -/
def endForReset (f : Flight) (s : State) : State :=
  if f.op == .step && f.stage == 1 then endAborted f (stepRun f s.canopy.now) true s
  else if f.op == .fportPower then endAborted f 0 true s
  else endNow f s

/-- End the operations that use a domain and were taken before an operation that resets it (R35) (DEDUCED, log entry 18). -/
def endUsers (code port : Nat) (f : Flight) (s : State) : State :=
  s.host.flights.foldl (fun s g => if g.id < f.id && !g.phase.isDone && usesDomain code port g then endForReset g s else s) s

/-! ### Resets of ports (R34, R302) -/

/-- A MAC after its port's reset. Frame numbers go on, so that no result of an earlier frame is taken for a later one's. -/
def Mac.afterReset (x : Mac) : Mac := { nextFrame := x.nextFrame }

/-- EPORT reset: counters, filter, gate list and configuration of every MAC, the templates, and the receivers of its stream lanes. The
registers of R333 kept once a MAC stay (DEDUCED, log entry 18). -/
def resetEPort (e : Nat) (s : State) : State :=
  let s := (List.range 8).foldl (fun s k => updMac (8 * e + k) Mac.afterReset (linkChange (8 * e + k) false s)) s
  (List.range 8).foldl (fun s l => setLane (8 * e + l) {} s) (updEPort e (fun x => { x with templates := [] }) s)

/-- A lane after its port's reset: its registers are at reset but for LANE_EQ, and it starts where the port has a role (R22, R290, R291, R302) (PRESUMED, log entry 46). -/
def Lane.afterReset (on lit : Bool) (k : Lane) : Lane :=
  { eq := k.eq, scrambler := k.scrambler, tx := if on then startTx lit else .off, rx := if on then .acquire else .off }

/-- A port's registers are at reset, and its lanes start where it has a role; its directions are DOWN from now on (R22, R290, R302). -/
def FPort.bringUp (x : FPort) (now : Nat) (lit : Bool) : FPort :=
  let on := x.role != 0
  let x := { x with autoWake := false, power := .active, txAsleep := false, rxAsleep := false, lastAlign := now, counts := [], rxUse := 0
                    searchAt := none, txDown := if on then some now else none, rxDown := if on then some now else none }
  (List.range 9).foldl (fun x l => x.updLane l (Lane.afterReset on lit)) x

/-- FPORT reset: the port is flushed and repeats blind bring-up (DEDUCED, log entries 18, 27). -/
def resetFPort (p : Nat) (s : State) : State :=
  settlePort p (updPort p (fun x => x.bringUp s.clk.tticks (lasersLit s)) (flushPort p s))

/-- Load a port's lanes from its equalisation table (R294). -/
def loadEq (p : Nat) (s : State) : State :=
  updPort p (fun x => (List.range 9).foldl (fun x l => x.updLane l (fun k =>
    let ok := Config.laneEqOk x.eqTable p l
    { k with eq := Config.laneEq x.eqTable p l, failed := k.failed || !ok, rx := if ok then k.rx else .off })) x) s

/-! ### Loading (R384, R387, R390) -/

/-- What a profile says of an F-port: role and direction. -/
def profPort (b : List Byte) (p : Nat) : Nat × Nat := (leAt b (72 + p) 1 % 4, leAt b (72 + p) 1 / 4 % 8)

/-- F-ports whose role, direction or EQ_TABLE a profile changes. -/
def changedPorts (b : List Byte) (s : State) : List Nat :=
  (List.range 40).filter (fun p =>
    let x := getPort s p
    x.role != (profPort b p).1 || x.direction != (profPort b p).2 || x.eqTable != leAt b 23 1)

/-- E-ports whose mode a profile changes. -/
def changedEPorts (b : List Byte) (s : State) : List Nat := (List.range 8).filter (fun e => (getEPort s e).mode != leAt b (56 + e) 1)

/-- Load a profile's partition map. -/
def loadParts (b : List Byte) (s : State) : State :=
  fallBack ((List.range 8).foldl (fun s p =>
    let x := profPart b p
    updPart p (fun k => { k with
      valid := x.2.1 != 0, firstBay := if x.2.1 == 0 then 0 else x.1, bays := x.2.1
      owner := if x.2.1 == 0 then none else some (x.2.2.1 % 8)
      byteMode := x.2.1 != 0 && x.2.2.1 / 8 % 2 == 1, padded := x.2.1 != 0 && x.2.2.1 / 16 % 2 == 1 }) s) s)

/-- Load a profile's ports: modes, roles, directions, tables and owners. -/
def loadPorts (b : List Byte) (s : State) : State :=
  let s := (List.range 8).foldl (fun s e => updEPort e (fun x => { x with mode := leAt b (56 + e) 1, owner := profOwner (leAt b (64 + e) 1) }) s) s
  (List.range 40).foldl (fun s p => updPort p (fun x => { x with
    role := (profPort b p).1, direction := (profPort b p).2, eqTable := leAt b 23 1, owner := profOwner (leAt b (112 + p) 1) }) s) s

/-- Load a profile: the registers whose Meaning names it, the clock plan, and the move of VCORE (DEDUCED, log entry 27). -/
def loadProfile (b : List Byte) (s : State) : State :=
  let tq := leAt b 22 1
  let on := leAt b 21 1 % 2 == 1
  let s := { s with
    boot := { s.boot with profile := b }
    clk := { s.clk with units := leAt b 7 1 }
    trig := { s.trig with owner := profOwner (leAt b 20 1), decEnableReg := on, decQueueReg := tq, decEnable := on, decQueue := tq }
    power := { s.power with
      limit := leAt b 14 2, slew := leAt b 16 2, fillLevel := leAt b 18 1, limitC := leAt b 19 1, minMv := leAt b 10 2, maxMv := leAt b 12 2 } }
  avsMove (leAt b 8 2 + s.power.offsetMv) (loadPorts b (loadParts b s))

/-- The profile that boot takes: the named slot, the lowest valid one, or the built-in profile (R384). -/
def bootProfile (s : State) : State :=
  let s := noteSlots { s with power := { s.power with offsetMv := s.flash.offsetMv }, boot := { s.boot with loaded := true } }
  let want := s.pins.profileSel.toNat
  let pick := (want :: List.range 4).find? (fun n => slotValid (getSlot s n))
  match pick with
  | some n =>
    loadProfile (((getSlot s n).bytes).getD []) { s with boot := { s.boot with slot := n, fallback := n != want, builtIn := false, byCommand := false } }
  | none =>
    loadProfile builtInProfile { s with boot := { s.boot with slot := 0, fallback := true, builtIn := true, byCommand := false } }

/-! ### Commands (R389 to R391) -/

/-- SELECT_PROFILE's refusals (DEDUCED, log entry 35). -/
def selectRefused (f : Flight) (s : State) : Option Nat :=
  let n := f.pkt.at_ 0 1
  let b := ((getSlot s n).bytes).getD []
  if 3 < n || !slotValid (getSlot s n) then some stBadParam
  else if (definedParts s).any (fun p => partForeign s p f.sess)
      || (List.range 8).any (fun e => foreign (getEPort s e).owner f.sess)
      || (List.range 40).any (fun p => foreign (getPort s p).owner f.sess) then some stDenied
  else if (List.range 8).any (fun p => (List.range 4).any (fun c => ((getPart s p).ctx c).state != .empty)) || s.ring.active
      || s.trig.chans.any (fun kv => kv.2.armed) || s.trig.outs.any (fun kv => kv.2.armed)
      || s.fabric.channels.any (fun kv => kv.2.enabled) then some stBadParam
  else if (changedPorts b s).any (fun p => (linkPorts s f.pkt).contains p) then some stBadParam
  else none

/-- SELECT_PROFILE (R390). -/
def serveSelectProfile (f : Flight) (s : State) : State :=
  match selectRefused f s with
  | some st => answer f st s
  | none => updFlight f.id (fun f => { f with phase := .active }) s

/-- A step of a SELECT_PROFILE: the profile is loaded, and VCORE then moves; it does not advance while a write is not
acknowledged (DEDUCED, log entries 18, 26). -/
def stepSelectProfile (f : Flight) (s : State) : State :=
  if f.stage != 0 then if avsIdle s then answerOk f s else s
  else if !avsIdle s || s.power.replan.isSome || s.power.testFrom.isSome then s
  else
    match selectRefused f s with
    | some st => answer f st s
    | none =>
      let n := f.pkt.at_ 0 1
      let b := ((getSlot s n).bytes).getD []
      let ports := changedPorts b s
      let eports := changedEPorts b s
      let s := eports.foldl (fun s e => resetEPort e (endUsers 5 e f s)) s
      let s := loadProfile b { s with boot := { s.boot with slot := n, byCommand := true, builtIn := false, fallback := false } }
      let s := ports.foldl (fun s p => loadEq p (resetFPort p (endUsers 6 p f s))) s
      updFlight f.id (fun f => { f with stage := 1 }) s

/-- READ_PROFILE (R391). -/
def serveReadProfile (f : Flight) (s : State) : State :=
  let n := f.pkt.at_ 0 1
  let x := getSlot s n
  if 3 < n then answer f stBadParam s
  else complete f.id { status := stOk, result := leBytes 8 x.writes, payload := x.bytes.getD (List.replicate 1024 0xFF) } s

/-- The signature of a WRITE_PROFILE verifies under a locked slot's ADMIN_KEY. -/
def adminSigned (n : Nat) (x : Slot) (payload : List Byte) : Bool :=
  let prof := payload.take 1024
  let digest := sha384 (leBytes 1 n ++ leBytes 8 x.writes ++ prof)
  payload.length == 1120 && ecdsaVerify (slice (x.bytes.getD []) 640 96) digest (beAt payload 1024 48) (beAt payload 1072 48)

/-- WRITE_PROFILE's refusals (R389). -/
def writeRefused (f : Flight) (s : State) : Option Nat :=
  let n := f.pkt.at_ 0 1
  let pl := f.pkt.payload
  if 3 < n || (pl.length != 1024 && pl.length != 1120) || !profileOk (pl.take 1024) then some stBadParam
  else if (definedParts s).any (fun p => partForeign s p f.sess) then some stDenied
  else if slotLocked (getSlot s n) && !adminSigned n (getSlot s n) pl then some stLocked
  else none

/-- WRITE_PROFILE (R389). -/
def serveWriteProfile (f : Flight) (s : State) : State :=
  match writeRefused f s with
  | some st => answer f st s
  | none => updFlight f.id (fun f => { f with phase := .active }) s

/-- The step of a WRITE_PROFILE that writes the slot (DEDUCED, log entry 27). -/
def stepWriteProfile (f : Flight) (s : State) : State :=
  match writeRefused f s with
  | some st => answer f st s
  | none =>
    let n := f.pkt.at_ 0 1
    let w : Slot := { bytes := some (f.pkt.payload.take 1024), writes := (getSlot s n).writes + 1 }
    answerOk f (noteSlots { s with flash := { s.flash with slots := Table.set {} s.flash.slots n w } })

end Sys2Proof.Machine
end

