-- ==== Sys2Proof/Machine/Security.lean ====
section
/-! DEFINITION. Identity, attestation, firmware, recovery and safe models (R392 to R401). -/

namespace Sys2Proof.Machine

open Sys2Proof

/-! ### The firmware image (R396) -/

/-- What the check of R396 finds. -/
inductive FwVerdict where
  | valid | invalid | rollback
  deriving DecidableEq, Repr

/-- TOTAL_BYTES and SECURITY_VERSION. -/
def fwTotal (b : List Byte) : Nat := leAt b 16 4
def fwSecVersion (b : List Byte) : Nat := leAt b 12 2

/-- Check an image held at the start of a region whose other bytes are erased. -/
def fwCheck (b : List Byte) (floor : Nat) : FwVerdict :=
  let n := fwTotal b
  let body := b.take n ++ List.replicate (n - b.length) 0xFF
  let digest := slice b 24 48
  let signed (key : Nat) : Bool := ecdsaVerify (Config.firmwareKey key) (sha384 (slice b 0 72)) (beAt b 72 48) (beAt b 120 48)
  if leAt b 0 4 != 0x57464C43 || leAt b 4 2 != 1 || leAt b 6 2 != 256 || decide (2 ^ 24 < n) then .invalid
  else if sha384 (body.drop 256) != digest || !(signed 0 || signed 1) then .invalid
  else if fwSecVersion b < floor then .rollback
  else .valid

/-- The running firmware's identity. -/
def runFirmware (s : State) : State :=
  let b := s.flash.firmware
  { s with boot := { s.boot with
    fwVersion := BitVec.ofNat 32 (leAt b 8 4), fwSecurity := BitVec.ofNat 16 (fwSecVersion b), fwDigest := slice b 24 48, floor := s.flash.floor } }

/-! ### FW_UPDATE (R397) -/

/-- FW_UPDATE's refusals before the image is read (DEDUCED, log entry 35). -/
def fwRefused (f : Flight) (s : State) : Option Nat :=
  if (definedParts s).any (fun p => partForeign s p f.sess) || (List.range 40).any (fun p => foreign (getPort s p).owner f.sess) then some stDenied
  else rangeRefused f (fwAddr f) (fwBytes f) s

/-- FW_UPDATE. -/
def serveFwUpdate (f : Flight) (s : State) : State :=
  match fwRefused f s with
  | some st => answer f st s
  | none => updFlight f.id (fun f => { f with phase := .active, total := fwLen f }) s

/-- The first step of an FW_UPDATE ends: its image has been read and is checked, and the image region erased. -/
def fwFirst (f : Flight) (s : State) : State :=
  let b := f.bytes.take (fwLen f)
  let v := fwCheck b s.flash.floor
  if fwTotal b != fwLen f || v == .invalid then answer f stSignature s
  else if v == .rollback then answer f stBadParam s
  else updFlight f.id (fun f => { f with bytes := b, stage := 1 }) { s with flash := { s.flash with firmware := [] } }

/-- An FW_UPDATE reads its image word by word in its first step. -/
def fwRead (f : Flight) (s : State) : State :=
  match fwRefused f s with
  | some st => answer f st s
  | none =>
    let s := readImage f s
    match imageRead s f with
    | some g => fwFirst g s
    | none => s

/-- A step of an FW_UPDATE that programs `n` bytes. The last reads the image back: `bad` says that the read-back fails (DEDUCED, log entry 11). -/
def stepFwUpdate (n : Nat) (bad : Bool) (f : Flight) (s : State) : State :=
  if f.stage == 0 then fwRead f s
  else
    let k := min f.total (f.progress + n)
    let s := { s with flash := { s.flash with firmware := f.bytes.take k } }
    if k < f.total then updFlight f.id (fun f => { f with progress := k }) s
    else if bad then complete f.id { status := stInternal, progress := k } { s with flash := { s.flash with firmware := [] } }
    else
      let floor := max s.flash.floor (fwSecVersion f.bytes)
      complete f.id { status := stOk, progress := k } { s with flash := { s.flash with floor := floor }, boot := { s.boot with floor := floor } }

/-! ### Recovery (R398, R399) -/

/-- The link of a command (R335), for a claim of recovery; the management UART has a SRC and ORIGIN_PORT that no link has. -/
def claimOf (p : Packet) : BitVec 16 × BitVec 8 := (p.src, p.origin)

/-- FW_RECOVER (R399). Boot restarts once the reply to a valid image has left, since the UART is silent outside recovery (R400) (DEDUCED, log entry 10). -/
def serveFwRecover (f : Flight) (s : State) : State :=
  let p := f.pkt
  let off := p.at_ 0 4
  let last := p.bits 4 0 1 == 1
  let n := p.payload.length
  let mine := claimOf p
  if s.boot.stage != .recovery || s.boot.restart then answer f stBadParam s
  else if s.boot.claim.isSome && s.boot.claim != some mine then answer f stDenied s
  else if n == 0 || 4096 < n || off != s.boot.received then answer f stBadParam s
  else
    let fw := if s.boot.claim.isNone then [] else s.flash.firmware
    let s := { s with flash := { s.flash with firmware := fw ++ p.payload }, boot := { s.boot with claim := some mine, received := off + n } }
    if !last then answerOk f s
    else
      let s := { s with boot := { s.boot with claim := none, received := 0 } }
      match fwCheck s.flash.firmware s.flash.floor with
      | .invalid => answer f stSignature s
      | .rollback => answer f stBadParam s
      | .valid =>
        let floor := max s.flash.floor (fwSecVersion s.flash.firmware)
        answerOk f { s with flash := { s.flash with floor := floor }, boot := { s.boot with restart := true, floor := floor } }

/-! ### Identity (R393 to R395) -/

/-- Boot restarts at the ROM's verification step (R399) (DEDUCED, log entry 10). -/
def restartBoot (s : State) : State := { s with boot := { s.boot with stage := .rom, cause := 0, restart := false } }

/-- The private identity key of a seed (R392). -/
def keyOfSeed (z : BitVec 384) : Nat := z.toNat % (ecN - 1) + 1

/-- Bytes 183:0 of the device certificate (R394) (DESIGN CHOICE, log entry 7). -/
def certBody (s : State) : List Byte :=
  leBytes 4 0x54524543 ++ leBytes 2 1 ++ leBytes 2 0 ++ padTo 12 (orderingCode s) ++ leBytes 1 (steppingCode s) ++ leBytes 3 0
    ++ padTo 16 Config.serial ++ padTo 96 (ecPublic (keyOfSeed Config.pufSeed)) ++ padTo 48 (sha384 (ecPublic Config.issuerKey))

/-- The device certificate, as written at manufacture (R394) (DESIGN CHOICE, log entry 7). -/
def certificate (s : State) : List Byte :=
  padTo 288 (certBody s ++ ecdsaSign Config.issuerKey Config.issuerNonce (sha384 (certBody s)))

/-- PUBLIC_KEY of the certificate. -/
def certKey (s : State) : List Byte := slice (certificate s) 40 96

/-- The identity key that boot forms from the start-up state of the PUF and the helper data in flash, none where the correction
fails or its public key is not the certificate's (R392) (DESIGN CHOICE, log entry 7). -/
def bootKey (puf : List Byte) (s : State) : Option Nat :=
  match Config.pufCorrect puf s.flash.helper with
  | some z => if ecPublic (keyOfSeed z) == certKey s then some (keyOfSeed z) else none
  | none => none

/-- GET_CERT (R394). -/
def serveGetCert (f : Flight) (s : State) : State := answerData f (certificate s) s

/-- RETIRED mask of the physical bays. -/
def retiredMask (s : State) : Nat := (List.range 20).foldl (fun m b => if (graftOf s b).retired then m + 2 ^ b else m) 0

/-- Bytes 255:0 of an attestation report (R395). -/
def attestBody (nonce : List Byte) (s : State) : List Byte :=
  let digest := if s.boot.builtIn then List.replicate 48 0 else padTo 48 (slice s.boot.profile 976 48)
  leBytes 4 0x54535441 ++ leBytes 2 1 ++ leBytes 2 0 ++ padTo 32 nonce ++ keyId s ++ leBytes 4 s.boot.fwVersion.toNat
    ++ leBytes 2 s.boot.fwSecurity.toNat ++ leBytes 2 s.boot.floor ++ padTo 48 s.boot.fwDigest ++ leBytes 1 (profileNo s)
    ++ leBytes 1 (b2n s.boot.byCommand + 2 * b2n s.boot.fallback + 4 * b2n s.time.valid) ++ leBytes 2 (logicalCols s)
    ++ leBytes 3 (retiredMask s) ++ leBytes 1 (steppingCode s) ++ digest ++ leBytes 6 s.time.sec.toNat ++ leBytes 4 s.time.ns.toNat
    ++ leBytes 1 s.power.offsetMv ++ leBytes 1 0 ++ leBytes 8 s.ring.nextIndex.toNat ++ List.replicate 52 0

/-- ATTEST (R395): a stepped operation. -/
def serveAttest (f : Flight) (s : State) : State := updFlight f.id (fun f => { f with phase := .active }) s

/-- The step of an ATTEST (DESIGN CHOICE, log entries 3, 30). -/
def stepAttest (f : Flight) (s : State) : State :=
  let body := attestBody (f.pkt.bytes 0 32) s
  let r := takeFree s
  answerData f (body ++ padTo 96 (ecdsaSign s.boot.identityKey r.1 (sha384 body))) r.2

/-! ### Safe models (R234, R401) -/

/-- SAFE_MODEL_STORE's refusals. -/
def safeRefused (f : Flight) (s : State) : Option Nat :=
  let e := f.pkt.at_ 0 1
  let act := f.pkt.at_ 1 1
  if !isEngine e || 1 < act then some stBadParam
  else if foreign (getEngine s e).owner f.sess then some stDenied
  else if act == 0 && !(getEngine s e).safeLoaded then some stBadParam
  else none

/-- SAFE_MODEL_STORE (R401). -/
def serveSafeModelStore (f : Flight) (s : State) : State :=
  match safeRefused f s with
  | some st => answer f st s
  | none => updFlight f.id (fun f => { f with phase := .active }) s

/-- The step of a SAFE_MODEL_STORE that writes the region. -/
def stepSafeModelStore (f : Flight) (s : State) : State :=
  match safeRefused f s with
  | some st => answer f st s
  | none =>
    let e := f.pkt.at_ 0 1
    let x := getEngine s e
    let m : Option SafeModel :=
      if f.pkt.at_ 1 1 == 0 then some { preds := x.preds, entries := x.entries, predicates := x.predicates, trees := x.trees } else none
    answerOk f { s with flash := { s.flash with safe := Table.set none s.flash.safe e m } }

/-- Load an engine's safe model from flash at boot. -/
def loadSafeModel (e : Nat) (s : State) : State :=
  match Table.get none s.flash.safe e with
  | some m =>
    updEngine e (fun x => { x with
      preds := m.preds, entries := m.entries, predicates := m.predicates, trees := m.trees, safeLoaded := true, mode := .ternary }) s
  | none => s

end Sys2Proof.Machine
end

