-- ==== Sys2Proof/Machine/Boot.lean ====
section
/-! DEFINITION. Resets of the device and of one domain, and the steps of boot (R22, R34, R35, R371, R382 to R386, R398, R416, R417, R433, R435). -/

namespace Sys2Proof.Machine

open Sys2Proof

/-! ### Reset of the whole device (R371, R416, R417) -/

/-- Every domain resets. Flash, the board's pins and the test logic keep their state; `cause` is what RESET_CAUSE then reads,
and a thermal trip, with its bit of STATUS_WORD, outlives every reset but one by RESET_N (R372, R428) (DEDUCED, log entry 25; DESIGN CHOICE, log entries 6, 40). -/
def resetDevice (cause : Nat) (phase : ResetPhase) (s : State) : State :=
  let trip := s.power.trip && cause != 0
  { pending := s.pending
    part := s.part
    fresh := s.fresh
    flash := s.flash
    pins := s.pins
    mgmt := { jtag := s.mgmt.jtag, pmbus := { status := if trip then 4 else 0 } }
    host := { sent := s.host.sent }
    trig := { pins := s.trig.pins }
    arbor := { stopped := trip }
    power := { resetCause := cause, trip := trip, estop := if trip then some .thermal else none }
    boot := { phase := phase, floor := 0 } }

/-- Boot begins (R383). -/
def beginBoot (s : State) : State := { s with boot := { s.boot with phase := .running, stage := .rom } }

/-- RESET_N_ASSERT: the current of VCORE ramps down first. In reset there is none, and the reset takes effect at once; a hold after a
supply reset goes on as a reset by RESET_N (DEDUCED, log entry 25). -/
def resetAssert (s : State) : State :=
  let s := { s with pins := { s.pins with resetN := false } }
  match s.boot.phase with
  | .running =>
    setPause { s with boot := { s.boot with phase := .ramping }, power := { s.power with ramp := max s.power.ramp (vcoreMa s), fill := [], fillOn := 0 } }
  | .ramping => s
  | .inReset => resetDevice 0 .inReset s
  | .supplyHold => resetDevice 0 .supplyHold s

/-- RESET_TAKES_EFFECT: the ramp has ended. Boot begins at once where RESET_N has risen since (DEDUCED, log entry 25). -/
def resetEffect (s : State) : State :=
  if s.boot.phase != .ramping || s.power.ramp != 0 then s
  else
    let s := resetDevice 0 .inReset s
    if s.pins.resetN && s.pins.pwrGood then beginBoot s else s

/-- RESET_N_RELEASE: a rising edge samples PROFILE_SEL and PMB_ADDR, with the level of PWR_GOOD (DEDUCED, log entry 25). -/
def resetRelease (sel : BitVec 2) (addr : BitVec 3) (pwrGood : Bool) (s : State) : State :=
  if s.pins.resetN then s
  else
    let s := { s with pins := { resetN := true, pwrGood := pwrGood, profileSel := sel, pmbAddr := addr } }
    if s.boot.phase == .inReset && pwrGood then beginBoot s else s

/-- PWR_GOOD_LOW: the reset takes effect at once (DEDUCED, log entry 25). -/
def pwrGoodLow (s : State) : State :=
  let s := { s with pins := { s.pins with pwrGood := false } }
  resetDevice 0 (if s.boot.phase == .supplyHold then .supplyHold else .inReset) s

/-- Reset level of a rail in mV × 100 (R370, R412). -/
def resetLevel (s : State) (rail : Nat) : Nat :=
  if rail == 0 then 88 * levelBase s
  else 100 * ([0, 704, 924, 1584, 748, 1584, 2904, 1584, 1056].getD rail 0)

/-- SUPPLY_RESET: a rail has stayed below its reset level for more than 50 ns. Where RESET_N is asserted and the current ramps down,
the reset by RESET_N takes effect with it (DEDUCED, log entry 25; DESIGN CHOICE, log entry 41). -/
def supplyReset (rail mv : Nat) (s : State) : State :=
  if resetLevel s rail ≤ 100 * mv then s else resetDevice (if s.boot.phase == .ramping then 0 else if rail == 0 then 1 else 2) .supplyHold s

/-- SUPPLY_RESET_HOLD_END: every rail has stayed above its reset level for 1 ms (DEDUCED, log entry 25). -/
def holdEnd (s : State) : State :=
  if s.boot.phase != .supplyHold then s
  else if s.pins.resetN && s.pins.pwrGood then beginBoot s
  else { s with boot := { s.boot with phase := .inReset } }

/-! ### Steps of boot (R383 to R386) -/

/-- The PLL of TCLK locks to REFCLK, before host links come up, unless the reference is lost (R319) (DEDUCED, log entry 10). -/
def firstLock (s : State) : State := { s with time := { s.time with pllLocked := !s.time.refLost } }

/-- Boot ends in recovery. In ROM recovery ports 32 to 39 are HOST ports with table 0 (R398) (DEDUCED, log entries 10, 27). -/
def enterRecovery (cause : Nat) (s : State) : State :=
  let s := { s with boot := { s.boot with stage := .recovery, cause := cause, claim := none, received := 0, restart := false } }
  if cause != 1 then s
  else
    let s := firstLock { s with boot := { s.boot with fwVersion := 0, fwSecurity := 0, fwDigest := [] } }
    (List.range 8).foldl (fun s i =>
      let p := 32 + i
      if (getPort s p).role == roleHost && (getPort s p).eqTable == 0 && (getPort s p).txState != .down then s
      else loadEq p (resetFPort p (updPort p (fun x => { x with role := roleHost, direction := 0, eqTable := 0, owner := none }) s))) s

/-- The tables of flash, and the ports of the profile (R70, R177, R294, R326, R378) (DEDUCED, log entries 10, 28). -/
def loadTables (s : State) : State :=
  let spares : BitVec 20 := (List.range 20).foldl (fun m b =>
    if (Table.get ({} : Graft) s.flash.grafts b).failedPos < 32 || (Table.get none s.flash.grafting b).isSome then m ||| (1#20 <<< b) else m) 0
  let s := { s with
    canopy := { s.canopy with grafts := s.flash.grafts }
    vaults := { s.vaults with redirects := s.flash.redirects, unrepaired := s.flash.unrepaired, repairs := s.flash.repairs }
    time := { s.time with trims := s.flash.trims }
    power := { s.power with
      noSpare := s.power.noSpare ||| spares
      pendGraft := s.flash.grafting.foldl (fun t kv => Table.set none t kv.1 (kv.2.map (fun r => r.1))) s.power.pendGraft } }
  let s := fallBack (firstLock s)
  (List.range 40).foldl (fun s p => loadEq p (resetFPort p s)) s

/-- Vault training, in which every vault word is written to zero, and the safe models (R234, R433). -/
def trainVaults (s : State) : State :=
  (List.range 64).foldl (fun s e => loadSafeModel e s) { s with vaults := { s.vaults with mem := [] } }

/-- A failed engine after self-test (R386). -/
def engineTest (nodes ternary : List Nat) (e : Nat) (x : Engine) : Engine :=
  let x := if ternary.contains e then { x with tcamFailed := true, safeLoaded := false, trees := 0, mode := .idle } else x
  if nodes.contains e then { x with mode := if x.safeLoaded then .ternary else .retired } else x

/-- What self-test finds (R376, R386); the column of a graft that a reset has interrupted is known to have failed (DEDUCED, log entry 28). -/
def selfTest (r : BootReport) (s : State) : State :=
  let s := (liveBays s).foldl (fun s b =>
    { s with canopy := { s.canopy with grafts := Table.upd {} s.canopy.grafts b (fun g => { g with bypassOk := !r.bypass.contains b }) } }) s
  let live (b : Nat) : Bool := !(graftOf s b).retired
  let s := (r.bypass.filter (fun b => decide (b < 20) && live b)).foldl (fun s b => foundFailure (660 + b) s) s
  let s := (r.columns.filter (fun c => decide (c < 660) && live (c / 33) && Table.get none s.power.pendGraft (c / 33) != some c)).foldl (fun s c => foundFailure c s) s
  (List.range 64).foldl (fun s e => updEngine e (engineTest r.nodes r.ternary e) s) s

/-- Self-test begins: VCORE goes 25 mV down, as for HEALTH_TEST (R379, R386) (DEDUCED, log entry 26). -/
def beginTest (s : State) : State := avsMove (s.power.setpoint - 25) { s with power := { s.power with testFrom := some s.power.setpoint } }

/-- BOOT_STEP: the step in progress ends and the next begins, or boot enters recovery. -/
def bootStep (r : BootReport) (s : State) : State :=
  let next (st : BootStage) (s : State) : State := { s with boot := { s.boot with stage := st } }
  if s.boot.phase != .running then s
  else
    match s.boot.stage with
    | .rom =>
      let s := { s with boot := { s.boot with floor := s.flash.floor } }
      if fwCheck s.flash.firmware s.flash.floor == .valid then next .profile (runFirmware s) else enterRecovery 1 s
    | .profile => next .identity (bootProfile s)
    | .identity =>
      if !avsIdle s then s
      else
        match bootKey r.puf s with
        | some d => next .tables { s with boot := { s.boot with identityOk := true, identityKey := d } }
        | none => enterRecovery 2 s
    | .tables => next .training (loadTables s)
    | .training => next .selfTest (beginTest (trainVaults s))
    | .selfTest =>
      if !avsIdle s then s
      else if r.fatal || !s.time.pllLocked then enterRecovery 3 (testOver s)
      else next .tested (testOver (selfTest r s))
    | .tested | .ready | .recovery => s

/-- The device becomes ready: pending grafts and retirements are applied (R383). -/
def bootReady (s : State) : State :=
  if s.boot.stage != .tested then s
  else
    let s := (List.range 20).foldl (fun s b =>
      if (Table.get none s.power.pendRetire b).isSome then applyRetire b s else applyGraft 32 b s) s
    { s with boot := { s.boot with stage := .ready } }

/-! ### Reset of one domain (R34, R35, R435) -/

/-- CANOPY: contexts, tiles, links and queues; the registers that the domain owns return to their reset values (R22). The
partition map, the fault logs and a stop that is not quiescent yet stay (DEDUCED, log entry 18). -/
def resetCanopy (s : State) : State :=
  let s := (List.range 8).foldl (fun s p => if (getPart s p).busy then stopAsCommand p s else s) s
  let s := (List.range 8).foldl (fun s p => updPart p (fun x =>
    ({ valid := x.valid, firstBay := x.firstBay, bays := x.bays, owner := x.owner, byteMode := x.byteMode, padded := x.padded, start := x.start
       log := x.log, logMark := x.logMark, lost := x.lost, stopped := x.stopped, firstRec := x.firstRec, portsClosed := x.portsClosed } : Partition)) s) s
  { s with canopy := { s.canopy with tiles := [], edges := [], taken := [] } }

/-- The samples of every ensemble are lost to their frames. -/
def loseAllSamples (s : State) : State := (s.arbor.ensembles.map (fun kv => kv.1)).foldl (fun s e => loseSamples e s) s

/-- ARBOR: every sample in a queue or pipeline, and every result not delivered, goes; the event counts clear (R22, R234) (DEDUCED, log entry 18). -/
def resetArbor (s : State) : State :=
  let s := loseAllSamples s
  { s with arbor := { engines := s.arbor.engines, ensembles := Table.mapAll {} (fun _ x => x.discard) s.arbor.ensembles, stopped := s.arbor.stopped } }

/-- VAULT: the controllers are retrained; contents, repairs and retirements stay (R22, R34) (DEDUCED, log entry 18). -/
def resetVaults (s : State) : State :=
  let v := s.vaults
  { s with vaults := { mem := v.mem, redirects := v.redirects, repairQueue := v.repairQueue, unrepaired := v.unrepaired, visits := v.visits
                       refreshed := v.refreshed, refreshBase := v.refreshBase, auxWait := v.auxWait, selfRefresh := v.selfRefresh, repairs := v.repairs, retraining := true } }

/-- TRIGGER: everything is disarmed and every capture released; the event counts clear (R22, R259) (DEDUCED, log entry 18). -/
def resetTrigDomain (s : State) : State :=
  let s := resetTrigger s
  let s := (List.range 4).foldl (fun s o => updOutT o (fun x => { x with holdEnd := 0 }) (updCap o (fun u => { u with captureWr := 0 }) s)) s
  { s with trig := { s.trig with
    streams := Table.mapAll {} (fun _ x => { x with accepted := 0, drop := 0, crc := 0, malformed := 0, stopped := 0 }) s.trig.streams
    chans := Table.mapAll {} (fun _ x => { x with release := 0 }) s.trig.chans
    nan := 0, poison := 0, suppressed := 0, decLost := 0, capLost := 0, unbound := 0 } }

/-- RESET_DOMAIN's refusals. -/
def resetRefused (f : Flight) (s : State) : Option Nat :=
  let code := f.pkt.at_ 0 1
  let port := f.pkt.at_ 1 1
  let foreignTo : Bool :=
    if code ≤ 4 then (definedParts s).any (fun p => partForeign s p f.sess)
    else if code == 5 then foreign (getEPort s port).owner f.sess
    else if code == 6 then foreign (getPort s port).owner f.sess
    else foreign s.trig.owner f.sess
  if code == 0 || 7 < code || (code == 5 && 7 < port) || (code == 6 && 39 < port) then some stBadParam
  else if foreignTo then some stDenied
  else if code == 6 && (linkPorts s f.pkt).contains port then some stBadParam
  else if code == 3 && (definedParts s).any (fun p => (getPart s p).busy) then some stBadParam
  else none

/-- SPILL: every queue is empty, with its configuration at reset, and holds no frame of an ingress endpoint (R34, R246) (DEDUCED, log entry 18). -/
def resetSpill (s : State) : State :=
  { s with queues := [], trig := { s.trig with streams := Table.mapAll {} (fun _ x => { x with frames := [], lost := none }) s.trig.streams } }

/-- Reset a domain (DEDUCED, log entry 18). -/
def resetDomain (code port : Nat) (s : State) : State :=
  match code with
  | 1 => resetCanopy s
  | 2 => resetArbor s
  | 3 => resetVaults s
  | 4 => resetSpill s
  | 5 => resetEPort port s
  | 6 => resetFPort port s
  | _ => resetTrigDomain s

/-- RESET_DOMAIN (R35): operations that use the domain end, and the domain is reset; the reply waits until it is ready. -/
def serveResetDomain (f : Flight) (s : State) : State :=
  let code := f.pkt.at_ 0 1
  let port := f.pkt.at_ 1 1
  match resetRefused f s with
  | some st => answer f st s
  | none =>
    updFlight f.id (fun f => { f with phase := .active }) (resetDomain code port (endUsers code port f s))

/-- The step of a RESET_DOMAIN after which its domain is ready (DEDUCED, log entry 18). -/
def stepResetDomain (f : Flight) (s : State) : State :=
  let s := if f.pkt.at_ 0 1 == 3 then { s with vaults := { s.vaults with retraining := false, refreshBase := s.clk.aclk } } else s
  answerOk f s

/-! ### Rows of the table -/

/-- RESET_N_ASSERT (R417). -/
def execResetNAssert (s : State) : Host.Outcome State Fault Refusal := .next (resetAssert s)

/-- RESET_TAKES_EFFECT (R417). -/
def execResetTakesEffect (s : State) : Host.Outcome State Fault Refusal := .next (resetEffect s)

/-- RESET_N_RELEASE (R417). -/
def execResetNRelease (sel : BitVec 2) (addr : BitVec 3) (pwrGood : Bool) (s : State) : Host.Outcome State Fault Refusal :=
  .next (resetRelease sel addr pwrGood s)

/-- PWR_GOOD_LOW (R416). -/
def execPwrGoodLow (s : State) : Host.Outcome State Fault Refusal := .next (pwrGoodLow s)

/-- SUPPLY_RESET (R371). -/
def execSupplyReset (rail mv : Nat) (s : State) : Host.Outcome State Fault Refusal := guardUnit (decide (rail < 9)) (supplyReset rail mv s)

/-- SUPPLY_RESET_HOLD_END (R371). -/
def execSupplyResetHoldEnd (s : State) : Host.Outcome State Fault Refusal := .next (holdEnd s)

end Sys2Proof.Machine
end

