-- ==== Sys2Proof/Machine/Flags.lean ====
section
/-! DEFINITION. Flags that the device reports as bits of a mask: those of GET_STATUS and of STATUS_WORD (R353, R428). Flags of one
unit stand beside the rules of that unit. -/

namespace Sys2Proof.Machine

open Sys2Proof

/-- A mask of the numbers below `n` that satisfy a test. -/
def maskOf (n : Nat) (test : Nat → Bool) : Nat := ((List.range n).filter test).foldl (fun m i => m + 2 ^ i) 0

/-- Partitions with a context in a state that satisfies a test. -/
def partMask (test : CtxState → Bool) (s : State) : Nat := maskOf 8 (fun p => (List.range 4).any (fun c => test ((getPart s p).ctx c).state))

/-- RUNNING of GET_STATUS: a context of the partition is RUNNING or DRAINING. -/
def runningMask (s : State) : Nat := partMask CtxState.issues s

/-- FAULTED of GET_STATUS: a context of the partition is FAULTED. -/
def faultedMask (s : State) : Nat := partMask (fun st => st == .faulted) s

/-- SESSIONS of GET_STATUS. -/
def sessionMask (s : State) : Nat := maskOf 8 (fun i => (getSession s i).isOpen)

/-- Bits of STATUS_WORD whose condition holds for longer than the moment at which it arises: TEMPERATURE alone. -/
def statusHeld (s : State) : BitVec 16 := if decide (s.power.limitC < s.power.maxC) || s.power.trip then 4 else 0

end Sys2Proof.Machine
end

