-- ==== Sys2Proof/Machine/Mgmt.lean ====
section
/-! DEFINITION. The management interfaces: PMBus and JTAG (R425, R427, R428). -/

namespace Sys2Proof.Machine

open Sys2Proof

/-! ### PMBus (R427, R428) -/

/-- Changing the target. -/
def updPmbus (f : Pmbus → Pmbus) (s : State) : State := { s with mgmt := { s.mgmt with pmbus := f s.mgmt.pmbus } }

/-- The end of a transaction: whether it was acknowledged, and the bytes it returned. -/
def pmbusEnd (acked : Bool) (bytes : List Byte) (s : State) : State := updPmbus (fun x => { x with acked := acked, answer := bytes }) s

/-- The address that the target acknowledges: none while in reset (R427) (DEDUCED, log entry 23). -/
def pmbusAddress (s : State) : Option (BitVec 7) := if inReset s then none else some (0x40 + s.pins.pmbAddr.setWidth 7)

/-- A transaction that the master addresses to the target (DEDUCED, log entry 23). -/
def pmbus (k : State → State) (s : State) : State := if (pmbusAddress s).isNone then pmbusEnd false [] s else k s

/-- A command that fails: CML. -/
def cml (acked : Bool) (s : State) : State := pmbusEnd acked [] (latchStatus 1 s)

/-- PAGE: a read, or a write of a byte. A write whose packet error code is wrong changes nothing (DEDUCED, log entry 23). -/
def pmbusPage (write : Option Byte) (pecOk : Bool) (s : State) : State :=
  match write with
  | none => pmbusEnd true [s.mgmt.pmbus.page] s
  | some b =>
    if !pecOk || (8 < b.toNat && b != 0xFF) then cml pecOk s
    else pmbusEnd true [] (updPmbus (fun x => { x with page := b }) s)

/-- CLEAR_FAULTS: a bit whose condition still holds stays set (DEDUCED, log entry 23). -/
def pmbusClear (pecOk : Bool) (s : State) : State :=
  if pecOk then pmbusEnd true [] (updPmbus (fun x => { x with status := x.status &&& statusHeld s }) s) else cml false s

/-- `num / den` rounded down, or up where the free bit says so and it is not exact (DEDUCED, log entry 23). -/
def roundFree (num den free : Nat) : Nat := num / den + (if num % den != 0 then free % 2 else 0)

/-- A value `num / den` in LINEAR11: mantissa in bits 10:0, exponent in bits 15:11. Where some exponents hold it exactly, the choice
among them is free; else it has the finest exponent under which it fits, and its rounding is free (DEDUCED, log entry 23). -/
def linear11 (num den free : Nat) : Nat :=
  let scaled (k : Nat) : Nat × Nat := if k < 16 then (num * 2 ^ (16 - k), den) else (num, den * 2 ^ (k - 16))
  let fits (k : Nat) : Bool := decide ((scaled k).1 / (scaled k).2 < 1023)
  let ks := (List.range 32).filter fits
  let exact := ks.filter (fun k => (scaled k).1 % (scaled k).2 == 0)
  let k := if exact.isEmpty then ks.headD 31 else exact.getD (free / 2 % exact.length) 31
  let m := roundFree (scaled k).1 (scaled k).2 free
  m % 2048 + 2048 * ((k + 16) % 32)

/-- A read of a word (DEDUCED, log entry 23; DESIGN CHOICE, log entry 3). -/
def readWordFree (value : Nat → State → Nat) (s : State) : State :=
  let r := takeFree s
  pmbusEnd true (leBytes 2 (value r.1 s)) r.2

/-- The rail that PAGE names, none for the device. -/
def pagedRail (s : State) : Option Rail :=
  if s.mgmt.pmbus.page == 0xFF then none else some (Table.get {} s.power.rails s.mgmt.pmbus.page.toNat)

/-- READ_VOUT: LINEAR16 with exponent −12; on page 0xFF, which names no rail, a free word. -/
def voutWord (free : Nat) (s : State) : Nat :=
  match pagedRail s with
  | some r => roundFree (r.mv * 4096) 1000 free
  | none => free

/-- READ_IOUT in A; on page 0xFF a free word. -/
def ioutWord (free : Nat) (s : State) : Nat :=
  match pagedRail s with
  | some r => linear11 r.ma 1000 free
  | none => free

/-- READ_POUT in W: the paged rail's power, or P_AVG. -/
def poutWord (free : Nat) (s : State) : Nat :=
  match pagedRail s with
  | some r => linear11 (r.mv * r.ma) 1000000 free
  | none => linear11 (powerAvg s) 1000000 free

/-- Codes that the target serves, as reads and as writes: CLEAR_FAULTS is a send byte (R427). -/
def pmbusReads : List Nat := [0x00, 0x20, 0x79, 0x8B, 0x8C, 0x8D, 0x96, 0x98]
def pmbusWrites : List Nat := [0x00, 0x03]

/-- A command outside the served set, or a write other than to PAGE or CLEAR_FAULTS. -/
def pmbusOther (code : Byte) (write : Bool) (s : State) : State :=
  if (if write then pmbusWrites else pmbusReads).contains code.toNat then s else cml false s

/-! ### Output pins as the device drives them: true is high, or asserted for an LVDS pin -/

/-- SUPPLY_WARN_N: low from the start of a warning pause to its end (R371), released in reset (R418). -/
def supplyWarnLevel (s : State) : Bool := inReset s || s.power.warnPause.isNone

/-- ALERT_N: low while any bit of STATUS_WORD is set (R428), released in reset (R418). -/
def alertLevel (s : State) : Bool := inReset s || s.mgmt.pmbus.status == 0

/-- THERM_TRIP_N: low while TRIP holds (R372). -/
def thermTripLevel (s : State) : Bool := !s.power.trip

/-- TRIG_OUT[o]: asserted from 12 ns after the start of the decision cycle, for WIDTH cycles (R254); deasserted in reset (R418). -/
def trigOutLevel (s : State) (o : Nat) : Bool :=
  !inReset s && (Table.get {} s.trig.outs o).pulses.any (fun e =>
    decide (5 * e.1 + 3 * s.clk.units ≤ 5 * s.canopy.now) && decide (5 * s.canopy.now < 5 * (e.1 + e.2) + 3 * s.clk.units))

/-- PPS_OUT: asserted for its width from a tick at which NS carries (R321); deasserted in reset (R418). -/
def ppsOutLevel (s : State) : Bool :=
  !inReset s && match s.time.ppsEnd with
    | some n => decide (s.clk.tticks < n)
    | none => false

/-- UART_TX is high in reset (R418) and while the device transmits nothing (R400); none where bytes go out, whose bits the model
does not hold apart (DEDUCED, log entry 23). -/
def uartTxLevel (s : State) : Option Bool := if inReset s || s.boot.stage != .recovery then some true else none

/-- AVS_CLK is low and AVS_MDATA high in reset (R418); none outside it, where the bits of AVSBus go out (R426) (DEDUCED, log entry 23). -/
def avsClkLevel (s : State) : Option Bool := if inReset s then some false else none
def avsMdataLevel (s : State) : Option Bool := if inReset s then some true else none

/-! ### JTAG (R425) -/

/-- Signal balls that have cells of the boundary register. -/
inductive Ball where
  | refclk | tref | ppsIn | trigIn (n : Nat) | pmbScl | trigOut (n : Nat) | pmbSda | avsClk | ppsOut | avsMdata | avsSdata | pmbAddr (n : Nat)
  | resetN | pwrGood | profileSel (n : Nat) | supplyWarnN | alertN | thermTripN | uartRx | uartTx
  deriving DecidableEq, Repr

/-- What a cell holds: an input's level, or an output's level and whether it is driven. -/
inductive CellKind where
  | input | data | enable
  deriving DecidableEq, Repr

/-- The cells of inputs, and of outputs. -/
def inCells (bs : List Ball) : List (Ball × CellKind) := bs.map (fun b => (b, .input))
def outCells (bs : List Ball) : List (Ball × CellKind) := bs.flatMap (fun b => [(b, .data), (b, .enable)])

/-- The 42 cells, by ascending ball, row first, from bit 0 on (R409, R425) (DEDUCED, log entry 23). -/
def boundaryCells : List (Ball × CellKind) :=
  inCells [.refclk, .tref, .ppsIn, .trigIn 0, .trigIn 1, .trigIn 2, .trigIn 3, .pmbScl]
    ++ outCells [.trigOut 0, .trigOut 1, .trigOut 2, .trigOut 3] ++ inCells [.pmbSda] ++ outCells [.pmbSda]
    ++ outCells [.avsClk, .ppsOut, .avsMdata] ++ inCells [.avsSdata, .pmbAddr 0, .pmbAddr 1, .pmbAddr 2, .resetN, .pwrGood, .profileSel 0, .profileSel 1]
    ++ outCells [.supplyWarnN, .alertN, .thermTripN] ++ inCells [.uartRx] ++ outCells [.uartTx]

/-- The level that the device gives an output, none where the model does not hold it bit by bit. -/
def outLevel (s : State) : Ball → Option Bool
  | .trigOut n => some (trigOutLevel s n)
  | .ppsOut => some (ppsOutLevel s)
  | .supplyWarnN => some (supplyWarnLevel s)
  | .alertN => some (alertLevel s)
  | .thermTripN => some (thermTripLevel s)
  | .uartTx => uartTxLevel s
  | .avsClk => avsClkLevel s
  | .avsMdata => avsMdataLevel s
  | _ => none

/-- The device drives an output: an open-drain one while it is low (R423); none for PMB_SDA, whose bits the model does not hold. -/
def outDriven (s : State) : Ball → Option Bool
  | .supplyWarnN => some (!supplyWarnLevel s)
  | .alertN => some (!alertLevel s)
  | .thermTripN => some (!thermTripLevel s)
  | .pmbSda => none
  | _ => some true

/-- What the boundary register captures: inputs as the balls stand, outputs as the device gives them (DEDUCED, log entry 23). -/
def captureCells (pins : BitVec 42) (s : State) : BitVec 42 :=
  (boundaryCells.zipIdx).foldl (fun m c =>
    let bit := match c.1.2 with
      | .input => pins.getLsbD c.2
      | .data => (outLevel s c.1.1).getD (pins.getLsbD c.2)
      | .enable => (outDriven s c.1.1).getD (pins.getLsbD c.2)
    if bit then m ||| (1#42 <<< c.2) else m) 0

/-- The identification register. -/
def idcode (s : State) : BitVec 42 := if s.part.b0 then 0x19400A6B else 0x09400A6B

/-- Changing the test logic. -/
def updJtag (f : Jtag → Jtag) (s : State) : State := { s with mgmt := { s.mgmt with jtag := f s.mgmt.jtag } }

/-- IDCODE. -/
def jtagIdcode (s : State) : State := updJtag (fun x => { x with ir := 0x01, captured := idcode s }) s

/-- SAMPLE/PRELOAD: the cells are captured, `pins` the levels of the balls, and the boundary register is loaded (DEDUCED, log entry 23). -/
def jtagSample (pins preload : BitVec 42) (s : State) : State :=
  updJtag (fun x => { x with ir := 0x02, captured := captureCells pins s, boundary := preload }) s

/-- EXTEST: while RESET_N is asserted the cells are captured and the boundary register, whose cells then drive the outputs, is
loaded; otherwise it acts as BYPASS (DEDUCED, log entry 23). -/
def jtagExtest (scan : BoundaryScan) (s : State) : State :=
  updJtag (fun x =>
    if s.pins.resetN then { x with ir := 0x03, captured := 0 }
    else { x with ir := 0x03, captured := captureCells scan.pins s, boundary := scan.load }) s

/-- BYPASS, and every code that is no public instruction. -/
def jtagBypass (code : Byte) (s : State) : State :=
  if code == 1 || code == 2 || code == 3 then s else updJtag (fun x => { x with ir := code, captured := 0 }) s

/-! ### Output pins at the balls -/

/-- EXTEST is in effect: the boundary cells drive the outputs. -/
def extestOn (s : State) : Bool := s.mgmt.jtag.ir == 0x03 && !s.pins.resetN

/-- A cell of the boundary register. -/
def boundaryCell (s : State) (b : Ball) (k : CellKind) : Bool :=
  match boundaryCells.findIdx? (fun c => c == (b, k)) with
  | some i => s.mgmt.jtag.boundary.getLsbD i
  | none => false

/-- An output at its ball: its cells decide under EXTEST, where an output that is not driven is pulled high, or, of an LVDS pair, reads as
deasserted (R421, R423, R425) (DEDUCED, log entry 23). -/
def atBall (s : State) (b : Ball) (level : Bool) : Bool :=
  if !extestOn s then level
  else if boundaryCell s b .enable then boundaryCell s b .data
  else match b with
    | .trigOut _ | .ppsOut => false
    | _ => true

/-- The outputs at their balls. -/
def supplyWarnN (s : State) : Bool := atBall s .supplyWarnN (supplyWarnLevel s)
def alertN (s : State) : Bool := atBall s .alertN (alertLevel s)
def thermTripN (s : State) : Bool := atBall s .thermTripN (thermTripLevel s)
def trigOutPin (s : State) (o : Nat) : Bool := atBall s (.trigOut o) (trigOutLevel s o)
def ppsOutPin (s : State) : Bool := atBall s .ppsOut (ppsOutLevel s)
def uartTxPin (s : State) : Option Bool := if extestOn s then some (atBall s .uartTx true) else uartTxLevel s
def avsClkPin (s : State) : Option Bool := if extestOn s then some (atBall s .avsClk true) else avsClkLevel s
def avsMdataPin (s : State) : Option Bool := if extestOn s then some (atBall s .avsMdata true) else avsMdataLevel s

/-- TDO: the first bit of the register that is shifted out, in the shift states; none, at high impedance, outside them (R418). -/
def tdoPin (shift : Bool) (s : State) : Option Bool := if shift then some (s.mgmt.jtag.captured.getLsbD 0) else none

/-! ### Rows of the table -/

/-- PAGE (R427). -/
def execPage (write : Option Byte) (pecOk : Bool) (s : State) : Host.Outcome State Fault Refusal := .next (pmbus (pmbusPage write pecOk) s)

/-- CLEAR_FAULTS (R428). -/
def execClearFaults (pecOk : Bool) (s : State) : Host.Outcome State Fault Refusal := .next (pmbus (pmbusClear pecOk) s)

/-- VOUT_MODE (R427). -/
def execVoutMode (s : State) : Host.Outcome State Fault Refusal := .next (pmbus (pmbusEnd true [0x14]) s)

/-- STATUS_WORD (R428). -/
def execStatusWord (s : State) : Host.Outcome State Fault Refusal :=
  .next (pmbus (fun s => pmbusEnd true (leBytes 2 s.mgmt.pmbus.status.toNat) s) s)

/-- READ_VOUT (R427). -/
def execReadVout (s : State) : Host.Outcome State Fault Refusal := .next (pmbus (readWordFree voutWord) s)

/-- READ_IOUT (R427). -/
def execReadIout (s : State) : Host.Outcome State Fault Refusal := .next (pmbus (readWordFree ioutWord) s)

/-- READ_TEMPERATURE_1 (R427). -/
def execReadTemperature1 (s : State) : Host.Outcome State Fault Refusal :=
  .next (pmbus (readWordFree (fun free s => linear11 s.power.maxC 1 free)) s)

/-- READ_POUT (R427). -/
def execReadPout (s : State) : Host.Outcome State Fault Refusal := .next (pmbus (readWordFree poutWord) s)

/-- PMBUS_REVISION (R427). -/
def execPmbusRevision (s : State) : Host.Outcome State Fault Refusal := .next (pmbus (pmbusEnd true [0x33]) s)

/-- PMBUS_OTHER_COMMAND (R427). -/
def execPmbusOtherCommand (code : Byte) (write : Bool) (s : State) : Host.Outcome State Fault Refusal :=
  .next (pmbus (pmbusOther code write) s)

/-- IDCODE (R425). -/
def execIdcode (s : State) : Host.Outcome State Fault Refusal := .next (jtagIdcode s)

/-- SAMPLE_PRELOAD (R425). -/
def execSamplePreload (pins preload : BitVec 42) (s : State) : Host.Outcome State Fault Refusal := .next (jtagSample pins preload s)

/-- EXTEST (R425). -/
def execExtest (scan : BoundaryScan) (s : State) : Host.Outcome State Fault Refusal := .next (jtagExtest scan s)

/-- BYPASS (R425). -/
def execBypass (code : Byte) (s : State) : Host.Outcome State Fault Refusal := .next (jtagBypass code s)

/-- TEST_LOGIC_RESET (R425): IDCODE is selected. -/
def execTestLogicReset (s : State) : Host.Outcome State Fault Refusal := .next (jtagIdcode s)

end Sys2Proof.Machine
end

