-- ==== Sys2Proof/Machine/Engine.lean ====
section
/-! DEFINITION. The command engine: the tests of an arriving command, tags, waiting, serving, steps, aborts, sessions and replies (R334 to R353). -/

namespace Sys2Proof.Machine

open Sys2Proof

/-! ### Device commands (R351 to R353) -/

/-- NOP. -/
def serveNop (f : Flight) (s : State) : State := answerOk f s

/-- Payload of IDENTIFY (R352) (DESIGN CHOICE, log entry 2). -/
def identity (s : State) : List Byte :=
  padTo 12 (orderingCode s) ++ leBytes 1 (steppingCode s) ++ leBytes 1 0
    ++ leBytes 2 contractsListed ++ leBytes 4 s.boot.fwVersion.toNat ++ leBytes 2 (logicalCols s) ++ leBytes 3 (retiredMask s)
    ++ leBytes 1 (profileNo s) ++ List.replicate 6 0 ++ keyId s

/-- IDENTIFY. -/
def serveIdentify (f : Flight) (s : State) : State := answerData f (identity s) s

/-- RESULT of GET_STATUS (R353). -/
def statusResult (session : Nat) (s : State) : List Byte :=
  leBytes 1 (profileNo s) ++ leBytes 1 (sessionMask s) ++ leBytes 2 s.host.flights.length
    ++ leBytes 2 (inFlight s session) ++ leBytes 4 (getSession s session).eventsLost.toNat ++ leBytes 1 s.boot.stage.code
    ++ leBytes 1 (runningMask s) ++ leBytes 1 (faultedMask s)

/-- GET_STATUS. -/
def serveGetStatus (f : Flight) (s : State) : State := answerResult f (statusResult f.sess s) s

/-! ### Ending operations by command (R341, R348) -/

/-- A STEP that runs on a partition, and that an abort is to stop. -/
def Flight.runs (g : Flight) : Bool := g.op == .step && g.stage == 1 && g.phase == .active

/-- RESULT of an ABORT and the target it waits for: serial number, then the code of R347 (DEDUCED, log entry 13). -/
def abortCase (f : Flight) (s : State) : Option Flight × Nat :=
  match s.host.flights.find? (fun g => g.sess == f.sess && g.pkt.tag.toNat == f.pkt.bits 1 0 12) with
  | none => (none, 2)
  | some g =>
    if g.id == f.id then (none, 3)
    else if !g.op.abortable then (some g, 3)
    else if g.phase.isDone then (some g, 1)
    else (some g, 0)

/-- ABORT (R347, R348). One that names a tag replies once the target's terminal reply has left (DEDUCED, log entry 13). -/
def serveAbort (f : Flight) (s : State) : State :=
  let kind := f.pkt.at_ 0 1
  let p := f.pkt.at_ 3 1
  if kind == 0 then
    match abortCase f s with
    | (none, r) => answerResult f [BitVec.ofNat 8 r] s
    | (some g, r) =>
      let s := if r == 1 then markLate g s else if r == 0 then abortFlight false (some s.clk.cclk) g s else s
      updFlight f.id (fun f => { f with phase := .active, acc := [g.id, r, s.clk.cclk] }) s
  else if kind != 1 || !partDefined s p then answer f stBadParam s
  else if partForeign s p f.sess then answer f stDenied s
  else updFlight f.id (fun f => { f with phase := .active }) s

/-- The commands that end a session and have begun to, and the ABORTs that answer after one of them: nothing else of the
session waits for these, and all else of it replies before the first of them goes on (R341) (DEDUCED, log entry 13). -/
def endings (i : Nat) (s : State) : List Nat :=
  s.host.flights.foldl (fun ids g =>
    if g.sess == i && ((g.op.ending && g.phase == .active) || (g.op == .abort && g.acc.head?.any (fun k => ids.contains k))) then g.id :: ids
    else ids) []

/-- An operation in flight of a session ends as by ABORT, where it can (R341, R348) (DEDUCED, log entry 13). -/
def endOther (g : Flight) (s : State) : State :=
  if !g.op.abortable then s
  else if g.phase.isDone then markLate g s
  else
    let s := abortFlight true (some s.clk.cclk) g s
    if g.runs && (getPart s g.part).busy then stopAsCommand g.part (markSteps g.part s) else s

/-- Every other operation in flight of a session ends (R341) (DEDUCED, log entry 13). -/
def endSession (f : Flight) (s : State) : State :=
  s.host.flights.foldl (fun s g => if g.sess != f.sess || g.id == f.id then s else endOther g s) s

/-- What a closing session owns by command is released, and its events are discarded (R341) (DEDUCED, log entry 13). -/
def releaseSession (i : Nat) (s : State) : State :=
  let free (o : Option Nat) : Option Nat := if o == some i then none else o
  let s := { s with
    queues := Table.mapAll {} (fun _ (x : Spill) => { x with owner := free x.owner }) s.queues
    arbor := { s.arbor with engines := Table.mapAll {} (fun _ (x : Engine) => { x with owner := free x.owner }) s.arbor.engines }
    fabric := { s.fabric with channels := Table.mapAll {} (fun _ (x : Channel) => { x with owner := free x.owner }) s.fabric.channels }
    time := { s.time with owner := free s.time.owner } }
  updSession i (fun x => { x with outbox := x.outbox.filter (fun it => !it.isEvent) }) s

/-! ### Opening and closing a session (R340, R341) -/

/-- The session is open on the link of a command. -/
def openHere (s : State) (p : Packet) : Bool :=
  let x := getSession s p.session.toNat
  x.isOpen && x.src == p.src && x.origin == p.origin

/-- The session opens, bound to the command's link (DEDUCED, log entry 13). -/
def openSession (f : Flight) (s : State) : State :=
  let p := f.pkt
  answerResult f [BitVec.ofNat 8 (profileNo s)] (updSession f.sess (fun x =>
    ({ isOpen := true, src := p.src, origin := p.origin, reserve := p.at_ 0 2, idleLimit := p.at_ 2 2, lastCommand := s.clk.tticks
       route := routeOfPacket p, outbox := x.outbox.filter (fun it => !it.isEvent) } : Session)) s)

/-- Operations that the ending of the session waits for are in flight: those of the session, also one that was taken since, but
for what waits for the ending itself (DEDUCED, log entry 13). -/
def sessionBusy (f : Flight) (s : State) : Bool :=
  let held := endings f.sess s
  s.host.flights.any (fun g => g.sess == f.sess && g.id != f.id && (!held.contains g.id || (g.op.ending && decide (g.id < f.id))))

/-- A CLOSE_SESSION, or an OPEN_SESSION that takes a session over, goes on once the other operations have replied (DEDUCED, log entry 13). -/
def settleSession (f : Flight) (s : State) : State :=
  if f.phase != .active || sessionBusy f s then s
  else if f.op == .closeSession then answerOk f (releaseSession f.sess s)
  else if f.op == .openSession then openSession f (releaseSession f.sess s)
  else s

/-- CLOSE_SESSION (R341) (DEDUCED, log entry 13). -/
def serveCloseSession (f : Flight) (s : State) : State := settleSession f (endSession f s)

/-- OPEN_SESSION (R340). -/
def serveOpenSession (f : Flight) (s : State) : State :=
  let p := f.pkt
  let x := getSession s f.sess
  let others := ((List.range 8).filter (fun i => i != f.sess)).map (reserveOf s)
  if 4096 < p.at_ 0 2 + others.sum then answer f stBadParam s
  else if !x.isOpen then openSession f s
  else if openHere s p then answer f stBadParam s
  else if p.bits 4 0 1 == 0 || x.idleLimit == 0 || s.clk.tticks < x.lastCommand + x.idleLimit * 1000000000 then answer f stDenied s
  else settleSession f (endSession f s)

/-! ### Serving (R344 to R346, R372, R385, R398) -/

/-- A command is served by its own rule. -/
def serveOp (f : Flight) (s : State) : State :=
  match f.op with
  | .nop => serveNop f s
  | .identify => serveIdentify f s
  | .getStatus => serveGetStatus f s
  | .openSession => serveOpenSession f s
  | .closeSession => serveCloseSession f s
  | .resetDomain => serveResetDomain f s
  | .readCsr => serveReadCsr f s
  | .writeCsr => serveWriteCsr f s
  | .selectProfile => serveSelectProfile f s
  | .readProfile => serveReadProfile f s
  | .writeProfile => serveWriteProfile f s
  | .loadImage => serveLoadImage f s
  | .unloadContext => serveUnloadContext f s
  | .start => serveStart f s
  | .stop => serveStop f s
  | .abort => serveAbort f s
  | .step => serveStep f s
  | .drain => serveDrain f s
  | .memRead => serveMemRead f s
  | .memWrite => serveMemWrite f s
  | .memFill => serveMemFill f s
  | .scrub => serveScrub f s
  | .sqConfig => serveSqConfig f s
  | .sqWrite => serveSqWrite f s
  | .sqRead => serveSqRead f s
  | .sqMark => serveSqMark f s
  | .sqRewind => serveSqRewind f s
  | .sqRelease => serveSqRelease f s
  | .sqFlush => serveSqFlush f s
  | .sqReset => serveSqReset f s
  | .arbLoad => serveArbLoad f s
  | .arbRead => serveArbRead f s
  | .arbVerify => serveArbVerify f s
  | .arbTcamLoad => serveArbTcamLoad f s
  | .arbEnsemble => serveArbEnsemble f s
  | .arbMode => serveArbMode f s
  | .arbEval => serveArbEval f s
  | .streamConfig => serveStreamConfig f s
  | .trigArm => serveTrigArm f s
  | .trigDisarm => serveTrigDisarm f s
  | .trigRearm => serveTrigRearm f s
  | .macConfig => serveMacConfig f s
  | .macFilter => serveMacFilter f s
  | .gateListLoad => serveGateListLoad f s
  | .extractConfig => serveExtractConfig f s
  | .templateLoad => serveTemplateLoad f s
  | .replyConfig => serveReplyConfig f s
  | .countersRead => serveCountersRead f s
  | .fportPower => serveFportPower f s
  | .laneControl => serveLaneControl f s
  | .fabricConfig => serveFabricConfig f s
  | .reduceGroup => serveReduceGroup f s
  | .timeRead => serveTimeRead f s
  | .timeSet => serveTimeSet f s
  | .timeStep => serveTimeStep f s
  | .timeAdjFreq => serveTimeAdjFreq f s
  | .timeInvalidate => serveTimeInvalidate f s
  | .timeSource => serveTimeSource f s
  | .ptpPortConfig => servePtpPortConfig f s
  | .ppsConfig => servePpsConfig f s
  | .powerStop => servePowerStop f s
  | .marginReplan => serveMarginReplan f s
  | .healthTest => serveHealthTest f s
  | .columnFail => serveColumnFail f s
  | .attest => serveAttest f s
  | .getCert => serveGetCert f s
  | .fwUpdate => serveFwUpdate f s
  | .fwRecover => serveFwRecover f s
  | .safeModelStore => serveSafeModelStore f s
  | .ringStart => serveRingStart f s
  | .ringStop => serveRingStop f s
  | .ringRead => serveRingRead f s
  | .ringSealRead => serveRingSealRead f s
  | .foldRead => serveFoldRead f s

/-- A command starts to be served. After a thermal trip, and in recovery, most commands end INTERNAL (DEDUCED, log entry 15). -/
def serve (f : Flight) (s : State) : State :=
  let f := { f with phase := .active, lastStep := s.host.steps }
  let s := updFlight f.id (fun g => { g with phase := .active, lastStep := f.lastStep }) s
  if (s.power.trip && !f.op.servedAlways) || (s.boot.stage == .recovery && !f.op.servedAlways && f.op != .fwRecover) then
    answer f stInternal s
  else serveOp f s

/-- Operations that the reset of a domain ends do not hold its RESET_DOMAIN back (DEDUCED, log entry 12). -/
def endsFor (f g : Flight) : Bool := f.op == .resetDomain && !g.phase.isDone && usesDomain (f.pkt.at_ 0 1) (f.pkt.at_ 1 1) g

/-- A graft or retirement that covers a named partition can be applied, and comes before this command (R377, R378) (DEDUCED, log entry 12). -/
def bayWaits (f : Flight) (s : State) : Bool :=
  (List.range 20).any (fun b => ((Table.get none s.power.pendGraft b).isSome || (Table.get none s.power.pendRetire b).isSome)
    && bayFree s b && (physBayParts s b).any (fun p => f.namesPart p))

/-- A command waits (R346, R385) (DEDUCED, log entry 12). -/
def blocked (f : Flight) (s : State) : Bool :=
  let ready := s.boot.stage == .ready || s.boot.stage == .recovery
  let held := endings f.sess s
  let earlier := s.host.flights.filter (fun g => decide (g.id < f.id) && !held.contains g.id)
  if f.op.neverWaits then false
  else (!ready && !f.op.servedInBoot) || (f.pkt.flags.getLsbD 0 && earlier.any (fun g => g.sess == f.sess))
    || earlier.any (fun g => !endsFor f g && namesMeet f.names g.names) || bayWaits f s

/-- Firmware is running a step, and takes up no other command before its end (R345) (DEDUCED, log entry 11). -/
def firmwareHeld (f : Flight) (s : State) : Bool := !f.op.hardware && (stepping s).isSome

/-- Serve a command that need not wait. -/
def tryServe (atStep : Bool) (id : Nat) (s : State) : State :=
  match findFlight s id with
  | none => s
  | some f => if f.phase != .waiting || blocked f s || (!atStep && firmwareHeld f s) then s else serve f s

/-- Serve, in order of arrival, the commands that need not wait any longer. -/
def serveWaiting (atStep : Bool) (s : State) : State := (s.host.flights.map (fun f => f.id)).foldl (fun s id => tryServe atStep id s) s

/-! ### Arrival (R335, R343) -/

/-- A zero or RESERVED field of the header is nonzero, or PAYLOAD_LENGTH exceeds 4,096. -/
def badHeader (p : Packet) : Bool :=
  p.bit15 || decide (3 < p.flags.toNat) || p.reserved5 != 0 || p.reserved8 != 0 || decide (4096 < p.payloadLength.toNat)

/-- A command needs no open session: where the boot ROM serves recovery, or over the management UART (R398, R400). -/
def sessionFree (p : Packet) (s : State) : Bool := s.boot.stage == .recovery && (s.boot.cause == 1 || p.inPort == 255)

/-- Tags in flight of a session beyond its reserve. -/
def excess (s : State) (i : Nat) : Nat := inFlight s i - reserveOf s i

/-- The rule of R343 takes a command of a session. -/
def tagFree (s : State) (i : Nat) : Bool :=
  decide (inFlight s i < reserveOf s i) || decide (((List.range 8).map (excess s)).sum + reserveSum s < 4096)

/-- A session takes commands: it is open, and its closing has not released what it owned (DEDUCED, log entry 13). -/
def takesCommands (s : State) (i : Nat) : Bool :=
  (getSession s i).isOpen && !s.host.flights.any (fun g => g.sess == i && g.op == .closeSession && (match g.phase with
    | .done _ r => r.status == stOk
    | _ => false))

/-- The cases of R335 from Bad parameters on: the status of a refusal, none for Taken (DEDUCED, log entry 15). -/
def refusal (op : Op) (p : Packet) (s : State) : Option Nat :=
  let i := p.session.toNat
  let isOpen := takesCommands s i
  if p.strays op then some stBadParam
  else if !isOpen && !sessionFree p s && op != .openSession && op != .identify && op != .nop then some stDenied
  else if isOpen && !openHere s p && !sessionFree p s && op != .openSession then some stDenied
  else if s.host.flights.any (fun g => g.sess == i && g.pkt.tag == p.tag) then some stTagInUse
  else if !tagFree s i then some stTooMany
  else none

/-- The reply of a refused command is terminal and goes back along its own path. -/
def refuse (code : Nat) (p : Packet) (status : Nat) (s : State) : State :=
  updSession p.session.toNat (fun x => { x with outbox := x.outbox ++ [.plain (routeOfPacket p) (replyBytes code p { status := status })] }) s

/-- A session has sent a command: the time and the route of its latest (DEDUCED, log entry 14). -/
def noteCommand (p : Packet) (s : State) : State :=
  if openHere s p then updSession p.session.toNat (fun x => { x with lastCommand := s.clk.tticks, route := routeOfPacket p }) s else s

/-- An operation in flight ends with its session, in so far as it can (R341) (DEDUCED, log entry 13). -/
def endTaken (id : Nat) (s : State) : State :=
  match findFlight s id with
  | some f => endOther f s
  | none => s

/-- A command is taken: it is in flight, and is served unless it has to wait. One of a session that is ending ends with it (R341) (DEDUCED, log entry 13). -/
def take (op : Op) (p : Packet) (s : State) : State :=
  let f0 : Flight := { id := s.host.nextId, op := op, pkt := p, phase := .waiting }
  let f := { f0 with names := allNames f0 s }
  let u := { s with host := { s.host with flights := s.host.flights ++ [f], nextId := s.host.nextId + 1 } }
  if (endings f.sess u).isEmpty then tryServe false f.id u else endTaken f.id (tryServe false f.id u)

/-- The Short case: discarded and counted. -/
def countMalformed (s : State) : State := { s with host := { s.host with malformed := satAdd s.host.malformed 1 } }

/-- Nothing arrives while the device is in reset, nor on the management UART outside recovery (R400) (DEDUCED, log entry 10). -/
def deaf (p : Packet) (s : State) : Bool := inReset s || (p.inPort == 255 && s.boot.stage != .recovery)

/-- A command arrives whose OPCODE is listed (R335) (DEDUCED, log entry 14). -/
def arrive (op : Op) (p : Packet) (s : State) : State :=
  if deaf p s then s
  else if p.payload.length != p.payloadLength.toNat then countMalformed s
  else
    let s := noteCommand p s
    if badHeader p then refuse op.code p stBadParam s
    else
      match refusal op p s with
      | some st => refuse op.code p st s
      | none => take op p s

/-- Every opcode of R432. -/
def allOps : List Op :=
    [.nop, .identify, .getStatus, .openSession, .closeSession, .resetDomain, .readCsr, .writeCsr, .selectProfile, .readProfile, .writeProfile, .loadImage, .unloadContext, .start, .stop, .abort]
    ++ [.step, .drain, .memRead, .memWrite, .memFill, .scrub, .sqConfig, .sqWrite, .sqRead, .sqMark, .sqRewind, .sqRelease, .sqFlush, .sqReset, .arbLoad, .arbRead]
    ++ [.arbVerify, .arbTcamLoad, .arbEnsemble, .arbMode, .arbEval, .streamConfig, .trigArm, .trigDisarm, .trigRearm, .macConfig, .macFilter, .gateListLoad, .extractConfig, .templateLoad, .replyConfig, .countersRead]
    ++ [.fportPower, .laneControl, .fabricConfig, .reduceGroup, .timeRead, .timeSet, .timeStep, .timeAdjFreq, .timeInvalidate, .timeSource, .ptpPortConfig, .ppsConfig, .powerStop, .marginReplan, .healthTest, .columnFail]
    ++ [.attest, .getCert, .fwUpdate, .fwRecover, .safeModelStore, .ringStart, .ringStop, .ringRead, .ringSealRead, .foldRead]

/-- The command of an OPCODE. -/
def opOf (code : Nat) : Option Op := allOps.find? (fun op => op.code == code)

/-- A command arrives with any OPCODE. -/
def arriveCode (code : Nat) (p : Packet) (s : State) : State :=
  match opOf code with
  | some op => arrive op p s
  | none =>
    if deaf p s then s
    else if p.payload.length != p.payloadLength.toNat then countMalformed s
    else refuse code p (if badHeader p then stBadParam else stBadOpcode) (noteCommand p s)

/-- The command that a HOST_CMD body spells, where it has a whole header (R334). -/
def parseCommand (body : List Byte) : Packet :=
  let ts := leAt body 2 2
  { tag := BitVec.ofNat 12 ts, session := BitVec.ofNat 3 (ts / 4096), bit15 := ts / 32768 % 2 == 1, flags := BitVec.ofNat 8 (leAt body 4 1)
    reserved5 := BitVec.ofNat 8 (leAt body 5 1), payloadLength := BitVec.ofNat 16 (leAt body 6 2)
    reserved8 := BitVec.ofNat 64 (leAt body 8 8), params := BitVec.ofNat 384 (leAt body 16 48), payload := body.drop 64 }

/-- A HOST_CMD body reaches the command engine with the path it came by. -/
def arriveBody (path : Packet → Packet) (body : List Byte) (s : State) : State :=
  if inReset s then s
  else if body.length < 64 then countMalformed s
  else arriveCode (leAt body 0 2) (path (parseCommand body)) s

/-- A body that is shorter than its header or differs from its stated length. -/
def bodyShort (body : List Byte) : Bool := decide (body.length < 64) || body.length != 64 + leAt body 6 2

/-! ### Steps of the long operations (R345, R349) -/

/-- The operation goes on in its step, whose size the spec leaves open; `found` is what a test of the hardware finds in it. -/
def runStep (found : List Nat) (f : Flight) (s : State) : State :=
  let units := stepSize (f.total - f.progress) s
  match f.op with
  | .resetDomain => stepResetDomain f s
  | .loadImage => stepLoadImage f s
  | .drain => updFlight f.id (fun g => { g with progress := tokenCount s f.part (f.pkt.at_ 1 1) }) s
  | .memRead => stepMemRead f s
  | .memWrite => stepMemWrite f s
  | .memFill => stepMemFill f s
  | .scrub => stepScrub f s
  | .arbLoad =>
    let s := stepArbLoad units.1 f units.2
    if f.progress + units.1 < f.total then s else complete f.id { status := stOk, progress := f.total } s
  | .arbVerify =>
    let n := f.progress + units.1
    if n < f.total then updFlight f.id (fun g => { g with progress := n }) units.2 else finishArbVerify f units.2
  | .selectProfile => stepSelectProfile f s
  | .writeProfile => stepWriteProfile f s
  | .marginReplan => stepMarginReplan f s
  | .healthTest => stepHealthTest found f s
  | .attest => stepAttest f s
  | .fwUpdate => stepFwUpdate units.1 (!found.isEmpty) f units.2
  | .safeModelStore => stepSafeModelStore f s
  | _ => s

/-- A step's end also ends an operation that an ABORT has reached. An SQ_WRITE first offers its cell, and a margin re-plan
ends with its move of VCORE (R348) (DEDUCED, log entry 13). -/
def endAborting (f : Flight) (s : State) : State :=
  match findFlight s f.id with
  | none => s
  | some g =>
    if g.phase != .active || !f.aborting || f.op == .marginReplan || (f.op == .sqWrite && g.progress == f.progress) then s
    else endNow g s

/-- A step of the operation has ended. A step of MARGIN_REPLAN is a raise of 5 mV, and one of HEALTH_TEST a bay: a turn in which
VCORE only moves ends none (R374, R379) (DEDUCED, log entry 11). -/
def Flight.stepEnded (f g : Flight) : Bool :=
  !(f.op == .marginReplan || f.op == .healthTest) || decide (f.progress < g.doneUnits)

/-- The end of a step: an ABORT that has reached the operation ends it, and PROGRESS asks for a report after each step (DEDUCED, log entry 11). -/
def endStep (f : Flight) (s : State) : State :=
  let s := endAborting f s
  match findFlight s f.id with
  | none => s
  | some g => if f.stepEnded g then reportStep g.op.code g.id s else s

/-- LONG_OPERATION_STEP: the operation whose turn it is goes on in its step, by one word where it accesses device memory; at the end of
the step firmware takes up the commands that wait. An SQ_WRITE goes on without firmware (DEDUCED, log entry 11). -/
def longStep (id : Nat) (found : List Nat) (s : State) : State :=
  match findFlight s id with
  | none => s
  | some f =>
    if f.phase != .active then s
    else if f.op == .sqWrite then (if f.total ≤ f.progress then s else endStep f (stepSqWrite f s))
    else if (stepping s).map (fun g => g.id) != some id then s
    else
      let s := runStep found f s
      if (findFlight s id).any Flight.midStep then s else
      let s := { s with host := { s.host with steps := s.host.steps + 1 } }
      let s := updFlight id (fun g => { g with lastStep := s.host.steps }) s
      serveWaiting true (endStep f s)

/-! ### Replies leave (R336 to R338) -/

/-- An event packet. -/
def eventBytes (session : Nat) (e : Event) : List Byte :=
  leBytes 1 2 ++ leBytes 1 0 ++ leBytes 2 e.code ++ leBytes 1 session ++ leBytes 3 0 ++ leBytes 8 e.seq ++ leBytes 6 e.sec.toNat
    ++ leBytes 4 e.ns.toNat ++ leBytes 6 0 ++ padTo 32 e.data

/-- An item that is no terminal reply leaves; an event takes the route of its session's latest command. -/
def sendItem (i : Nat) (it : OutItem) (s : State) : State :=
  match it with
  | .event e => sendReply (getSession s i).route (eventBytes i e) s
  | .plain r b => sendReply r b s
  | .terminal _ => s

/-- Whether an item is a terminal reply. -/
def OutItem.isTerminal : OutItem → Bool
  | .terminal _ => true
  | _ => false

/-- The items before the first terminal reply of a session leave, in order. -/
def sendEarlier (i : Nat) (s : State) : State :=
  let x := getSession s i
  let first := x.outbox.takeWhile (fun it => !it.isTerminal)
  first.foldl (fun s it => sendItem i it s) (updSession i (fun x => { x with outbox := x.outbox.drop first.length }) s)

/-- What waits for a terminal reply goes on: an ABORT of that command, and the closing of a session. -/
def settle (id : Nat) (s : State) : State :=
  s.host.flights.foldl (fun s g =>
    if g.op == .abort && g.phase == .active && g.pkt.at_ 0 1 == 0 && g.acc[0]? == some id then
      answerResult g [BitVec.ofNat 8 (g.acc.getD 1 0)] s
    else settleSession g s) s

/-- TERMINAL_REPLY: at least one CCLK cycle after its completion, and after everything its session produced before it (DEDUCED, log entries 10, 42). -/
def terminalReply (id : Nat) (s : State) : State :=
  match findFlight s id with
  | none => s
  | some f =>
    match f.phase with
    | .done t r =>
      let x := getSession s f.sess
      if s.clk.cclk ≤ t || x.outbox.find? OutItem.isTerminal != some (.terminal id) then s
      else
        let s := sendEarlier f.sess s
        let s := updSession f.sess (fun x => { x with outbox := x.outbox.drop 1 }) s
        let s := sendReply (routeOfPacket f.pkt) (replyBytes f.op.code f.pkt r) s
        let s := { s with host := { s.host with flights := s.host.flights.filter (fun g => g.id != id) } }
        let s := if f.op == .closeSession && r.status == stOk then updSession f.sess (fun x => { x with isOpen := false }) s else s
        let last := f.op == .fwRecover && f.pkt.bits 4 0 1 == 1 && r.status == stOk
        serveWaiting false (settle id (if s.boot.restart && last then restartBoot s else s))
    | _ => s

/-! ### Packets of the fabric (R308, R309) -/

/-- The flits of the oldest packet of a virtual channel that is complete in a port's receive buffer. -/
def wholePacket (x : FPort) (vc : Nat) : Option (List Flit) :=
  let fs := x.rxBuf.filter (fun f => f.vc == vc)
  match fs.findIdx? (fun f => f.last) with
  | some i => some (fs.take (i + 1))
  | none => none

/-- The first flits of a virtual channel leave the receive buffer. -/
def dropFlits (vc : Nat) : Nat → List Flit → List Flit
  | 0, fs => fs
  | _, [] => []
  | n + 1, f :: fs => if f.vc == vc then dropFlits vc n fs else f :: dropFlits vc (n + 1) fs

/-- Free a packet's flits: their credit returns. -/
def freeFlits (p vc n : Nat) (s : State) : State :=
  updPort p (fun x => { x with rxBuf := dropFlits vc n x.rxBuf, freed := Table.upd 0 x.freed vc (· + n) }) s

/-- What R308 does with a packet. -/
inductive Fate where
  | hostDrop | foreign | unroutable | reduce | toEngine
  | leaves (e : Exit × Nat × FabPacket)
  deriving DecidableEq, Repr

/-- A command from a HOST port carries the device's coordinate and that port (R309) (DEDUCED, log entry 17). -/
def fromHost (s : State) (p : Nat) (k : FabPacket) : FabPacket :=
  if k.ty == tyCmd && (getPort s p).role == roleHost then { k with src := s.fabric.coord.getD 0xFFFF, origin := BitVec.ofNat 8 p } else k

/-- A packet is delivered here. -/
def deliveredHere (s : State) (k : FabPacket) : Bool :=
  if k.sourceRouted then k.hop == k.hopCount else s.fabric.coord == some k.dest

/-- The cases of R308 for a packet that arrived at a port on a virtual channel (DEDUCED, log entry 17). -/
def fateOf (s : State) (p vc : Nat) (k : FabPacket) : Fate :=
  let host := (getPort s p).role == roleHost
  let inDir := if host then none else some (portDir s p ^^^ 1, vc % 2 == 1)
  let out : Exit × Nat × FabPacket :=
    if deliveredHere s k then (originExit s k.origin, 2, k) else routeOut? s k inDir
  let byHost : Bool := match out.1 with
    | .port q => (getPort s q).role == roleHost
    | _ => false
  let local_ := host && k.ty == tyCmd && s.boot.stage == .recovery && s.boot.cause == 1
  if host && k.ty != tyCmd then .hostDrop
  else if local_ then .toEngine
  else if s.fabric.isBridge && ((host && !s.fabric.members.contains k.dest) || (k.ty == tyReply && byHost && !s.fabric.members.contains k.src)) then
    .foreign
  else if k.ty == 0 || 3 < k.ty || (s.fabric.coord.isSome && !inSizes s k.dest) || (!k.sourceRouted && s.fabric.coord.isNone)
      || (k.sourceRouted && (!routeOk k.route || k.hopCount == 0 || 12 < k.hopCount || k.hopCount < k.hop)) then .unroutable
  else if k.ty == tyReduce then .reduce
  else if deliveredHere s k && k.ty == tyCmd then .toEngine
  else if out.1 == .nowhere then .unroutable
  else .leaves out

/-- The path by which a command came. -/
def pathOf (p : Nat) (k : FabPacket) (c : Packet) : Packet :=
  { c with src := k.src, origin := k.origin, inPort := p, sourceRouted := k.sourceRouted, route := k.route }

/-- FABRIC_PACKET: the oldest complete packet of a virtual channel is discarded, delivered or forwarded. One that leaves by a
port waits there for the flits of its virtual channel before it (DEDUCED, log entry 17). -/
def fabricPacket (p vc : Nat) (s : State) : State :=
  match wholePacket (getPort s p) vc with
  | none => s
  | some fs =>
    let k := fromHost s p (parsePacket (fs.flatMap (fun f => f.payload)))
    let done := freeFlits p vc fs.length s
    let count (g : Fabric → Fabric) : State := { done with fabric := g done.fabric }
    match fateOf s p vc k with
    | .hostDrop => count (fun g => { g with hostDrop := satAdd g.hostDrop 1 })
    | .foreign => count (fun g => { g with foreign := satAdd g.foreign 1 })
    | .unroutable => countUnroutable done
    | .reduce => reduceArrive k.src k.body done
    | .toEngine => arriveBody (pathOf p k) k.body done
    | .leaves e =>
      let held : Bool := match e.1 with
        | .port q => (getPort s q).queue.any (fun f => f.vc == e.2.1)
        | _ => false
      if held then s else sendExit e done

/-! ### The management UART (R400) -/

/-- UART_FRAME: the bytes from a 0x7E on. Outside recovery the line is ignored; a frame whose CRC fails is discarded (DEDUCED, log entry 15). -/
def uartFrame (bytes : List Byte) (s : State) : State :=
  let n := leAt bytes 1 2
  if s.boot.stage != .recovery || bytes.length != n + 7 || leAt bytes 0 1 != 0x7E
      || crc32 (slice bytes 1 (n + 2)) != BitVec.ofNat 32 (leAt bytes (n + 3) 4) then s
  else arriveBody (fun c => { c with src := 0xFFFF, origin := 0xFF, inPort := 255 }) (slice bytes 3 n) s

/-! ### Events that let waiting commands go on -/

/-- A pending graft or retirement of a bay is due (R377, R378). -/
def bayApply (retire : Bool) (columns b : Nat) (s : State) : State :=
  if s.boot.stage != .ready || !bayFree s b then s
  else serveWaiting false (if retire then applyRetire b s else applyGraft columns b s)

/-! ### Rows of the table -/

/-- NOP (R351). -/
def execNop (p : Packet) (s : State) : Host.Outcome State Fault Refusal := .next (arrive .nop p s)

/-- IDENTIFY (R352). -/
def execIdentify (p : Packet) (s : State) : Host.Outcome State Fault Refusal := .next (arrive .identify p s)

/-- GET_STATUS (R353). -/
def execGetStatus (p : Packet) (s : State) : Host.Outcome State Fault Refusal := .next (arrive .getStatus p s)

/-- OPEN_SESSION (R340). -/
def execOpenSession (p : Packet) (s : State) : Host.Outcome State Fault Refusal := .next (arrive .openSession p s)

/-- CLOSE_SESSION (R341). -/
def execCloseSession (p : Packet) (s : State) : Host.Outcome State Fault Refusal := .next (arrive .closeSession p s)

/-- RESET_DOMAIN (R35). -/
def execResetDomain (p : Packet) (s : State) : Host.Outcome State Fault Refusal := .next (arrive .resetDomain p s)

/-- READ_CSR (R354). -/
def execReadCsr (p : Packet) (s : State) : Host.Outcome State Fault Refusal := .next (arrive .readCsr p s)

/-- WRITE_CSR (R354). -/
def execWriteCsr (p : Packet) (s : State) : Host.Outcome State Fault Refusal := .next (arrive .writeCsr p s)

/-- SELECT_PROFILE (R390). -/
def execSelectProfile (p : Packet) (s : State) : Host.Outcome State Fault Refusal := .next (arrive .selectProfile p s)

/-- READ_PROFILE (R391). -/
def execReadProfile (p : Packet) (s : State) : Host.Outcome State Fault Refusal := .next (arrive .readProfile p s)

/-- WRITE_PROFILE (R389). -/
def execWriteProfile (p : Packet) (s : State) : Host.Outcome State Fault Refusal := .next (arrive .writeProfile p s)

/-- LOAD_IMAGE (R356). -/
def execLoadImage (p : Packet) (s : State) : Host.Outcome State Fault Refusal := .next (arrive .loadImage p s)

/-- UNLOAD_CONTEXT (R67). -/
def execUnloadContext (p : Packet) (s : State) : Host.Outcome State Fault Refusal := .next (arrive .unloadContext p s)

/-- START (R357). -/
def execStart (p : Packet) (s : State) : Host.Outcome State Fault Refusal := .next (arrive .start p s)

/-- STOP (R358). -/
def execStop (p : Packet) (s : State) : Host.Outcome State Fault Refusal := .next (arrive .stop p s)

/-- ABORT (R348). -/
def execAbort (p : Packet) (s : State) : Host.Outcome State Fault Refusal := .next (arrive .abort p s)

/-- STEP (R359). -/
def execStep (p : Packet) (s : State) : Host.Outcome State Fault Refusal := .next (arrive .step p s)

/-- DRAIN (R65). -/
def execDrain (p : Packet) (s : State) : Host.Outcome State Fault Refusal := .next (arrive .drain p s)

/-- MEM_READ (R360). -/
def execMemRead (p : Packet) (s : State) : Host.Outcome State Fault Refusal := .next (arrive .memRead p s)

/-- MEM_WRITE (R360). -/
def execMemWrite (p : Packet) (s : State) : Host.Outcome State Fault Refusal := .next (arrive .memWrite p s)

/-- MEM_FILL (R360). -/
def execMemFill (p : Packet) (s : State) : Host.Outcome State Fault Refusal := .next (arrive .memFill p s)

/-- SCRUB (R176). -/
def execScrub (p : Packet) (s : State) : Host.Outcome State Fault Refusal := .next (arrive .scrub p s)

/-- SQ_CONFIG (R191). -/
def execSqConfig (p : Packet) (s : State) : Host.Outcome State Fault Refusal := .next (arrive .sqConfig p s)

/-- SQ_WRITE (R361). -/
def execSqWrite (p : Packet) (s : State) : Host.Outcome State Fault Refusal := .next (arrive .sqWrite p s)

/-- SQ_READ (R192). -/
def execSqRead (p : Packet) (s : State) : Host.Outcome State Fault Refusal := .next (arrive .sqRead p s)

/-- SQ_MARK (R185). -/
def execSqMark (p : Packet) (s : State) : Host.Outcome State Fault Refusal := .next (arrive .sqMark p s)

/-- SQ_REWIND (R185). -/
def execSqRewind (p : Packet) (s : State) : Host.Outcome State Fault Refusal := .next (arrive .sqRewind p s)

/-- SQ_RELEASE (R185). -/
def execSqRelease (p : Packet) (s : State) : Host.Outcome State Fault Refusal := .next (arrive .sqRelease p s)

/-- SQ_FLUSH (R185). -/
def execSqFlush (p : Packet) (s : State) : Host.Outcome State Fault Refusal := .next (arrive .sqFlush p s)

/-- SQ_RESET (R185). -/
def execSqReset (p : Packet) (s : State) : Host.Outcome State Fault Refusal := .next (arrive .sqReset p s)

/-- ARB_LOAD (R235). -/
def execArbLoad (p : Packet) (s : State) : Host.Outcome State Fault Refusal := .next (arrive .arbLoad p s)

/-- ARB_READ (R235). -/
def execArbRead (p : Packet) (s : State) : Host.Outcome State Fault Refusal := .next (arrive .arbRead p s)

/-- ARB_VERIFY (R236). -/
def execArbVerify (p : Packet) (s : State) : Host.Outcome State Fault Refusal := .next (arrive .arbVerify p s)

/-- ARB_TCAM_LOAD (R235). -/
def execArbTcamLoad (p : Packet) (s : State) : Host.Outcome State Fault Refusal := .next (arrive .arbTcamLoad p s)

/-- ARB_ENSEMBLE (R235). -/
def execArbEnsemble (p : Packet) (s : State) : Host.Outcome State Fault Refusal := .next (arrive .arbEnsemble p s)

/-- ARB_MODE (R234). -/
def execArbMode (p : Packet) (s : State) : Host.Outcome State Fault Refusal := .next (arrive .arbMode p s)

/-- ARB_EVAL (R235). -/
def execArbEval (p : Packet) (s : State) : Host.Outcome State Fault Refusal := .next (arrive .arbEval p s)

/-- STREAM_CONFIG (R434). -/
def execStreamConfig (p : Packet) (s : State) : Host.Outcome State Fault Refusal := .next (arrive .streamConfig p s)

/-- TRIG_ARM (R258). -/
def execTrigArm (p : Packet) (s : State) : Host.Outcome State Fault Refusal := .next (arrive .trigArm p s)

/-- TRIG_DISARM (R258). -/
def execTrigDisarm (p : Packet) (s : State) : Host.Outcome State Fault Refusal := .next (arrive .trigDisarm p s)

/-- TRIG_REARM (R257). -/
def execTrigRearm (p : Packet) (s : State) : Host.Outcome State Fault Refusal := .next (arrive .trigRearm p s)

/-- MAC_CONFIG (R284). -/
def execMacConfig (p : Packet) (s : State) : Host.Outcome State Fault Refusal := .next (arrive .macConfig p s)

/-- MAC_FILTER (R264). -/
def execMacFilter (p : Packet) (s : State) : Host.Outcome State Fault Refusal := .next (arrive .macFilter p s)

/-- GATE_LIST_LOAD (R272). -/
def execGateListLoad (p : Packet) (s : State) : Host.Outcome State Fault Refusal := .next (arrive .gateListLoad p s)

/-- EXTRACT_CONFIG (R275). -/
def execExtractConfig (p : Packet) (s : State) : Host.Outcome State Fault Refusal := .next (arrive .extractConfig p s)

/-- TEMPLATE_LOAD (R279). -/
def execTemplateLoad (p : Packet) (s : State) : Host.Outcome State Fault Refusal := .next (arrive .templateLoad p s)

/-- REPLY_CONFIG (R280). -/
def execReplyConfig (p : Packet) (s : State) : Host.Outcome State Fault Refusal := .next (arrive .replyConfig p s)

/-- COUNTERS_READ (R267). -/
def execCountersRead (p : Packet) (s : State) : Host.Outcome State Fault Refusal := .next (arrive .countersRead p s)

/-- FPORT_POWER (R297). -/
def execFportPower (p : Packet) (s : State) : Host.Outcome State Fault Refusal := .next (arrive .fportPower p s)

/-- LANE_CONTROL (R314). -/
def execLaneControl (p : Packet) (s : State) : Host.Outcome State Fault Refusal := .next (arrive .laneControl p s)

/-- FABRIC_CONFIG (R305). -/
def execFabricConfig (p : Packet) (s : State) : Host.Outcome State Fault Refusal := .next (arrive .fabricConfig p s)

/-- REDUCE_GROUP (R311). -/
def execReduceGroup (p : Packet) (s : State) : Host.Outcome State Fault Refusal := .next (arrive .reduceGroup p s)

/-- TIME_READ (R333). -/
def execTimeRead (p : Packet) (s : State) : Host.Outcome State Fault Refusal := .next (arrive .timeRead p s)

/-- TIME_SET (R324). -/
def execTimeSet (p : Packet) (s : State) : Host.Outcome State Fault Refusal := .next (arrive .timeSet p s)

/-- TIME_STEP (R324). -/
def execTimeStep (p : Packet) (s : State) : Host.Outcome State Fault Refusal := .next (arrive .timeStep p s)

/-- TIME_ADJ_FREQ (R318). -/
def execTimeAdjFreq (p : Packet) (s : State) : Host.Outcome State Fault Refusal := .next (arrive .timeAdjFreq p s)

/-- TIME_INVALIDATE (R324). -/
def execTimeInvalidate (p : Packet) (s : State) : Host.Outcome State Fault Refusal := .next (arrive .timeInvalidate p s)

/-- TIME_SOURCE (R319). -/
def execTimeSource (p : Packet) (s : State) : Host.Outcome State Fault Refusal := .next (arrive .timeSource p s)

/-- PTP_PORT_CONFIG (R333). -/
def execPtpPortConfig (p : Packet) (s : State) : Host.Outcome State Fault Refusal := .next (arrive .ptpPortConfig p s)

/-- PPS_CONFIG (R321). -/
def execPpsConfig (p : Packet) (s : State) : Host.Outcome State Fault Refusal := .next (arrive .ppsConfig p s)

/-- POWER_STOP (R369). -/
def execPowerStop (p : Packet) (s : State) : Host.Outcome State Fault Refusal := .next (arrive .powerStop p s)

/-- MARGIN_REPLAN (R374). -/
def execMarginReplan (p : Packet) (s : State) : Host.Outcome State Fault Refusal := .next (arrive .marginReplan p s)

/-- HEALTH_TEST (R379). -/
def execHealthTest (p : Packet) (s : State) : Host.Outcome State Fault Refusal := .next (arrive .healthTest p s)

/-- COLUMN_FAIL (R376). -/
def execColumnFail (p : Packet) (s : State) : Host.Outcome State Fault Refusal := .next (arrive .columnFail p s)

/-- ATTEST (R395). -/
def execAttest (p : Packet) (s : State) : Host.Outcome State Fault Refusal := .next (arrive .attest p s)

/-- GET_CERT (R394). -/
def execGetCert (p : Packet) (s : State) : Host.Outcome State Fault Refusal := .next (arrive .getCert p s)

/-- FW_UPDATE (R397). -/
def execFwUpdate (p : Packet) (s : State) : Host.Outcome State Fault Refusal := .next (arrive .fwUpdate p s)

/-- FW_RECOVER (R399). -/
def execFwRecover (p : Packet) (s : State) : Host.Outcome State Fault Refusal := .next (arrive .fwRecover p s)

/-- SAFE_MODEL_STORE (R401). -/
def execSafeModelStore (p : Packet) (s : State) : Host.Outcome State Fault Refusal := .next (arrive .safeModelStore p s)

/-- RING_START (R215). -/
def execRingStart (p : Packet) (s : State) : Host.Outcome State Fault Refusal := .next (arrive .ringStart p s)

/-- RING_STOP (R214). -/
def execRingStop (p : Packet) (s : State) : Host.Outcome State Fault Refusal := .next (arrive .ringStop p s)

/-- RING_READ (R214). -/
def execRingRead (p : Packet) (s : State) : Host.Outcome State Fault Refusal := .next (arrive .ringRead p s)

/-- RING_SEAL_READ (R214). -/
def execRingSealRead (p : Packet) (s : State) : Host.Outcome State Fault Refusal := .next (arrive .ringSealRead p s)

/-- FOLD_READ (R214). -/
def execFoldRead (p : Packet) (s : State) : Host.Outcome State Fault Refusal := .next (arrive .foldRead p s)

/-- CMD_MALFORMED (R335): the body of a command that is Short. -/
def execCmdMalformed (body : List Byte) (s : State) : Host.Outcome State Fault Refusal :=
  .next (if inReset s || !bodyShort body then s else countMalformed s)

/-- UNKNOWN_OPCODE (R335). -/
def execUnknownOpcode (opcode : BitVec 16) (p : Packet) (s : State) : Host.Outcome State Fault Refusal :=
  .next (if (opOf opcode.toNat).isSome then s else arriveCode opcode.toNat p s)

/-- UART_FRAME (R400) (DEDUCED, log entry 15). -/
def execUartFrame (bytes : List Byte) (s : State) : Host.Outcome State Fault Refusal := .next (uartFrame bytes s)

/-- TERMINAL_REPLY (R337). -/
def execTerminalReply (id : Nat) (s : State) : Host.Outcome State Fault Refusal := .next (terminalReply id s)

/-- LONG_OPERATION_STEP (R345). -/
def execLongOperationStep (id : Nat) (found : List Nat) (s : State) : Host.Outcome State Fault Refusal := .next (longStep id found s)

/-- CANOPY_COMMAND_APPLY (R33). -/
def execCanopyCommandApply (id : Nat) (s : State) : Host.Outcome State Fault Refusal :=
  .next (canopyApply id (fun g => match findFlight s id with
    | some f => g.namesPart (f.pkt.at_ 3 1)
    | none => false) s)

/-- PARTITION_QUIESCENT (R163). -/
def execPartitionQuiescent (part : Nat) (s : State) : Host.Outcome State Fault Refusal :=
  guardUnit (decide (part < 8)) (partitionQuiescent part s)

/-- FABRIC_PACKET (R308). -/
def execFabricPacket (port vc : Nat) (s : State) : Host.Outcome State Fault Refusal :=
  guardUnit (isPort port && decide (vc < 8)) (fabricPacket port vc s)

/-- GRAFT_APPLY (R377). -/
def execGraftApply (copy : GraftStep) (s : State) : Host.Outcome State Fault Refusal :=
  guardUnit (decide (copy.bay < 20)) (bayApply false copy.columns copy.bay s)

/-- BAY_RETIRE (R378). -/
def execBayRetire (bay : Nat) (s : State) : Host.Outcome State Fault Refusal := guardUnit (decide (bay < 20)) (bayApply true 0 bay s)

/-- BOOT_STEP (R383). -/
def execBootStep (report : BootReport) (s : State) : Host.Outcome State Fault Refusal := .next (serveWaiting false (bootStep report s))

/-- BOOT_READY (R383, R385). -/
def execBootReady (s : State) : Host.Outcome State Fault Refusal := .next (serveWaiting false (bootReady s))

end Sys2Proof.Machine
end

