-- ==== Sys2Proof/Machine/Clock.lean ====
section
/-! DEFINITION. What passes with time: one ACLK cycle, which is what a step does when no command waits (R7, R29, R316, R366). -/

namespace Sys2Proof.Machine

open Sys2Proof

/-- TCLK ticks that fall in the cycle, less those that commands have taken already (DESIGN CHOICE, log entry 4). -/
def tclkTicks : Nat → State → State
  | 0, s => s
  | n + 1, s =>
    if s.clk.ahead == 0 then tclkTicks n (tickTime s)
    else tclkTicks n { s with clk := { s.clk with ahead := s.clk.ahead - 1 } }

/-- The clocks advance by one ACLK cycle of 50 MHz × `units`: TCLK runs at 1,000 MHz and CCLK at 800 MHz (DESIGN CHOICE, log entries 1, 4). -/
def advanceClocks (s : State) : State :=
  let u := max 1 s.clk.units
  let t := s.clk.tphase + 20
  let c := s.clk.cphase + 16
  tclkTicks (t / u) { s with clk := { s.clk with aclk := s.clk.aclk + 1, tphase := t % u, cphase := c % u, cclk := s.clk.cclk + c / u } }

/-- The canopy's cycle ends: in every tile what is due in it is performed. A paused cycle does not count (DESIGN CHOICE, log entry 1). -/
def canopyCycle (s : State) : State :=
  if s.canopy.paused then s
  else
    let s := (s.canopy.tiles.map (fun kv => kv.1)).foldl (fun s k => tileCycleEnd (k / 512) (k % 512) s) s
    { s with canopy := { s.canopy with now := s.canopy.now + 1 } }

/-- The first item of each session's output leaves, unless it is a terminal reply (DESIGN CHOICE, log entry 1). -/
def drainOutputs (s : State) : State :=
  (List.range 8).foldl (fun s i =>
    match (getSession s i).outbox with
    | [] => s
    | it :: rest =>
      if it.isTerminal then s else sendItem i it (updSession i (fun x => { x with outbox := rest }) s)) s

/-- Reduction channels take what has reached their inputs, and give results and packets what room there is (DESIGN CHOICE, log entry 1). -/
def runChannels (s : State) : State :=
  (s.fabric.channels.map (fun kv => kv.1)).foldl (fun s k =>
    reduceOutput k (pumpChan k (getChan s k).outbox.length (reduceIntake k 17 s))) s

/-- The samples of the cycle stand, and accepted frames go on into their queues as the tail buffers have room (DESIGN CHOICE, log entry 1). -/
def runFrames (s : State) : State := (s.eth.macs.map (fun kv => kv.1)).foldl (fun s m => settleFrames m (settleSamples m s)) s

/-- Replies that the time lets start, and that the transmitter or their gate holds, count (R274) (DESIGN CHOICE, log entry 1). -/
def runReplies (s : State) : State := (s.eth.macs.map (fun kv => kv.1)).foldl (fun s m => markBlocked m s) s

/-- Ports send what they have credit for (DESIGN CHOICE, log entry 1). -/
def runPorts (s : State) : State := (s.fabric.ports.map (fun kv => kv.1)).foldl (fun s p => pumpPort p s) s

/-- One ACLK cycle passes. Nothing moves while the device is held in reset (DEDUCED, log entry 10; DESIGN CHOICE, log entry 1). -/
def passCycle (s : State) : State :=
  if inReset s then s
  else
    let c := s.clk.cclk
    let s := setPause (advanceClocks (canopyCycle (settleWrites (settleQueues (settleTrigger (runPorts (runChannels (runFrames (drainOutputs s)))))))))
    let s := if s.clk.cclk == c then s else beginCclk s
    resumeFlushes (fun _ => true) (resumeReads (fun _ => true) (runReplies s))

end Sys2Proof.Machine
end

