-- ==== Sys2Proof/Machine/TileEvents.lean ====
section
/-! DEFINITION. The rows of the table for what a tile does after an issue, and for its links and vault requests. -/

namespace Sys2Proof.Machine

open Sys2Proof

/-- A pause stops every tile, link and queue: nothing is done in a paused cycle (R48, R366). -/
def unlessPaused (s t : State) : State := if s.canopy.paused then s else t

/-- WAIT_CONDITION_MET (R122). -/
def execWaitConditionMet (col row : Nat) (s : State) : Host.Outcome State Fault Refusal :=
  guardUnit (isTile col row) (unlessPaused s (waitMet col row s))

/-- WAIT_BOUND_EXPIRY (R48, R122). -/
def execWaitBoundExpiry (col row : Nat) (s : State) : Host.Outcome State Fault Refusal :=
  guardUnit (isTile col row) (unlessPaused s (waitExpiry col row s))

/-- DOT_BLOCK (R136). -/
def execDotBlock (col row : Nat) (s : State) : Host.Outcome State Fault Refusal :=
  guardUnit (isTile col row) (unlessPaused s (dotBlock col row s))

/-- LATE_RESULT (R118, R145). -/
def execLateResult (col row : Nat) (s : State) : Host.Outcome State Fault Refusal :=
  guardUnit (isTile col row) (unlessPaused s (lateResult col row s))

/-- TOKEN_ARRIVAL (R50, R55, R57). -/
def execTokenArrival (col row dir : Nat) (parityOk : Bool) (s : State) : Host.Outcome State Fault Refusal :=
  guardUnit (isTile col row && decide (dir < 4)) (unlessPaused s (tokenArrival col row dir parityOk s))

/-- PASS_TOKEN_DEPART (R55, R58, R59). -/
def execPassTokenDepart (col row dir ctx : Nat) (s : State) : Host.Outcome State Fault Refusal :=
  guardUnit (isTile col row && decide (dir < 4) && decide (ctx < 4)) (unlessPaused s (passDepart col row dir ctx s))

/-- CREDIT_RETURN (R56). -/
def execCreditReturn (col row dir : Nat) (s : State) : Host.Outcome State Fault Refusal :=
  guardUnit (isTile col row && decide (dir < 4)) (unlessPaused s (creditReturn col row dir s))

/-- VAULT_SERVICE (R150 to R152). -/
def execVaultService (col row : Nat) (s : State) : Host.Outcome State Fault Refusal :=
  guardUnit (isTile col row) (unlessPaused s (vaultService col row s))

/-- VAULT_LOAD_RETURN (R150). -/
def execVaultLoadReturn (col row : Nat) (s : State) : Host.Outcome State Fault Refusal :=
  guardUnit (isTile col row) (unlessPaused s (vaultLoadReturn col row s))

end Sys2Proof.Machine
end

