-- ==== Sys2Proof/Machine/TileOps.lean ====
section
/-! DEFINITION. The rows of the table in which a tile issues an instruction: the word stands at the program counter of its active context (R117 to R138). -/

namespace Sys2Proof.Machine

open Sys2Proof

/-- NOP (R119); an opcode not in the table of R119 issues here too, and raises F11 (R140). -/
def execNopInstr (col row : Nat) (s : State) : Host.Outcome State Fault Refusal :=
  guardUnit (isTile col row) (issueTile (fun k => k == 0x00 || !opcListed k) col row s)

/-- SWITCH (R44). -/
def execSwitch (col row : Nat) (s : State) : Host.Outcome State Fault Refusal :=
  guardUnit (isTile col row) (issueTile (fun k => k == 0x01) col row s)

/-- WAIT (R122). -/
def execWait (col row : Nat) (s : State) : Host.Outcome State Fault Refusal :=
  guardUnit (isTile col row) (issueTile (fun k => k == 0x02) col row s)

/-- LOOP (R121). -/
def execLoop (col row : Nat) (s : State) : Host.Outcome State Fault Refusal :=
  guardUnit (isTile col row) (issueTile (fun k => k == 0x03) col row s)

/-- FOLD_CUT (R123). -/
def execFoldCut (col row : Nat) (s : State) : Host.Outcome State Fault Refusal :=
  guardUnit (isTile col row) (issueTile (fun k => k == 0x04) col row s)

/-- SEQSET (R134). -/
def execSeqset (col row : Nat) (s : State) : Host.Outcome State Fault Refusal :=
  guardUnit (isTile col row) (issueTile (fun k => k == 0x05) col row s)

/-- VADD (R125). -/
def execVadd (col row : Nat) (s : State) : Host.Outcome State Fault Refusal :=
  guardUnit (isTile col row) (issueTile (fun k => k == 0x10) col row s)

/-- VSUB (R125). -/
def execVsub (col row : Nat) (s : State) : Host.Outcome State Fault Refusal :=
  guardUnit (isTile col row) (issueTile (fun k => k == 0x11) col row s)

/-- VMUL (R125). -/
def execVmul (col row : Nat) (s : State) : Host.Outcome State Fault Refusal :=
  guardUnit (isTile col row) (issueTile (fun k => k == 0x12) col row s)

/-- VFMA (R124). -/
def execVfma (col row : Nat) (s : State) : Host.Outcome State Fault Refusal :=
  guardUnit (isTile col row) (issueTile (fun k => k == 0x13) col row s)

/-- VMIN (R125). -/
def execVmin (col row : Nat) (s : State) : Host.Outcome State Fault Refusal :=
  guardUnit (isTile col row) (issueTile (fun k => k == 0x14) col row s)

/-- VMAX (R125). -/
def execVmax (col row : Nat) (s : State) : Host.Outcome State Fault Refusal :=
  guardUnit (isTile col row) (issueTile (fun k => k == 0x15) col row s)

/-- VFN (R126). -/
def execVfn (col row : Nat) (s : State) : Host.Outcome State Fault Refusal :=
  guardUnit (isTile col row) (issueTile (fun k => k == 0x16) col row s)

/-- VCVT (R127). -/
def execVcvt (col row : Nat) (s : State) : Host.Outcome State Fault Refusal :=
  guardUnit (isTile col row) (issueTile (fun k => k == 0x17) col row s)

/-- IADD (R128). -/
def execIadd (col row : Nat) (s : State) : Host.Outcome State Fault Refusal :=
  guardUnit (isTile col row) (issueTile (fun k => k == 0x18) col row s)

/-- ISUB (R128). -/
def execIsub (col row : Nat) (s : State) : Host.Outcome State Fault Refusal :=
  guardUnit (isTile col row) (issueTile (fun k => k == 0x19) col row s)

/-- AND (R128). -/
def execAnd (col row : Nat) (s : State) : Host.Outcome State Fault Refusal :=
  guardUnit (isTile col row) (issueTile (fun k => k == 0x1A) col row s)

/-- OR (R128). -/
def execOr (col row : Nat) (s : State) : Host.Outcome State Fault Refusal :=
  guardUnit (isTile col row) (issueTile (fun k => k == 0x1B) col row s)

/-- XOR (R128). -/
def execXor (col row : Nat) (s : State) : Host.Outcome State Fault Refusal :=
  guardUnit (isTile col row) (issueTile (fun k => k == 0x1C) col row s)

/-- SHL (R128). -/
def execShl (col row : Nat) (s : State) : Host.Outcome State Fault Refusal :=
  guardUnit (isTile col row) (issueTile (fun k => k == 0x1D) col row s)

/-- SHR (R128). -/
def execShr (col row : Nat) (s : State) : Host.Outcome State Fault Refusal :=
  guardUnit (isTile col row) (issueTile (fun k => k == 0x1E) col row s)

/-- SAR (R128). -/
def execSar (col row : Nat) (s : State) : Host.Outcome State Fault Refusal :=
  guardUnit (isTile col row) (issueTile (fun k => k == 0x1F) col row s)

/-- FCMP (R129). -/
def execFcmp (col row : Nat) (s : State) : Host.Outcome State Fault Refusal :=
  guardUnit (isTile col row) (issueTile (fun k => k == 0x20) col row s)

/-- ICMP (R129). -/
def execIcmp (col row : Nat) (s : State) : Host.Outcome State Fault Refusal :=
  guardUnit (isTile col row) (issueTile (fun k => k == 0x21) col row s)

/-- SELECT (R130). -/
def execSelect (col row : Nat) (s : State) : Host.Outcome State Fault Refusal :=
  guardUnit (isTile col row) (issueTile (fun k => k == 0x22) col row s)

/-- MOV (R131). -/
def execMov (col row : Nat) (s : State) : Host.Outcome State Fault Refusal :=
  guardUnit (isTile col row) (issueTile (fun k => k == 0x28) col row s)

/-- SEND (R131). -/
def execSend (col row : Nat) (s : State) : Host.Outcome State Fault Refusal :=
  guardUnit (isTile col row) (issueTile (fun k => k == 0x29) col row s)

/-- LDV (R132). -/
def execLdv (col row : Nat) (s : State) : Host.Outcome State Fault Refusal :=
  guardUnit (isTile col row) (issueTile (fun k => k == 0x2A) col row s)

/-- STV (R132). -/
def execStv (col row : Nat) (s : State) : Host.Outcome State Fault Refusal :=
  guardUnit (isTile col row) (issueTile (fun k => k == 0x2B) col row s)

/-- DOT (R135). -/
def execDot (col row : Nat) (s : State) : Host.Outcome State Fault Refusal :=
  guardUnit (isTile col row) (issueTile (fun k => k == 0x30) col row s)

/-- MXCVT (R137). -/
def execMxcvt (col row : Nat) (s : State) : Host.Outcome State Fault Refusal :=
  guardUnit (isTile col row) (issueTile (fun k => k == 0x31) col row s)

/-- MXEXP (R138). -/
def execMxexp (col row : Nat) (s : State) : Host.Outcome State Fault Refusal :=
  guardUnit (isTile col row) (issueTile (fun k => k == 0x32) col row s)

end Sys2Proof.Machine
end

