-- ==== Sys2Proof/Machine/Dispatch.lean ====
section
/-! DEFINITION. The effect of every command: one arm a row of the opcode table. -/

namespace Sys2Proof.Machine

open Sys2Proof

/-- The effect of a command on everything but the queue. -/
def exec (i : Instr) (s : State) : Host.Outcome State Fault Refusal :=
  match i with
  | .nop p => Sys2Proof.Machine.execNop p s
  | .identify p => Sys2Proof.Machine.execIdentify p s
  | .getStatus p => Sys2Proof.Machine.execGetStatus p s
  | .openSession p => Sys2Proof.Machine.execOpenSession p s
  | .closeSession p => Sys2Proof.Machine.execCloseSession p s
  | .resetDomain p => Sys2Proof.Machine.execResetDomain p s
  | .readCsr p => Sys2Proof.Machine.execReadCsr p s
  | .writeCsr p => Sys2Proof.Machine.execWriteCsr p s
  | .selectProfile p => Sys2Proof.Machine.execSelectProfile p s
  | .readProfile p => Sys2Proof.Machine.execReadProfile p s
  | .writeProfile p => Sys2Proof.Machine.execWriteProfile p s
  | .loadImage p => Sys2Proof.Machine.execLoadImage p s
  | .unloadContext p => Sys2Proof.Machine.execUnloadContext p s
  | .start p => Sys2Proof.Machine.execStart p s
  | .stop p => Sys2Proof.Machine.execStop p s
  | .abort p => Sys2Proof.Machine.execAbort p s
  | .step p => Sys2Proof.Machine.execStep p s
  | .drain p => Sys2Proof.Machine.execDrain p s
  | .memRead p => Sys2Proof.Machine.execMemRead p s
  | .memWrite p => Sys2Proof.Machine.execMemWrite p s
  | .memFill p => Sys2Proof.Machine.execMemFill p s
  | .scrub p => Sys2Proof.Machine.execScrub p s
  | .sqConfig p => Sys2Proof.Machine.execSqConfig p s
  | .sqWrite p => Sys2Proof.Machine.execSqWrite p s
  | .sqRead p => Sys2Proof.Machine.execSqRead p s
  | .sqMark p => Sys2Proof.Machine.execSqMark p s
  | .sqRewind p => Sys2Proof.Machine.execSqRewind p s
  | .sqRelease p => Sys2Proof.Machine.execSqRelease p s
  | .sqFlush p => Sys2Proof.Machine.execSqFlush p s
  | .sqReset p => Sys2Proof.Machine.execSqReset p s
  | .arbLoad p => Sys2Proof.Machine.execArbLoad p s
  | .arbRead p => Sys2Proof.Machine.execArbRead p s
  | .arbVerify p => Sys2Proof.Machine.execArbVerify p s
  | .arbTcamLoad p => Sys2Proof.Machine.execArbTcamLoad p s
  | .arbEnsemble p => Sys2Proof.Machine.execArbEnsemble p s
  | .arbMode p => Sys2Proof.Machine.execArbMode p s
  | .arbEval p => Sys2Proof.Machine.execArbEval p s
  | .streamConfig p => Sys2Proof.Machine.execStreamConfig p s
  | .trigArm p => Sys2Proof.Machine.execTrigArm p s
  | .trigDisarm p => Sys2Proof.Machine.execTrigDisarm p s
  | .trigRearm p => Sys2Proof.Machine.execTrigRearm p s
  | .macConfig p => Sys2Proof.Machine.execMacConfig p s
  | .macFilter p => Sys2Proof.Machine.execMacFilter p s
  | .gateListLoad p => Sys2Proof.Machine.execGateListLoad p s
  | .extractConfig p => Sys2Proof.Machine.execExtractConfig p s
  | .templateLoad p => Sys2Proof.Machine.execTemplateLoad p s
  | .replyConfig p => Sys2Proof.Machine.execReplyConfig p s
  | .countersRead p => Sys2Proof.Machine.execCountersRead p s
  | .fportPower p => Sys2Proof.Machine.execFportPower p s
  | .laneControl p => Sys2Proof.Machine.execLaneControl p s
  | .fabricConfig p => Sys2Proof.Machine.execFabricConfig p s
  | .reduceGroup p => Sys2Proof.Machine.execReduceGroup p s
  | .timeRead p => Sys2Proof.Machine.execTimeRead p s
  | .timeSet p => Sys2Proof.Machine.execTimeSet p s
  | .timeStep p => Sys2Proof.Machine.execTimeStep p s
  | .timeAdjFreq p => Sys2Proof.Machine.execTimeAdjFreq p s
  | .timeInvalidate p => Sys2Proof.Machine.execTimeInvalidate p s
  | .timeSource p => Sys2Proof.Machine.execTimeSource p s
  | .ptpPortConfig p => Sys2Proof.Machine.execPtpPortConfig p s
  | .ppsConfig p => Sys2Proof.Machine.execPpsConfig p s
  | .powerStop p => Sys2Proof.Machine.execPowerStop p s
  | .marginReplan p => Sys2Proof.Machine.execMarginReplan p s
  | .healthTest p => Sys2Proof.Machine.execHealthTest p s
  | .columnFail p => Sys2Proof.Machine.execColumnFail p s
  | .attest p => Sys2Proof.Machine.execAttest p s
  | .getCert p => Sys2Proof.Machine.execGetCert p s
  | .fwUpdate p => Sys2Proof.Machine.execFwUpdate p s
  | .fwRecover p => Sys2Proof.Machine.execFwRecover p s
  | .safeModelStore p => Sys2Proof.Machine.execSafeModelStore p s
  | .ringStart p => Sys2Proof.Machine.execRingStart p s
  | .ringStop p => Sys2Proof.Machine.execRingStop p s
  | .ringRead p => Sys2Proof.Machine.execRingRead p s
  | .ringSealRead p => Sys2Proof.Machine.execRingSealRead p s
  | .foldRead p => Sys2Proof.Machine.execFoldRead p s
  | .cmdMalformed body => Sys2Proof.Machine.execCmdMalformed body s
  | .unknownOpcode opcode p => Sys2Proof.Machine.execUnknownOpcode opcode p s
  | .uartFrame bytes => Sys2Proof.Machine.execUartFrame bytes s
  | .terminalReply id => Sys2Proof.Machine.execTerminalReply id s
  | .longOperationStep id found => Sys2Proof.Machine.execLongOperationStep id found s
  | .canopyCommandApply id => Sys2Proof.Machine.execCanopyCommandApply id s
  | .faultStatusClear part => Sys2Proof.Machine.execFaultStatusClear part s
  | .poisonSeenClear q => Sys2Proof.Machine.execPoisonSeenClear q s
  | .ctrlRejectedClear q => Sys2Proof.Machine.execCtrlRejectedClear q s
  | .overrunClear q => Sys2Proof.Machine.execOverrunClear q s
  | .refusedClear => Sys2Proof.Machine.execRefusedClear s
  | .samplerEnable part on => Sys2Proof.Machine.execSamplerEnable part on s
  | .scrubEnable on => Sys2Proof.Machine.execScrubEnable on s
  | .ppsCfgEnable on => Sys2Proof.Machine.execPpsCfgEnable on s
  | .laneSlipGo port lane offset => Sys2Proof.Machine.execLaneSlipGo port lane offset s
  | .laneSlipTestDone port lane bits => Sys2Proof.Machine.execLaneSlipTestDone port lane bits s
  | .nopInstr col row => Sys2Proof.Machine.execNopInstr col row s
  | .switch col row => Sys2Proof.Machine.execSwitch col row s
  | .wait col row => Sys2Proof.Machine.execWait col row s
  | .waitConditionMet col row => Sys2Proof.Machine.execWaitConditionMet col row s
  | .waitBoundExpiry col row => Sys2Proof.Machine.execWaitBoundExpiry col row s
  | .loop col row => Sys2Proof.Machine.execLoop col row s
  | .foldCut col row => Sys2Proof.Machine.execFoldCut col row s
  | .seqset col row => Sys2Proof.Machine.execSeqset col row s
  | .vadd col row => Sys2Proof.Machine.execVadd col row s
  | .vsub col row => Sys2Proof.Machine.execVsub col row s
  | .vmul col row => Sys2Proof.Machine.execVmul col row s
  | .vfma col row => Sys2Proof.Machine.execVfma col row s
  | .vmin col row => Sys2Proof.Machine.execVmin col row s
  | .vmax col row => Sys2Proof.Machine.execVmax col row s
  | .vfn col row => Sys2Proof.Machine.execVfn col row s
  | .vcvt col row => Sys2Proof.Machine.execVcvt col row s
  | .iadd col row => Sys2Proof.Machine.execIadd col row s
  | .isub col row => Sys2Proof.Machine.execIsub col row s
  | .and col row => Sys2Proof.Machine.execAnd col row s
  | .or col row => Sys2Proof.Machine.execOr col row s
  | .xor col row => Sys2Proof.Machine.execXor col row s
  | .shl col row => Sys2Proof.Machine.execShl col row s
  | .shr col row => Sys2Proof.Machine.execShr col row s
  | .sar col row => Sys2Proof.Machine.execSar col row s
  | .fcmp col row => Sys2Proof.Machine.execFcmp col row s
  | .icmp col row => Sys2Proof.Machine.execIcmp col row s
  | .select col row => Sys2Proof.Machine.execSelect col row s
  | .mov col row => Sys2Proof.Machine.execMov col row s
  | .send col row => Sys2Proof.Machine.execSend col row s
  | .ldv col row => Sys2Proof.Machine.execLdv col row s
  | .stv col row => Sys2Proof.Machine.execStv col row s
  | .dot col row => Sys2Proof.Machine.execDot col row s
  | .dotBlock col row => Sys2Proof.Machine.execDotBlock col row s
  | .mxcvt col row => Sys2Proof.Machine.execMxcvt col row s
  | .mxexp col row => Sys2Proof.Machine.execMxexp col row s
  | .lateResult col row => Sys2Proof.Machine.execLateResult col row s
  | .tokenArrival col row dir parityOk => Sys2Proof.Machine.execTokenArrival col row dir parityOk s
  | .passTokenDepart col row dir ctx => Sys2Proof.Machine.execPassTokenDepart col row dir ctx s
  | .creditReturn col row dir => Sys2Proof.Machine.execCreditReturn col row dir s
  | .vaultService col row => Sys2Proof.Machine.execVaultService col row s
  | .vaultLoadReturn col row => Sys2Proof.Machine.execVaultLoadReturn col row s
  | .refresh vault bank die row => Sys2Proof.Machine.execRefresh vault bank die row s
  | .scrubVisit => Sys2Proof.Machine.execScrubVisit s
  | .rowRepairCopy => Sys2Proof.Machine.execRowRepairCopy s
  | .sqCellToRegion q => Sys2Proof.Machine.execSqCellToRegion q s
  | .sqCellToHead q => Sys2Proof.Machine.execSqCellToHead q s
  | .sqDataToken q => Sys2Proof.Machine.execSqDataToken q s
  | .sqControlWord q => Sys2Proof.Machine.execSqControlWord q s
  | .sqReadDelivery q parityOk => Sys2Proof.Machine.execSqReadDelivery q parityOk s
  | .samplerSnapshot part => Sys2Proof.Machine.execSamplerSnapshot part s
  | .deadlockDetect part => Sys2Proof.Machine.execDeadlockDetect part s
  | .deadlockReinject col row dir => Sys2Proof.Machine.execDeadlockReinject col row dir s
  | .drainEmpty part ctx => Sys2Proof.Machine.execDrainEmpty part ctx s
  | .drainLimit part ctx => Sys2Proof.Machine.execDrainLimit part ctx s
  | .stepEnd part => Sys2Proof.Machine.execStepEnd part s
  | .partitionQuiescent part => Sys2Proof.Machine.execPartitionQuiescent part s
  | .reduceBlockEntry channel => Sys2Proof.Machine.execReduceBlockEntry channel s
  | .reducePass1Up channel => Sys2Proof.Machine.execReducePass1Up channel s
  | .reducePass2Up channel => Sys2Proof.Machine.execReducePass2Up channel s
  | .reducePass1Down channel => Sys2Proof.Machine.execReducePass1Down channel s
  | .reducePass2Down channel => Sys2Proof.Machine.execReducePass2Down channel s
  | .ringRecordWrite => Sys2Proof.Machine.execRingRecordWrite s
  | .arbSampleToken first => Sys2Proof.Machine.execArbSampleToken first s
  | .arbSampleStart first => Sys2Proof.Machine.execArbSampleStart first s
  | .arbResult first => Sys2Proof.Machine.execArbResult first s
  | .streamFrameEnd lane start header words finish since => Sys2Proof.Machine.execStreamFrameEnd lane start header words finish since s
  | .streamDelivery endpoint => Sys2Proof.Machine.execStreamDelivery endpoint s
  | .trigScoreToken channel => Sys2Proof.Machine.execTrigScoreToken channel s
  | .trigInChange pin level since => Sys2Proof.Machine.execTrigInChange pin level since s
  | .trigOutputDecide out => Sys2Proof.Machine.execTrigOutputDecide out s
  | .trigOutPulseEnd out => Sys2Proof.Machine.execTrigOutPulseEnd out s
  | .captureFreeze out => Sys2Proof.Machine.execCaptureFreeze out s
  | .macLinkChange mac up => Sys2Proof.Machine.execMacLinkChange mac up s
  | .macRxVerdict mac bytes codeError since => Sys2Proof.Machine.execMacRxVerdict mac bytes codeError since s
  | .extractSampleComplete mac bytes ended since => Sys2Proof.Machine.execExtractSampleComplete mac bytes ended since s
  | .replyReady mac => Sys2Proof.Machine.execReplyReady mac s
  | .replyStart mac => Sys2Proof.Machine.execReplyStart mac s
  | .replyFcsHandover mac => Sys2Proof.Machine.execReplyFcsHandover mac s
  | .txItemReady mac cls => Sys2Proof.Machine.execTxItemReady mac cls s
  | .txFrameStart mac => Sys2Proof.Machine.execTxFrameStart mac s
  | .gateListTakesForce mac => Sys2Proof.Machine.execGateListTakesForce mac s
  | .gateEntryAdvance mac => Sys2Proof.Machine.execGateEntryAdvance mac s
  | .alignGroupReceive port lane group rest => Sys2Proof.Machine.execAlignGroupReceive port lane group rest s
  | .txCountdownEnd port lane => Sys2Proof.Machine.execTxCountdownEnd port lane s
  | .txDeafTimeout port => Sys2Proof.Machine.execTxDeafTimeout port s
  | .fomWindow port lane fom => Sys2Proof.Machine.execFomWindow port lane fom s
  | .laneLost port lane cause => Sys2Proof.Machine.execLaneLost port lane cause s
  | .flitReceive port lane slot groups parity next => Sys2Proof.Machine.execFlitReceive port lane slot groups parity next s
  | .nakRepeat port => Sys2Proof.Machine.execNakRepeat port s
  | .retryTimeout port => Sys2Proof.Machine.execRetryTimeout port s
  | .portDownFlush port => Sys2Proof.Machine.execPortDownFlush port s
  | .deepDrainDone port => Sys2Proof.Machine.execDeepDrainDone port s
  | .deepDrainTimeout port => Sys2Proof.Machine.execDeepDrainTimeout port s
  | .activityWake port => Sys2Proof.Machine.execActivityWake port s
  | .fabricPacket port vc => Sys2Proof.Machine.execFabricPacket port vc s
  | .secondCarry => Sys2Proof.Machine.execSecondCarry s
  | .ppsOutEnd => Sys2Proof.Machine.execPpsOutEnd s
  | .ppsInEdge => Sys2Proof.Machine.execPpsInEdge s
  | .refLost => Sys2Proof.Machine.execRefLost s
  | .pllLock => Sys2Proof.Machine.execPllLock s
  | .governorSample rails maxC => Sys2Proof.Machine.execGovernorSample rails maxC s
  | .emergencyStopEnd => Sys2Proof.Machine.execEmergencyStopEnd s
  | .vcoreWarning mv => Sys2Proof.Machine.execVcoreWarning mv s
  | .pauseEnd mv => Sys2Proof.Machine.execPauseEnd mv s
  | .supplyReset rail mv => Sys2Proof.Machine.execSupplyReset rail mv s
  | .supplyResetHoldEnd => Sys2Proof.Machine.execSupplyResetHoldEnd s
  | .thermalTrip maxC => Sys2Proof.Machine.execThermalTrip maxC s
  | .ageingMeasure periods => Sys2Proof.Machine.execAgeingMeasure periods s
  | .autoReplan => Sys2Proof.Machine.execAutoReplan s
  | .avsAck => Sys2Proof.Machine.execAvsAck s
  | .avsRetry => Sys2Proof.Machine.execAvsRetry s
  | .graftApply copy => Sys2Proof.Machine.execGraftApply copy s
  | .bayRetire bay => Sys2Proof.Machine.execBayRetire bay s
  | .resetNAssert => Sys2Proof.Machine.execResetNAssert s
  | .resetTakesEffect => Sys2Proof.Machine.execResetTakesEffect s
  | .resetNRelease sel addr pwrGood => Sys2Proof.Machine.execResetNRelease sel addr pwrGood s
  | .pwrGoodLow => Sys2Proof.Machine.execPwrGoodLow s
  | .bootStep report => Sys2Proof.Machine.execBootStep report s
  | .bootReady => Sys2Proof.Machine.execBootReady s
  | .page write pecOk => Sys2Proof.Machine.execPage write pecOk s
  | .clearFaults pecOk => Sys2Proof.Machine.execClearFaults pecOk s
  | .voutMode => Sys2Proof.Machine.execVoutMode s
  | .statusWord => Sys2Proof.Machine.execStatusWord s
  | .readVout => Sys2Proof.Machine.execReadVout s
  | .readIout => Sys2Proof.Machine.execReadIout s
  | .readTemperature1 => Sys2Proof.Machine.execReadTemperature1 s
  | .readPout => Sys2Proof.Machine.execReadPout s
  | .pmbusRevision => Sys2Proof.Machine.execPmbusRevision s
  | .idcode => Sys2Proof.Machine.execIdcode s
  | .samplePreload pins preload => Sys2Proof.Machine.execSamplePreload pins preload s
  | .extest scan => Sys2Proof.Machine.execExtest scan s
  | .bypass code => Sys2Proof.Machine.execBypass code s
  | .streamLaneBlockLock lane headers => Sys2Proof.Machine.execStreamLaneBlockLock lane headers s
  | .snapshotDrain part => Sys2Proof.Machine.execSnapshotDrain part s
  | .testLogicReset => Sys2Proof.Machine.execTestLogicReset s
  | .pmbusOtherCommand code write => Sys2Proof.Machine.execPmbusOtherCommand code write s

end Sys2Proof.Machine
end

