-- ==== Sys2Proof/Machine/Step.lean ====
section
/-! DEFINITION. One step of the block. -/

namespace Sys2Proof.Machine

open Sys2Proof

/-- A step takes the command at the front of the queue and runs it; on an empty queue one ACLK cycle passes (DESIGN CHOICE, log entries 1, 9). -/
def step (s : State) : Host.Outcome State Fault Refusal :=
  match s.pending with
  | i :: rest => exec i { s with pending := rest }
  | [] => .next (passCycle s)

/-- The state with the command that a table word spells in front of its queue; no row of the table gives bits, so no word
spells one (DESIGN CHOICE, log entry 9). -/
def State.withFetchWord (s : State) (nbits w : Nat) : State :=
  match decodeTableWord nbits w with
  | some i => { s with pending := i :: s.pending }
  | none => s

end Sys2Proof.Machine
end

