-- ==== Sys2Proof/Safety.lean ====
section
/-! DEFINITION. The terms of the statements: when an arriving command is served at once, what its answer leaves in the command
engine, and the invariant of every step. -/

namespace Sys2Proof.Safety

open Sys2Proof Sys2Proof.Machine

/-- Serial numbers of the commands in flight lie below the next one. -/
def serialsBelow (s : State) : Bool := s.host.flights.all (fun g => decide (g.id < s.host.nextId))

/-- The command in flight that an arriving packet becomes (R337, R343, R346). -/
def arriving (op : Op) (p : Packet) (s : State) : Flight :=
  let f : Flight := { id := s.host.nextId, op := op, pkt := p, phase := .waiting }
  { f with names := allNames f (noteCommand p s) }

/-- The state with one more command in flight, its session having noted it. -/
def withFlight (f : Flight) (s : State) : State :=
  let u := noteCommand f.pkt s
  { u with host := { u.host with flights := s.host.flights ++ [f], nextId := s.host.nextId + 1 } }

/-- That command as it starts to be served. -/
def taken (op : Op) (p : Packet) (s : State) : Flight := { arriving op p s with phase := .active, lastStep := s.host.steps }

/-- The state in which it is served. -/
def inService (op : Op) (p : Packet) (s : State) : State := withFlight (taken op p s) s

/-- A command that a thermal trip, or recovery, lets end INTERNAL (R372, R398). -/
def endsInternal (op : Op) (s : State) : Bool :=
  (s.power.trip && !op.servedAlways) || (s.boot.stage == .recovery && !op.servedAlways && op != .fwRecover)

/-- Nothing keeps an arriving command from being served at once by its own rule: the cases of R335 before Taken do not hold,
neither R346, R385, a repair of a bay nor a firmware step holds it back, it does not end INTERNAL for a trip or recovery, and no
command of its session is ending the session (R341). -/
def servedAtOnce (op : Op) (p : Packet) (s : State) : Bool :=
  let f := arriving op p s
  let u := withFlight f s
  !deaf p s && p.payload.length == p.payloadLength.toNat && !badHeader p && refusal op p (noteCommand p s) == none
    && serialsBelow s && !endsInternal op s && !blocked f u && !firmwareHeld f u
    && (endings p.session.toNat u).isEmpty

/-- The command engine after an arriving command has been answered at once: the command is in flight with its completion
recorded in this CCLK cycle, and its terminal reply is last in its session's output (R337). -/
def answeredHost (op : Op) (p : Packet) (r : Reply) (s : State) : HostState :=
  let u := updSession p.session.toNat (fun x => { x with outbox := x.outbox ++ [.terminal s.host.nextId] }) (noteCommand p s)
  { u.host with
    flights := s.host.flights ++ [{ taken op p s with phase := .done s.clk.cclk r }], nextId := s.host.nextId + 1 }

/-- The command engine after an arriving command has begun: the command is in flight with these fields. -/
def begunHost (op : Op) (p : Packet) (g : Flight → Flight) (s : State) : HostState :=
  { (inService op p s).host with flights := s.host.flights ++ [g (taken op p s)] }

/-- The command is answered at once and changes nothing but the command engine. -/
def answers (op : Op) (p : Packet) (r : Reply) (s : State) : Host.Outcome State Fault Refusal :=
  .next { s with host := answeredHost op p r s }

/-- The command has begun, with these fields, and has changed nothing but the command engine. -/
def begins (op : Op) (p : Packet) (g : Flight → Flight) (s : State) : Host.Outcome State Fault Refusal :=
  .next { s with host := begunHost op p g s }

/-- The completion of the newest command is recorded with this reply. -/
def Answered (op : Op) (p : Packet) (r : Reply) (s t : State) : Prop :=
  findFlight t s.host.nextId = some { taken op p s with phase := .done s.clk.cclk r }

/-- No other session than the command's owns a resource (R342). -/
def free (owner : Option Nat) (p : Packet) : Bool := !foreign owner p.session.toNat

/-- The 40-bit device memory address that begins a memory command's parameters (R360). -/
def p40 (p : Packet) : Nat := p.at_ 0 5

/-- The owner of a resource that a command claims (R342): a resource with no owner goes to the command's session. -/
def claim (owner : Option Nat) (p : Packet) : Option Nat := some (owner.getD p.session.toNat)

/-! ### Instructions of a tile -/

/-- The row of the table that issues an opcode at a tile; an opcode not in R119 has the row of NOP (log entry 37). -/
def opcodeRow (opc col row : Nat) : Instr :=
  match opc with
  | 0x01 => .switch col row
  | 0x02 => .wait col row
  | 0x03 => .loop col row
  | 0x04 => .foldCut col row
  | 0x05 => .seqset col row
  | 0x10 => .vadd col row
  | 0x11 => .vsub col row
  | 0x12 => .vmul col row
  | 0x13 => .vfma col row
  | 0x14 => .vmin col row
  | 0x15 => .vmax col row
  | 0x16 => .vfn col row
  | 0x17 => .vcvt col row
  | 0x18 => .iadd col row
  | 0x19 => .isub col row
  | 0x1A => .and col row
  | 0x1B => .or col row
  | 0x1C => .xor col row
  | 0x1D => .shl col row
  | 0x1E => .shr col row
  | 0x1F => .sar col row
  | 0x20 => .fcmp col row
  | 0x21 => .icmp col row
  | 0x22 => .select col row
  | 0x28 => .mov col row
  | 0x29 => .send col row
  | 0x2A => .ldv col row
  | 0x2B => .stv col row
  | 0x30 => .dot col row
  | 0x31 => .mxcvt col row
  | 0x32 => .mxexp col row
  | _ => .nopInstr col row

/-- The word at a place, in its fields. -/
def fieldsAt (s : State) (a : At) : Fields := fieldsOf (wordAt s a)

/-- The instruction at a place reaches issue in this cycle, the tile being in a partition, not paused, and its context active (R117). -/
def standsAt (s : State) (a : At) : Bool := isTile a.col a.row && issuePlace s a.col a.row == some a

/-- Its predicate is not pending and lets it act (R117). -/
def predicated (s : State) (a : At) : Bool :=
  let x := getTile (atIssue a s) a.col a.row
  let f := fieldsAt s a
  !pendingPred x a.c f.pred && (x.ctx a.c).pred f.pred != f.pneg

/-- It has a result of this cycle for a scratch word whose write port is free (R40). -/
def writePortFree (s : State) (a : At) (f : Fields) : Bool :=
  f.opc == 0x2A || latencyOf f != 1 ||
    (scratchDst (getTile s a.col a.row) a.c f).all (fun w =>
      let t := getTile s a.col a.row
      !claimDead t s.canopy.now (w % 4) true 0 a.c a.tag && (otherClaim t s.canopy.now (w % 4) true 0 a.c a.tag).isNone)

/-- None of the cases of R117 after the predicate stops the instruction, in the state at its issue: the encoding is legal, nothing that
it uses is pending or occupied, its links hold tokens, a SEND's outputs take them, the vault queue and the register write port have room,
no operand it consumes is poisoned, a vault address exists and is the context's own, its scratch operand is read (R40, R41, R43), and its
scratch destination is the context's own with a free write port. -/
def unstopped (s : State) (a : At) (f : Fields) : Bool :=
  let t := getTile s a.col a.row
  (illegalRows f (envOf s a)).isEmpty && !notReady s.canopy.now t a.c f && !emptyLink t a.c f && sendGate a f s == .go && !vaultFull t f
    && !portTaken s.canopy.now t a.c f && (poisoned t a.c f).isNone
    && (!usesVault f || (decide (vaultWord t a.c f < vaultWords s) && ownsVault s (getPart s a.p) a.c (vaultOf a.col a.row) (vaultWord t a.c f)))
    && (scratchOperand a f s).1.isSome && (dstOutside a f s).isNone && writePortFree s a f

/-- The instruction at a place issues in this cycle and acts: R117's conditions for normal execution, on the state alone. -/
def issues (s : State) (a : At) : Bool := standsAt s a && predicated s a && unstopped (atIssue a s) a (fieldsAt s a)

/-- The state in which it takes effect: its operands have been read, and their tokens taken. -/
def effectState (s : State) (a : At) : State :=
  takeTokens a (fieldsAt s a) (scratchOperand a (fieldsAt s a) (atIssue a s)).2

/-- Value of a source selector of the instruction at a place (R111). -/
def operand (s : State) (a : At) (sel : Nat) : Val :=
  let w := atIssue a s
  sourceVal (getTile w a.col a.row) a.c (fieldsAt s a) ((scratchOperand a (fieldsAt s a) w).1.getD {}) sel

/-- The register, predicate or scratch word that the instruction at a place writes (R112). -/
def destination (s : State) (a : At) : LateDst := dstOf (getTile (atIssue a s) a.col a.row) a.c (fieldsAt s a)

/-- No read of the tile is due. -/
def noReadsDue (s : State) (a : At) : Bool :=
  (getTile s a.col a.row).dues.all (fun d => !(decide (d.at_ ≤ s.canopy.now) && d.op.isRead))

/-- What an instruction leaves that has issued, but for its own results: one tile of one partition has moved on to an instruction. -/
def Retired (s u : State) (a : At) (pc : Nat) : Prop :=
  let t := getTile s a.col a.row
  let v := getTile u a.col a.row
  u = { s with canopy := { s.canopy with tiles := u.canopy.tiles, parts := u.canopy.parts } } ∧
    (∀ k, k ≠ tileKey a.col a.row → Table.get {} u.canopy.tiles k = Table.get {} s.canopy.tiles k) ∧
    (∀ q, q ≠ a.p → getPart u q = getPart s q) ∧ getPart u a.p = { getPart s a.p with activity := s.canopy.now } ∧
    v.issuedAt = some s.canopy.now ∧ (v.ctx a.c).pc = BitVec.ofNat 6 pc ∧ (∀ d, d ≠ a.c → v.ctx d = t.ctx d) ∧
    v.ins = t.ins ∧ v.outs = t.outs

/-- Index of the next instruction. -/
def nextPc (s : State) (a : At) : Nat := (((getTile s a.col a.row).ctx a.c).pc.toNat + 1) % 64

/-- No register, predicate or scratch word has changed. -/
def SameRegs (s u : State) (a : At) : Prop :=
  let x := (getTile s a.col a.row).ctx a.c
  let y := (getTile u a.col a.row).ctx a.c
  (∀ i, y.reg i = x.reg i) ∧ y.pb = x.pb ∧ (getTile u a.col a.row).scratch = (getTile s a.col a.row).scratch

/-- Between two states of a tile one register, predicate or scratch word of a context has been written. PB0 reads 1 and discards
writes (R42). -/
def Wrote (t v : Tile) (c : Nat) (dst : LateDst) (r : Val) : Prop :=
  let x := t.ctx c
  let y := v.ctx c
  match dst with
  | .g g => y.reg g = r ∧ (∀ i, i ≠ g → y.reg i = x.reg i) ∧ y.pb = x.pb ∧ v.scratch = t.scratch
  | .pb b => (∀ i, y.reg i = x.reg i) ∧ y.pred 0 = true ∧ (b ≠ 0 → y.pred b = r.v.getLsbD 0) ∧
      (∀ i, i < 8 → i ≠ b → y.pred i = x.pred i) ∧ v.scratch = t.scratch
  | .scratch w | .block w => v.word w = { data := r.v, poison := r.poison, written := true } ∧ (∀ k, k ≠ w → v.word k = t.word k) ∧
      (∀ i, y.reg i = x.reg i) ∧ y.pb = x.pb

/-- One register, predicate or scratch word has been written at once, and nothing more is due. -/
def WroteNow (s u : State) (a : At) (dst : LateDst) (r : Val) : Prop :=
  (getTile u a.col a.row).dues = (getTile s a.col a.row).dues ∧ Wrote (getTile s a.col a.row) (getTile u a.col a.row) a.c dst r

/-- One register, predicate or scratch word is due to be written in the last cycle of an instruction of a latency (R118), a scratch
word's write port being claimed for that cycle (R40), and none has changed yet. A result for PB0 goes nowhere (R42). -/
def WritesLate (s u : State) (a : At) (dst : LateDst) (lat : Nat) (r : Val) : Prop :=
  let t := getTile s a.col a.row
  let v := getTile u a.col a.row
  let last := s.canopy.now + lat - 1
  SameRegs s u a ∧
    (dst = .pb 0 → v.dues = t.dues ∧ v.claims = t.claims) ∧
    (dst ≠ .pb 0 → v.dues = (addDue { at_ := last, tag := s.canopy.now, ctx := a.c, index := a.index, op := .late dst r } t).dues ∧
      match dst with
      | .scratch w => v.claims = t.claims ++
          [{ at_ := last, bank := w % 4, write := true, user := 0, ctx := a.c, index := a.index, tag := s.canopy.now }]
      | _ => v.claims = t.claims)

/-- A token of a context has gone out on the outputs of a tile that `on` names, and on no other: to the neighbour, or to the endpoint
of the edge port, with a credit taken there (R50, R56) that a trigger channel's endpoint alone does not need (R251). -/
def Placed (s u : State) (p col row c : Nat) (on : Nat → Bool) (k : Tok) : Prop :=
  let w : WireTok := { tok := k, at_ := s.canopy.now }
  (∀ d, d < 4 → on d = false → (getTile u col row).out d = (getTile s col row).out d) ∧
    (∀ d, d < 4 → on d = true →
      let o := (getTile s col row).out d
      let port := (edgeSide row d).bind (boundPort s p col)
      (getTile u col row).out d =
        { o with used := if port.any (fun b => b.2.unit == 5) then o.used else (o.take c).used
                 ptr := (c + 1) % 4, placedAt := some s.canopy.now } ∧
      (∀ b, port = some b → getEdge u b.2.unit b.2.index = getEdge s b.2.unit b.2.index ++ [w]) ∧
      (∀ c2 r2, edgeSide row d = none → neighbour col row d = some (c2, r2) →
        (getTile u c2 r2).inp (opposite d) = { (getTile s c2 r2).inp (opposite d) with wire := ((getTile s c2 r2).inp (opposite d)).wire ++ [w] })) ∧
    (∀ k, k ≠ tileKey col row → (∀ d c2 r2, neighbour col row d = some (c2, r2) → k ≠ tileKey c2 r2) →
      Table.get {} u.canopy.tiles k = Table.get {} s.canopy.tiles k) ∧
    u = { s with canopy := { s.canopy with tiles := u.canopy.tiles, parts := u.canopy.parts, edges := u.canopy.edges } }

/-- Between two states one tile has changed, and no other. -/
def OnlyTile (s u : State) (col row : Nat) : Prop :=
  u = { s with canopy := { s.canopy with tiles := u.canopy.tiles } } ∧
    ∀ k, k ≠ tileKey col row → Table.get {} u.canopy.tiles k = Table.get {} s.canopy.tiles k

/-- One thing of a kind is due in a tile by this cycle, and no read. -/
def dueAlone (s : State) (col row : Nat) (d : Due) (sel : Due → Bool) : Prop :=
  let t := getTile s col row
  t.dues.all (fun d => !(decide (d.at_ ≤ s.canopy.now) && d.op.isRead)) = true ∧
    t.dues.filter (fun d => decide (d.at_ ≤ s.canopy.now) && sel d) = [d]

/-- A write of a user to a scratch word takes place in this cycle: the port is not taken and the word is the context's own (R40, R43). -/
def writesWord (s : State) (p col row user c tag w : Nat) : Bool :=
  let t := getTile s col row
  !claimDead t s.canopy.now (w % 4) true user c tag && (otherClaim t s.canopy.now (w % 4) true user c tag).isNone && ownsScratch (getPart s p) c w

/-- The four words of a load have been written to scratch, and its request is gone. -/
def Landed (t v : Tile) (r : VReq) (vals : List Val) : Prop :=
  v.vq = t.vq.filter (fun q => q.issued != r.issued) ∧
    (∀ j, j < 4 → v.word ((r.scr + j) % 1024) = { data := (vals.getD j {}).v, poison := (vals.getD j {}).poison, written := true }) ∧
    (∀ w, (∀ j, j < 4 → w ≠ (r.scr + j) % 1024) → v.word w = t.word w)

/-! ### The invariant -/

/-- What every step keeps. -/
structure Inv (s : State) : Prop where
  /-- Vault memory is in its canonical form. -/
  memory : Memory.wf s.vaults.mem = true
  /-- So are the tables of spill queues, arbor engines and reduction channels. -/
  queues : Table.wf {} s.queues = true
  engines : Table.wf {} s.arbor.engines = true
  channels : Table.wf {} s.fabric.channels = true
  /-- Commands in flight have serial numbers below the next one. -/
  serials : serialsBelow s = true
  /-- No session holds more than 256 events (R338). -/
  events : ∀ i, ((getSession s i).outbox.filter OutItem.isEvent).length ≤ 256
  /-- The change log holds the latest 8 changes (R325). -/
  changes : s.time.log.length ≤ 8
  /-- The ring log holds the latest 4,096 records and 64 seals (R212, R213). -/
  records : s.ring.records.length ≤ 4096
  seals : s.ring.seals.length ≤ 64

end Sys2Proof.Safety
end

