-- ==== Sys2Proof/WellFormed.lean ====
section
/-! DEFINITION. Which commands are well formed: their operands name units of the part, and a packet's path is one that a packet can have. -/

namespace Sys2Proof

/-- A packet that can arrive: by an F-port or the management UART, by at most 12 hops of 4 bits, in a packet of at most 4,160 body
bytes (R304, R307). -/
def Packet.wf (p : Packet) : Bool :=
  (decide (p.inPort < 40) || p.inPort == 255) && decide (p.route.length ≤ 12) && p.route.all (fun h => decide (h < 16))
    && decide (p.payload.length ≤ 4096)

/-- The operands name units that the part has; `dies` is the number of DRAM dies a stack (R2, R3, R14 to R16). -/
def Instr.units (dies : Nat) : Instr → Bool
  | .nop _ => true
  | .identify _ => true
  | .getStatus _ => true
  | .openSession _ => true
  | .closeSession _ => true
  | .resetDomain _ => true
  | .readCsr _ => true
  | .writeCsr _ => true
  | .selectProfile _ => true
  | .readProfile _ => true
  | .writeProfile _ => true
  | .loadImage _ => true
  | .unloadContext _ => true
  | .start _ => true
  | .stop _ => true
  | .abort _ => true
  | .step _ => true
  | .drain _ => true
  | .memRead _ => true
  | .memWrite _ => true
  | .memFill _ => true
  | .scrub _ => true
  | .sqConfig _ => true
  | .sqWrite _ => true
  | .sqRead _ => true
  | .sqMark _ => true
  | .sqRewind _ => true
  | .sqRelease _ => true
  | .sqFlush _ => true
  | .sqReset _ => true
  | .arbLoad _ => true
  | .arbRead _ => true
  | .arbVerify _ => true
  | .arbTcamLoad _ => true
  | .arbEnsemble _ => true
  | .arbMode _ => true
  | .arbEval _ => true
  | .streamConfig _ => true
  | .trigArm _ => true
  | .trigDisarm _ => true
  | .trigRearm _ => true
  | .macConfig _ => true
  | .macFilter _ => true
  | .gateListLoad _ => true
  | .extractConfig _ => true
  | .templateLoad _ => true
  | .replyConfig _ => true
  | .countersRead _ => true
  | .fportPower _ => true
  | .laneControl _ => true
  | .fabricConfig _ => true
  | .reduceGroup _ => true
  | .timeRead _ => true
  | .timeSet _ => true
  | .timeStep _ => true
  | .timeAdjFreq _ => true
  | .timeInvalidate _ => true
  | .timeSource _ => true
  | .ptpPortConfig _ => true
  | .ppsConfig _ => true
  | .powerStop _ => true
  | .marginReplan _ => true
  | .healthTest _ => true
  | .columnFail _ => true
  | .attest _ => true
  | .getCert _ => true
  | .fwUpdate _ => true
  | .fwRecover _ => true
  | .safeModelStore _ => true
  | .ringStart _ => true
  | .ringStop _ => true
  | .ringRead _ => true
  | .ringSealRead _ => true
  | .foldRead _ => true
  | .cmdMalformed _ => true
  | .unknownOpcode _ _ => true
  | .uartFrame _ => true
  | .terminalReply _ => true
  | .longOperationStep _ _ => true
  | .canopyCommandApply _ => true
  | .faultStatusClear part => decide (part < 8)
  | .poisonSeenClear q => decide (q < 256)
  | .ctrlRejectedClear q => decide (q < 256)
  | .overrunClear q => decide (q < 256)
  | .refusedClear => true
  | .samplerEnable part _ => decide (part < 8)
  | .scrubEnable _ => true
  | .ppsCfgEnable _ => true
  | .laneSlipGo port lane _ => decide (port < 40) && decide (lane < 9)
  | .laneSlipTestDone port lane _ => decide (port < 40) && decide (lane < 9)
  | .nopInstr col row => decide (col < 640) && decide (row < 512)
  | .switch col row => decide (col < 640) && decide (row < 512)
  | .wait col row => decide (col < 640) && decide (row < 512)
  | .waitConditionMet col row => decide (col < 640) && decide (row < 512)
  | .waitBoundExpiry col row => decide (col < 640) && decide (row < 512)
  | .loop col row => decide (col < 640) && decide (row < 512)
  | .foldCut col row => decide (col < 640) && decide (row < 512)
  | .seqset col row => decide (col < 640) && decide (row < 512)
  | .vadd col row => decide (col < 640) && decide (row < 512)
  | .vsub col row => decide (col < 640) && decide (row < 512)
  | .vmul col row => decide (col < 640) && decide (row < 512)
  | .vfma col row => decide (col < 640) && decide (row < 512)
  | .vmin col row => decide (col < 640) && decide (row < 512)
  | .vmax col row => decide (col < 640) && decide (row < 512)
  | .vfn col row => decide (col < 640) && decide (row < 512)
  | .vcvt col row => decide (col < 640) && decide (row < 512)
  | .iadd col row => decide (col < 640) && decide (row < 512)
  | .isub col row => decide (col < 640) && decide (row < 512)
  | .and col row => decide (col < 640) && decide (row < 512)
  | .or col row => decide (col < 640) && decide (row < 512)
  | .xor col row => decide (col < 640) && decide (row < 512)
  | .shl col row => decide (col < 640) && decide (row < 512)
  | .shr col row => decide (col < 640) && decide (row < 512)
  | .sar col row => decide (col < 640) && decide (row < 512)
  | .fcmp col row => decide (col < 640) && decide (row < 512)
  | .icmp col row => decide (col < 640) && decide (row < 512)
  | .select col row => decide (col < 640) && decide (row < 512)
  | .mov col row => decide (col < 640) && decide (row < 512)
  | .send col row => decide (col < 640) && decide (row < 512)
  | .ldv col row => decide (col < 640) && decide (row < 512)
  | .stv col row => decide (col < 640) && decide (row < 512)
  | .dot col row => decide (col < 640) && decide (row < 512)
  | .dotBlock col row => decide (col < 640) && decide (row < 512)
  | .mxcvt col row => decide (col < 640) && decide (row < 512)
  | .mxexp col row => decide (col < 640) && decide (row < 512)
  | .lateResult col row => decide (col < 640) && decide (row < 512)
  | .tokenArrival col row dir _ => decide (col < 640) && decide (row < 512) && decide (dir < 4)
  | .passTokenDepart col row dir ctx => decide (col < 640) && decide (row < 512) && decide (dir < 4) && decide (ctx < 4)
  | .creditReturn col row dir => decide (col < 640) && decide (row < 512) && decide (dir < 4)
  | .vaultService col row => decide (col < 640) && decide (row < 512)
  | .vaultLoadReturn col row => decide (col < 640) && decide (row < 512)
  | .refresh vault bank die row => decide (vault < 21120) && decide (bank < 16) && decide (die < dies) && decide (row < 256)
  | .scrubVisit => true
  | .rowRepairCopy => true
  | .sqCellToRegion q => decide (q < 256)
  | .sqCellToHead q => decide (q < 256)
  | .sqDataToken q => decide (q < 256)
  | .sqControlWord q => decide (q < 256)
  | .sqReadDelivery q _ => decide (q < 256)
  | .samplerSnapshot part => decide (part < 8)
  | .deadlockDetect part => decide (part < 8)
  | .deadlockReinject col row dir => decide (col < 640) && decide (row < 512) && decide (dir < 4)
  | .drainEmpty part ctx => decide (part < 8) && decide (ctx < 4)
  | .drainLimit part ctx => decide (part < 8) && decide (ctx < 4)
  | .stepEnd part => decide (part < 8)
  | .partitionQuiescent part => decide (part < 8)
  | .reduceBlockEntry channel => decide (channel < 64)
  | .reducePass1Up channel => decide (channel < 64)
  | .reducePass2Up channel => decide (channel < 64)
  | .reducePass1Down channel => decide (channel < 64)
  | .reducePass2Down channel => decide (channel < 64)
  | .ringRecordWrite => true
  | .arbSampleToken first => decide (first < 64)
  | .arbSampleStart first => decide (first < 64)
  | .arbResult first => decide (first < 64)
  | .streamFrameEnd lane _ _ _ _ _ => decide (lane < 64)
  | .streamDelivery endpoint => decide (endpoint < 16)
  | .trigScoreToken channel => decide (channel < 64)
  | .trigInChange pin _ _ => decide (pin < 4)
  | .trigOutputDecide out => decide (out < 4)
  | .trigOutPulseEnd out => decide (out < 4)
  | .captureFreeze out => decide (out < 4)
  | .macLinkChange mac _ => decide (mac < 64)
  | .macRxVerdict mac _ _ _ => decide (mac < 64)
  | .extractSampleComplete mac _ _ _ => decide (mac < 64)
  | .replyReady mac => decide (mac < 64)
  | .replyStart mac => decide (mac < 64)
  | .replyFcsHandover mac => decide (mac < 64)
  | .txItemReady mac cls => decide (mac < 64) && decide (cls < 8)
  | .txFrameStart mac => decide (mac < 64)
  | .gateListTakesForce mac => decide (mac < 64)
  | .gateEntryAdvance mac => decide (mac < 64)
  | .alignGroupReceive port lane _ _ => decide (port < 40) && decide (lane < 9)
  | .txCountdownEnd port lane => decide (port < 40) && decide (lane < 9)
  | .txDeafTimeout port => decide (port < 40)
  | .fomWindow port lane _ => decide (port < 40) && decide (lane < 9)
  | .laneLost port lane _ => decide (port < 40) && decide (lane < 9)
  | .flitReceive port lane _ _ _ _ => decide (port < 40) && decide (lane < 9)
  | .nakRepeat port => decide (port < 40)
  | .retryTimeout port => decide (port < 40)
  | .portDownFlush port => decide (port < 40)
  | .deepDrainDone port => decide (port < 40)
  | .deepDrainTimeout port => decide (port < 40)
  | .activityWake port => decide (port < 40)
  | .fabricPacket port vc => decide (port < 40) && decide (vc < 8)
  | .secondCarry => true
  | .ppsOutEnd => true
  | .ppsInEdge => true
  | .refLost => true
  | .pllLock => true
  | .governorSample _ _ => true
  | .emergencyStopEnd => true
  | .vcoreWarning _ => true
  | .pauseEnd _ => true
  | .supplyReset rail _ => decide (rail < 9)
  | .supplyResetHoldEnd => true
  | .thermalTrip _ => true
  | .ageingMeasure _ => true
  | .autoReplan => true
  | .avsAck => true
  | .avsRetry => true
  | .graftApply copy => decide (copy.bay < 20)
  | .bayRetire bay => decide (bay < 20)
  | .resetNAssert => true
  | .resetTakesEffect => true
  | .resetNRelease _ _ _ => true
  | .pwrGoodLow => true
  | .bootStep _ => true
  | .bootReady => true
  | .page _ _ => true
  | .clearFaults _ => true
  | .voutMode => true
  | .statusWord => true
  | .readVout => true
  | .readIout => true
  | .readTemperature1 => true
  | .readPout => true
  | .pmbusRevision => true
  | .idcode => true
  | .samplePreload _ _ => true
  | .extest _ => true
  | .bypass _ => true
  | .streamLaneBlockLock lane _ => decide (lane < 64)
  | .snapshotDrain part => decide (part < 8)
  | .testLogicReset => true
  | .pmbusOtherCommand _ _ => true

/-- The other operands are ones that can occur. -/
def Instr.operands : Instr → Bool
  | .nop p => p.wf
  | .identify p => p.wf
  | .getStatus p => p.wf
  | .openSession p => p.wf
  | .closeSession p => p.wf
  | .resetDomain p => p.wf
  | .readCsr p => p.wf
  | .writeCsr p => p.wf
  | .selectProfile p => p.wf
  | .readProfile p => p.wf
  | .writeProfile p => p.wf
  | .loadImage p => p.wf
  | .unloadContext p => p.wf
  | .start p => p.wf
  | .stop p => p.wf
  | .abort p => p.wf
  | .step p => p.wf
  | .drain p => p.wf
  | .memRead p => p.wf
  | .memWrite p => p.wf
  | .memFill p => p.wf
  | .scrub p => p.wf
  | .sqConfig p => p.wf
  | .sqWrite p => p.wf
  | .sqRead p => p.wf
  | .sqMark p => p.wf
  | .sqRewind p => p.wf
  | .sqRelease p => p.wf
  | .sqFlush p => p.wf
  | .sqReset p => p.wf
  | .arbLoad p => p.wf
  | .arbRead p => p.wf
  | .arbVerify p => p.wf
  | .arbTcamLoad p => p.wf
  | .arbEnsemble p => p.wf
  | .arbMode p => p.wf
  | .arbEval p => p.wf
  | .streamConfig p => p.wf
  | .trigArm p => p.wf
  | .trigDisarm p => p.wf
  | .trigRearm p => p.wf
  | .macConfig p => p.wf
  | .macFilter p => p.wf
  | .gateListLoad p => p.wf
  | .extractConfig p => p.wf
  | .templateLoad p => p.wf
  | .replyConfig p => p.wf
  | .countersRead p => p.wf
  | .fportPower p => p.wf
  | .laneControl p => p.wf
  | .fabricConfig p => p.wf
  | .reduceGroup p => p.wf
  | .timeRead p => p.wf
  | .timeSet p => p.wf
  | .timeStep p => p.wf
  | .timeAdjFreq p => p.wf
  | .timeInvalidate p => p.wf
  | .timeSource p => p.wf
  | .ptpPortConfig p => p.wf
  | .ppsConfig p => p.wf
  | .powerStop p => p.wf
  | .marginReplan p => p.wf
  | .healthTest p => p.wf
  | .columnFail p => p.wf
  | .attest p => p.wf
  | .getCert p => p.wf
  | .fwUpdate p => p.wf
  | .fwRecover p => p.wf
  | .safeModelStore p => p.wf
  | .ringStart p => p.wf
  | .ringStop p => p.wf
  | .ringRead p => p.wf
  | .ringSealRead p => p.wf
  | .foldRead p => p.wf
  | .cmdMalformed _ => true
  | .unknownOpcode _ p => p.wf
  | .uartFrame _ => true
  | .terminalReply _ => true
  | .longOperationStep _ _ => true
  | .canopyCommandApply _ => true
  | .faultStatusClear _ => true
  | .poisonSeenClear _ => true
  | .ctrlRejectedClear _ => true
  | .overrunClear _ => true
  | .refusedClear => true
  | .samplerEnable _ _ => true
  | .scrubEnable _ => true
  | .ppsCfgEnable _ => true
  | .laneSlipGo _ _ offset => decide (offset ≤ 256)
  | .laneSlipTestDone _ _ _ => true
  | .nopInstr _ _ => true
  | .switch _ _ => true
  | .wait _ _ => true
  | .waitConditionMet _ _ => true
  | .waitBoundExpiry _ _ => true
  | .loop _ _ => true
  | .foldCut _ _ => true
  | .seqset _ _ => true
  | .vadd _ _ => true
  | .vsub _ _ => true
  | .vmul _ _ => true
  | .vfma _ _ => true
  | .vmin _ _ => true
  | .vmax _ _ => true
  | .vfn _ _ => true
  | .vcvt _ _ => true
  | .iadd _ _ => true
  | .isub _ _ => true
  | .and _ _ => true
  | .or _ _ => true
  | .xor _ _ => true
  | .shl _ _ => true
  | .shr _ _ => true
  | .sar _ _ => true
  | .fcmp _ _ => true
  | .icmp _ _ => true
  | .select _ _ => true
  | .mov _ _ => true
  | .send _ _ => true
  | .ldv _ _ => true
  | .stv _ _ => true
  | .dot _ _ => true
  | .dotBlock _ _ => true
  | .mxcvt _ _ => true
  | .mxexp _ _ => true
  | .lateResult _ _ => true
  | .tokenArrival _ _ _ _ => true
  | .passTokenDepart _ _ _ _ => true
  | .creditReturn _ _ _ => true
  | .vaultService _ _ => true
  | .vaultLoadReturn _ _ => true
  | .refresh _ _ _ _ => true
  | .scrubVisit => true
  | .rowRepairCopy => true
  | .sqCellToRegion _ => true
  | .sqCellToHead _ => true
  | .sqDataToken _ => true
  | .sqControlWord _ => true
  | .sqReadDelivery _ _ => true
  | .samplerSnapshot _ => true
  | .deadlockDetect _ => true
  | .deadlockReinject _ _ _ => true
  | .drainEmpty _ _ => true
  | .drainLimit _ _ => true
  | .stepEnd _ => true
  | .partitionQuiescent _ => true
  | .reduceBlockEntry _ => true
  | .reducePass1Up _ => true
  | .reducePass2Up _ => true
  | .reducePass1Down _ => true
  | .reducePass2Down _ => true
  | .ringRecordWrite => true
  | .arbSampleToken _ => true
  | .arbSampleStart _ => true
  | .arbResult _ => true
  | .streamFrameEnd _ _ _ _ _ _ => true
  | .streamDelivery _ => true
  | .trigScoreToken _ => true
  | .trigInChange _ _ _ => true
  | .trigOutputDecide _ => true
  | .trigOutPulseEnd _ => true
  | .captureFreeze _ => true
  | .macLinkChange _ _ => true
  | .macRxVerdict _ _ _ _ => true
  | .extractSampleComplete _ _ _ _ => true
  | .replyReady _ => true
  | .replyStart _ => true
  | .replyFcsHandover _ => true
  | .txItemReady _ _ => true
  | .txFrameStart _ => true
  | .gateListTakesForce _ => true
  | .gateEntryAdvance _ => true
  | .alignGroupReceive _ _ _ _ => true
  | .txCountdownEnd _ _ => true
  | .txDeafTimeout _ => true
  | .fomWindow _ _ _ => true
  | .laneLost _ _ _ => true
  | .flitReceive _ _ slot _ _ _ => decide (slot < 159)
  | .nakRepeat _ => true
  | .retryTimeout _ => true
  | .portDownFlush _ => true
  | .deepDrainDone _ => true
  | .deepDrainTimeout _ => true
  | .activityWake _ => true
  | .fabricPacket _ _ => true
  | .secondCarry => true
  | .ppsOutEnd => true
  | .ppsInEdge => true
  | .refLost => true
  | .pllLock => true
  | .governorSample _ _ => true
  | .emergencyStopEnd => true
  | .vcoreWarning _ => true
  | .pauseEnd _ => true
  | .supplyReset _ _ => true
  | .supplyResetHoldEnd => true
  | .thermalTrip _ => true
  | .ageingMeasure _ => true
  | .autoReplan => true
  | .avsAck => true
  | .avsRetry => true
  | .graftApply _ => true
  | .bayRetire _ => true
  | .resetNAssert => true
  | .resetTakesEffect => true
  | .resetNRelease _ _ _ => true
  | .pwrGoodLow => true
  | .bootStep _ => true
  | .bootReady => true
  | .page _ _ => true
  | .clearFaults _ => true
  | .voutMode => true
  | .statusWord => true
  | .readVout => true
  | .readIout => true
  | .readTemperature1 => true
  | .readPout => true
  | .pmbusRevision => true
  | .idcode => true
  | .samplePreload _ _ => true
  | .extest _ => true
  | .bypass _ => true
  | .streamLaneBlockLock _ _ => true
  | .snapshotDrain _ => true
  | .testLogicReset => true
  | .pmbusOtherCommand _ _ => true

/-- A command is well formed. -/
def Instr.wf (dies : Nat) (i : Instr) : Bool := i.units dies && i.operands

end Sys2Proof
end

