-- ==== Sys2Proof/Certificates/Slice0/Obligations.lean ====
section
/-! DEFINITION. Statements for the provers, from the spec's rules. -/

open Sys2Proof Sys2Proof.Machine Sys2Proof.Safety

/-! ### The block and its queue -/

/-- A step takes the command at the front of the queue and runs it on the state with the rest of the queue. -/
def Obligations.StepRunsFrontCommand : Prop :=
  ∀ (i : Instr) (rest : List Instr) (s : State),
    step { s with pending := i :: rest } = exec i { s with pending := rest }

/-- With no command waiting, one ACLK cycle passes out of reset, and CCLK advances by the cycles that end in it; in reset nothing
moves. The idle step is the model's own way to let time pass (log entry 1).
That nothing moves in reset is read from the spec (log entry 10). -/
def Obligations.EmptyQueuePassesOneCycle : Prop :=
  ∀ s : State, s.pending = [] →
    (inReset s = true → step s = .next s) ∧
    (inReset s = false → ∃ t, step s = .next t ∧ t.pending = [] ∧ t.part = s.part ∧ t.clk.aclk = s.clk.aclk + 1
      ∧ t.clk.cclk = s.clk.cclk + (s.clk.cphase + 16) / max 1 s.clk.units
      ∧ t.vaults.mem = s.vaults.mem ∧ t.flash = s.flash)

/-- Every command whose operands name units of the part answers a next state, whatever the state; one whose operands do not
stops as noSuchUnit. Nothing is ever refused.
The stop is the model's (log entry 38). -/
def Obligations.CommandsStopOnlyForAbsentUnits : Prop :=
  ∀ (i : Instr) (s : State),
    (i.units (dies s) = true → ∃ t, exec i s = .next t) ∧ (i.units (dies s) = false → exec i s = .fault .noSuchUnit)

/-- The invariant that every step keeps holds after reset.
Memory that reads 0 where nothing is listed is the model's reset value (log entry 5). -/
def Obligations.InvariantHoldsAtReset : Prop := Inv State.reset

/-- From every state that meets the invariant, a step that answers a next state answers one that meets it: vault memory keeps its
canonical form, serial numbers of commands in flight stay below the next one, no session holds more than 256 events, and the
change log of the timebase, the ring records and the seals stay within 8, 4,096 and 64 entries. -/
def Obligations.EveryStepKeepsInvariant : Prop :=
  ∀ s t : State, Inv s → step s = .next t → Inv t

/-- A step runs at most the command at the front: it leaves the other waiting commands, and which part it is, as they are. -/
def Obligations.StepConsumesOneCommand : Prop :=
  ∀ s t : State, step s = .next t → t.pending = s.pending.drop 1 ∧ t.part = s.part

/-! ### Arrival (R335, R337) -/

/-- The cases of R335 in order, for a command whose opcode is listed and whose device is out of reset: a payload whose length differs
is discarded and counted; a bad header, stray parameter bits, a session not open or not on this link, a tag in flight, and no free
command each get their status, and change nothing but the sender's session. A session that has released what it owned in closing takes
no more commands (log entry 13). -/
def Obligations.ArrivalTestsInOrder : Prop :=
  ∀ (p : Packet) (s : State), deaf p s = false →
    let i := p.session.toNat
    let u := noteCommand p s
    let refused (op : Op) (st : Nat) : Prop :=
      arrive op p s = updSession i (fun x => { x with outbox := x.outbox ++ [.plain (routeOfPacket p) (replyBytes op.code p { status := st })] }) u
    ∀ op : Op,
      (p.payload.length ≠ p.payloadLength.toNat → arrive op p s = { s with host := { s.host with malformed := satAdd s.host.malformed 1 } }) ∧
      (p.payload.length = p.payloadLength.toNat →
        (badHeader p = true → refused op 0x0011) ∧
        (badHeader p = false →
          (p.strays op = true → refused op 0x0011) ∧
          (p.strays op = false → s.boot.stage ≠ .recovery → op ≠ .openSession →
            (takesCommands s i = false → op ≠ .identify → op ≠ .nop → refused op 0x0012) ∧
            (takesCommands s i = true → openHere s p = false → refused op 0x0012) ∧
            (takesCommands s i = true → openHere s p = true →
              ((∃ g ∈ s.host.flights, g.sess = i ∧ g.pkt.tag = p.tag) → refused op 0x0013) ∧
              ((∀ g ∈ s.host.flights, g.sess = i → g.pkt.tag ≠ p.tag) → tagFree s i = false → refused op 0x0014)))))

/-- CMD_MALFORMED counts a short body and changes nothing else; UNKNOWN_OPCODE of an opcode that is not listed is refused BAD_OPCODE
after the length and header tests; a UART_FRAME in recovery whose CRC is right delivers its body as a command of the UART's link.
The link of the UART is the model's reading (log entry 15). -/
def Obligations.MalformedAndUnknownCommands : Prop :=
  (∀ (body : List Byte) (s : State), inReset s = false → bodyShort body = true →
    exec (.cmdMalformed body) s = .next { s with host := { s.host with malformed := satAdd s.host.malformed 1 } }) ∧
  (∀ (c : BitVec 16) (p : Packet) (s : State), opOf c.toNat = none → deaf p s = false → p.payload.length = p.payloadLength.toNat →
    exec (.unknownOpcode c p) s = .next (updSession p.session.toNat (fun x => { x with outbox := x.outbox ++
      [.plain (routeOfPacket p) (replyBytes c.toNat p { status := if badHeader p then 0x0011 else 0x0010 })] }) (noteCommand p s))) ∧
  (∀ (n : Nat) (body : List Byte) (s : State), s.boot.stage = .recovery → inReset s = false → body.length = n → n < 2 ^ 16 → 64 ≤ n →
    let frame := leBytes 1 0x7E ++ leBytes 2 n ++ body ++ leBytes 4 (crc32 (leBytes 2 n ++ body)).toNat
    exec (.uartFrame frame) s
      = .next (arriveCode (leAt body 0 2) { parseCommand body with src := 0xFFFF, origin := 0xFF, inPort := 255 } s))

/-! ### Commands that report -/

/-- Commands that only report are answered at once with their data, and change nothing but the command engine. The RESULT of GET_STATUS is
laid out as R353 says, its bytes 31:13 zero. -/
def Obligations.ReportingCommandsAnswer : Prop :=
  ∀ (p : Packet) (s : State),
    (servedAtOnce .nop p s = true → exec (.nop p) s = answers .nop p {} s) ∧
    (servedAtOnce .identify p s = true → exec (.identify p) s = answers .identify p { payload := identity s } s) ∧
    (servedAtOnce .getStatus p s = true → exec (.getStatus p) s = answers .getStatus p { result := (
      leBytes 1 (profileNo s) ++ leBytes 1 (sessionMask s) ++ leBytes 2 (s.host.flights.length + 1)
        ++ leBytes 2 (inFlight s p.session.toNat + 1) ++ leBytes 4 (getSession s p.session.toNat).eventsLost.toNat
        ++ leBytes 1 s.boot.stage.code ++ leBytes 1 (runningMask s) ++ leBytes 1 (faultedMask s)) } s) ∧
    (∀ (c : Nat) (r : List Byte), r.length = 13 → slice (replyBytes c p { result := r }) 32 32 = r ++ List.replicate 19 0) ∧
    (servedAtOnce .readProfile p s = true → exec (.readProfile p) s = answers .readProfile p
      (if 3 < p.at_ 0 1 then { status := 0x0011 }
       else { result := leBytes 8 (getSlot s (p.at_ 0 1)).writes, payload := (getSlot s (p.at_ 0 1)).bytes.getD (List.replicate 1024 0xFF) }) s) ∧
    (servedAtOnce .getCert p s = true → exec (.getCert p) s = answers .getCert p { payload := certificate s } s) ∧
    (servedAtOnce .arbRead p s = true → free (getEngine s (p.at_ 0 1)).owner p = true → exec (.arbRead p) s = answers .arbRead p
      (if 64 ≤ p.at_ 0 1 ∨ p.at_ 5 2 = 0 ∨ 512 < p.at_ 5 2 ∨ 196608 < p.at_ 1 4 + p.at_ 5 2 then { status := 0x0011 }
       else { payload := (List.range (p.at_ 5 2)).flatMap
                (fun k => w64Bytes (Table.get {} (getEngine s (p.at_ 0 1)).nodes (p.at_ 1 4 + k)).data) }) s) ∧
    (servedAtOnce .countersRead p s = true → free (macOwner s (p.at_ 0 1)) p = true → exec (.countersRead p) s = answers .countersRead p
      (if macPresent s (p.at_ 0 1) = false then { status := 0x0011 }
       else { payload := (List.range 29).flatMap (fun k => leBytes 4 (Table.get 0 (getMac s (p.at_ 0 1)).counters k).toNat) }) s)

/-- A READ_CSR of 1 to 1,024 mapped words answers their values, in order, and clears what reading clears: a count that its read clears
answers what it held when the CCLK cycle began, and keeps the events of the cycle (R20). A WRITE_CSR of such words writes each in turn and
answers OK, and is refused where another session owns one of them. A run that is not aligned, empty, too long or not mapped throughout is
refused and reads and writes nothing. A write to a read-only register changes nothing. The value at a cycle's start is log entry 42. -/
def Obligations.RegisterAccess : Prop :=
  ∀ (p : Packet) (s : State), let a := p.at_ 0 4
    let words (n : Nat) : List Nat := (List.range n).map (fun i => a + 4 * i)
    (servedAtOnce .readCsr p s = true → let n := p.at_ 4 2
      let u := inService .readCsr p s
      (a % 4 = 0 → 1 ≤ n → n ≤ 1024 → (∀ w ∈ words n, (csrAt u w).isSome = true) → exec (.readCsr p) s =
        .next (complete s.host.nextId { payload := (readCsrWords (words n) u).1 } (readCsrWords (words n) u).2)) ∧
      (a % 4 ≠ 0 ∨ n = 0 ∨ 1024 < n ∨ (∃ w ∈ words (min 1024 n), csrAt u w = none) → exec (.readCsr p) s = answers .readCsr p { status := 0x0011 } s) ∧
      (n = 1 → a = 0x00B00004 → exec (.readCsr p) s = answers .readCsr p { payload := leBytes 4 s.boot.fwVersion.toNat } s) ∧
      (n = 1 → a = 0x00C00100 →
        let old := min (Table.get 0 s.host.cycleStart a).toNat s.ring.mismatch.toNat
        exec (.readCsr p) s = .next { s with
          host := { answeredHost .readCsr p { payload := leBytes 4 old } s with cycleStart := Table.set 0 s.host.cycleStart a 0 }
          ring := { s.ring with mismatch := BitVec.ofNat 32 (s.ring.mismatch.toNat - old) } })) ∧
    (servedAtOnce .writeCsr p s = true → let n := p.payload.length / 4
      let u := inService .writeCsr p s
      let writes (t : State) (w : Nat × W32) : State := match csrAt t w.1 with
        | some c => c.onWrite w.2 t
        | none => t
      (a % 4 = 0 → p.payload.length % 4 = 0 → 1 ≤ n → n ≤ 1024 → (∀ w ∈ words n, (csrAt u w).isSome = true) →
        (∀ w ∈ words n, ∀ c, csrAt u w = some c → ∀ r ∈ c.res, free (resOwner u r) p = true) →
        exec (.writeCsr p) s = .next (complete s.host.nextId {} (((words n).zip (bytesW32 p.payload)).foldl writes u))) ∧
      (a % 4 ≠ 0 ∨ p.payload.length % 4 ≠ 0 ∨ n = 0 ∨ 1024 < n ∨ (∃ w ∈ words (min 1024 n), csrAt u w = none) →
        exec (.writeCsr p) s = answers .writeCsr p { status := 0x0011 } s) ∧
      (a % 4 = 0 → p.payload.length % 4 = 0 → 1 ≤ n → n ≤ 1024 → (∀ w ∈ words n, (csrAt u w).isSome = true) →
        (∃ w ∈ words n, ∃ c, csrAt u w = some c ∧ ∃ r ∈ c.res, free (resOwner u r) p = false) →
        exec (.writeCsr p) s = answers .writeCsr p { status := 0x0012 } s) ∧
      (p.payload.length = 4 → a = 0x00B00004 → exec (.writeCsr p) s = answers .writeCsr p {} s) ∧
      (p.payload.length = 4 → a = 0x00C00000 → ringForeign s p.session.toNat = false → exec (.writeCsr p) s = .next { s with
        host := answeredHost .writeCsr p {} s
        ring := { s.ring with captureReg := BitVec.ofNat 16 (leNat p.payload / 2 ^ 16) } }))

/-! ### Sessions (R337, R340, R341) -/

/-- An OPEN_SESSION of a session that is not open, whose RESERVE fits, opens it bound to the command's link and answers the profile in
force; one whose RESERVE does not fit is refused. -/
def Obligations.OpenSessionOpens : Prop :=
  ∀ (p : Packet) (s : State), servedAtOnce .openSession p s = true →
    let i := p.session.toNat
    let others := (((List.range 8).filter (fun j => j != i)).map (reserveOf s)).sum
    (4096 < p.at_ 0 2 + others → exec (.openSession p) s = answers .openSession p { status := 0x0011 } s) ∧
    (p.at_ 0 2 + others ≤ 4096 → (getSession s i).isOpen = false →
      ∃ t, exec (.openSession p) s = .next t ∧ t = { s with host := t.host } ∧
        Answered .openSession p { result := [BitVec.ofNat 8 (profileNo s)] } s t ∧
        (∀ j, j ≠ i → getSession t j = getSession s j) ∧
        getSession t i =
          { isOpen := true, src := p.src, origin := p.origin, reserve := p.at_ 0 2, idleLimit := p.at_ 2 2, lastCommand := s.clk.tticks
            route := routeOfPacket p
            outbox := (getSession s i).outbox.filter (fun x => !x.isEvent) ++ [.terminal s.host.nextId] })

/-- A CLOSE_SESSION of a session with no other command in flight releases the queues, engines, channels and timebase that it owns,
discards its events and answers OK.
When the operations of a session end is log entry 13. -/
def Obligations.CloseSessionReleases : Prop :=
  ∀ (p : Packet) (s : State), servedAtOnce .closeSession p s = true → (∀ g ∈ s.host.flights, g.sess ≠ p.session.toNat) →
    Table.wf {} s.queues = true → Table.wf {} s.arbor.engines = true → Table.wf {} s.fabric.channels = true →
    let i := p.session.toNat
    let released (o : Option Nat) : Option Nat := if o = some i then none else o
    ∃ t, exec (.closeSession p) s = .next t ∧ Answered .closeSession p {} s t ∧
      (∀ q, getQueue t q = { getQueue s q with owner := released (getQueue s q).owner }) ∧
      (∀ e, getEngine t e = { getEngine s e with owner := released (getEngine s e).owner }) ∧
      (∀ k, getChan t k = { getChan s k with owner := released (getChan s k).owner }) ∧
      t.time = { s.time with owner := released s.time.owner } ∧
      ((getSession t i).outbox.filter OutItem.isEvent = []) ∧ (∀ j, j ≠ i → getSession t j = getSession s j) ∧
      t = { s with host := t.host, queues := t.queues, time := t.time
                   arbor := { s.arbor with engines := t.arbor.engines }, fabric := { s.fabric with channels := t.fabric.channels } }

/-- A TERMINAL_REPLY at least one CCLK cycle after its completion, first of its session's output, sends the reply and frees the tag; that
of a CLOSE_SESSION that was OK closes the session, and that of an FW_RECOVER that stored a valid image lets boot restart. Over the management
UART a reply goes out in a frame, and only in recovery. Before that cycle it does nothing.
That an early row does nothing is the model's choice (log entry 8); that boot restarts once the reply has left is log entry 10. -/
def Obligations.TerminalReplyFreesTag : Prop :=
  ∀ (s : State) (f : Flight) (at_ : Nat) (r : Reply) (rest : List OutItem), s.host.flights = [f] → f.phase = .done at_ r →
    (getSession s f.sess).outbox = .terminal f.id :: rest →
    (s.clk.cclk ≤ at_ → exec (.terminalReply f.id) s = .next s) ∧
    (at_ < s.clk.cclk → ∃ t more, exec (.terminalReply f.id) s = .next t ∧ t.host.flights = [] ∧
      (getSession t f.sess).outbox = rest ++ more ∧ more.all OutItem.isEvent = true ∧
      (let b := replyBytes f.op.code f.pkt r
       t.host.sent = s.host.sent ++
         (if f.pkt.inPort = 255 then
           (if s.boot.stage = .recovery then
             (let n := leBytes 2 b.length
              [{ route := routeOfPacket f.pkt, body := [0x7E] ++ n ++ b ++ leBytes 4 (crc32 (n ++ b)).toNat }])
            else [])
          else [{ route := routeOfPacket f.pkt, body := b }])) ∧
      (getSession t f.sess).isOpen = ((getSession s f.sess).isOpen && !(f.op == .closeSession && r.status == 0)) ∧
      t.boot = (if s.boot.restart = true ∧ f.op = .fwRecover ∧ f.pkt.bits 4 0 1 = 1 ∧ r.status = 0 then
        { s.boot with stage := .rom, cause := 0, restart := false } else s.boot) ∧
      t = { s with host := t.host, fabric := t.fabric, boot := t.boot })

/-! ### Long operations begin, and take their steps (R345, R349) -/

/-- Commands that become stepped operations are in flight and active once their tests are passed, with the length of the operation where
its steps advance in units, and change nothing else; their replies come from their steps.
Their steps are those of log entry 11. -/
def Obligations.SteppedCommandsBegin : Prop :=
  ∀ (p : Packet) (s : State),
    (servedAtOnce .loadImage p s = true → exec (.loadImage p) s = begins .loadImage p (fun g => { g with total := p.at_ 6 4 }) s) ∧
    (servedAtOnce .attest p s = true → exec (.attest p) s = begins .attest p id s) ∧
    (servedAtOnce .marginReplan p s = true → exec (.marginReplan p) s = begins .marginReplan p id s) ∧
    (servedAtOnce .selectProfile p s = true → selectRefused (taken .selectProfile p s) (inService .selectProfile p s) = none →
      exec (.selectProfile p) s = begins .selectProfile p id s) ∧
    (servedAtOnce .writeProfile p s = true → writeRefused (taken .writeProfile p s) s = none →
      exec (.writeProfile p) s = begins .writeProfile p id s) ∧
    (servedAtOnce .safeModelStore p s = true → p.at_ 0 1 < 64 → p.at_ 1 1 ≤ 1 → free (getEngine s (p.at_ 0 1)).owner p = true →
      (p.at_ 1 1 = 0 → (getEngine s (p.at_ 0 1)).safeLoaded = true) → exec (.safeModelStore p) s = begins .safeModelStore p id s) ∧
    (servedAtOnce .fwUpdate p s = true → fwRefused (taken .fwUpdate p s) s = none →
      exec (.fwUpdate p) s = begins .fwUpdate p (fun g => { g with total := p.at_ 5 4 }) s) ∧
    (servedAtOnce .memRead p s = true → memRefused (taken .memRead p s) s = none →
      exec (.memRead p) s = begins .memRead p (fun g => { g with total := p.at_ 8 8 }) s) ∧
    (servedAtOnce .memWrite p s = true → memRefused (taken .memWrite p s) s = none →
      exec (.memWrite p) s = begins .memWrite p (fun g => { g with total := p.payload.length }) s) ∧
    (servedAtOnce .memFill p s = true → memRefused (taken .memFill p s) s = none →
      exec (.memFill p) s = begins .memFill p (fun g => { g with total := p.at_ 8 8 }) s) ∧
    (servedAtOnce .scrub p s = true → memRefused (taken .scrub p s) s = none →
      exec (.scrub p) s = begins .scrub p (fun g => { g with total := p.at_ 8 8 }) s) ∧
    (servedAtOnce .healthTest p s = true →
      let bays := (List.range 20).filter (fun b => p.params.getLsbD b)
      bays ≠ [] → bays.all (fun b => !(graftOf s b).retired) = true →
      (bays.flatMap (physBayParts s)).all (fun q => free (getPart s q).owner p && (List.range 4).all (fun c => ((getPart s q).ctx c).state == .empty)) = true →
      exec (.healthTest p) s = begins .healthTest p (fun g => { g with total := bays.length }) s)

/-- A memory operation in progress, the only one in flight, goes on by one word: a step that begins settles its number of words, which is
free, and the next word is accessed where its bank can be served in this cycle, and else waits there. A MEM_WRITE and a MEM_FILL write the
word, a SCRUB scrubs it; the step ends with its last word, and the operation completes OK with its whole length after the last of its range.
The size of a step is free (log entry 11); when a bank can be served is log entry 26. -/
def Obligations.MemoryStepAdvances : Prop :=
  ∀ (s : State) (f : Flight) (found : List Nat), s.host.flights = [f] → f.phase = .active → f.aborting = false → f.pkt.flags = 0 →
    f.progress < f.total → f.progress % 32 = 0 → f.total % 32 = 0 → f.bytes = [] →
    (f.op = .memWrite ∨ f.op = .memFill ∨ f.op = .scrub) →
    let a := (p40 f.pkt + f.progress) / 32
    let pv := physVault s (devVault a)
    let b := bankOf (devWord a)
    ∃ n t, 1 ≤ n ∧ (f.stepLeft ≠ 0 → n = f.stepLeft) ∧ (f.stepLeft = 0 → 32 * n ≤ f.total - f.progress) ∧
      exec (.longOperationStep f.id found) s = .next t ∧
      (let u : State := { s with host := { s.host with flights := [{ f with stepLeft := n }] }
                                 fresh := if f.stepLeft = 0 then s.fresh + 1 else s.fresh }
       let last : Bool := decide (f.total ≤ f.progress + 32)
       t.fresh = u.fresh ∧
        (auxOpen .host pv b u = false → t.vaults = (noteWait .host pv b u).vaults ∧ t.host = u.host) ∧
        (auxOpen .host pv b u = true → (let v := served .host pv b u
          (f.op = .memWrite → t.vaults = (writeWord (devVault a) (devWord a) (slice f.pkt.payload f.progress 32) false v).vaults) ∧
          (f.op = .memFill → t.vaults = (writeWord (devVault a) (devWord a) (f.pkt.bytes 16 32) false v).vaults) ∧
          (f.op = .scrub → t.vaults = (scrubWord (devVault a) (devWord a) v).vaults) ∧
          (let ended := n = 1 ∨ last = true
           (ended → t.host.steps = s.host.steps + 1) ∧ (¬ended → t.host.steps = s.host.steps) ∧
           t.host.flights = [if last then { f with phase := .done s.clk.cclk { progress := f.total }, stepLeft := n, lastStep := s.host.steps + 1 }
             else if n = 1 then { f with progress := f.progress + 32, stepLeft := 0, lastStep := s.host.steps + 1 }
             else { f with progress := f.progress + 32, stepLeft := n - 1 }])))) ∧
      t = { s with host := t.host, vaults := t.vaults, fresh := t.fresh }

/-- The step that ends a long operation, the only one in flight, which no ABORT has reached: a LOAD_IMAGE that has read its image installs it; a
WRITE_PROFILE that is still allowed writes the named slot and counts the write; a SELECT_PROFILE ends once VCORE has moved; a SAFE_MODEL_STORE
stores or erases the engine's safe model; an ATTEST answers its report and a signature; an FW_UPDATE that programs the last byte and reads
it back well raises the floor; a HEALTH_TEST that finds its last bay sound, with no move of VCORE, ends the test; a MARGIN_REPLAN with no step
left ends; an ARB_VERIFY whose walk finds every node well formed leaves the engine verified; a RESET_DOMAIN reports its domain ready. Each
completes OK. A step of a DRAIN counts its tokens.
Steps are those of log entry 11; the nonce of the signature is free (log entry 3). -/
def Obligations.StoringStepsComplete : Prop :=
  ∀ (s : State) (f : Flight), s.host.flights = [f] → f.phase = .active → f.aborting = false →
    let run := exec (.longOperationStep f.id []) s
    let u : State := { s with fresh := s.fresh + 1 }
    let done (r : Reply) : Flight := { f with phase := .done s.clk.cclk r, lastStep := s.host.steps + 1 }
    (f.op = .loadImage → f.stage ≠ 0 → f.pkt.at_ 6 4 ≤ f.progress →
      ∃ t, run = .next t ∧ t.host.flights = [done { progress := f.pkt.at_ 6 4 }] ∧
        ((getPart t f.part).ctx (f.acc.getD 0 0)).state = .loaded ∧ ((getPart t f.part).ctx (f.acc.getD 0 0)).image = imageOf f.bytes ∧
        t = { installImage f.bytes f.part (f.acc.getD 0 0) s with host := t.host }) ∧
    (f.op = .writeProfile → writeRefused f s = none →
      ∃ t, run = .next t ∧ t.host.flights = [done {}] ∧
        getSlot t (f.pkt.at_ 0 1) = { bytes := some (f.pkt.payload.take 1024), writes := (getSlot s (f.pkt.at_ 0 1)).writes + 1 } ∧
        (∀ n, n ≠ f.pkt.at_ 0 1 → getSlot t n = getSlot s n) ∧
        t = { s with host := t.host, boot := { s.boot with validSlots := t.boot.validSlots, lockedSlots := t.boot.lockedSlots }
                     flash := { s.flash with slots := t.flash.slots } }) ∧
    (f.op = .selectProfile → f.stage ≠ 0 → s.power.avs = none → s.power.setpoint = s.power.goal →
      ∃ t, run = .next t ∧ t.host.flights = [done {}] ∧ t = { s with host := t.host }) ∧
    (f.op = .safeModelStore → safeRefused f s = none →
      ∃ t, run = .next t ∧ t.host.flights = [done {}] ∧
        Table.get none t.flash.safe (f.pkt.at_ 0 1) =
          (if f.pkt.at_ 1 1 = 0 then
            let x := getEngine s (f.pkt.at_ 0 1)
            some { preds := x.preds, entries := x.entries, predicates := x.predicates, trees := x.trees }
          else none) ∧
        t = { s with host := t.host, flash := { s.flash with safe := t.flash.safe } }) ∧
    (f.op = .attest →
      ∃ t sig, run = .next t ∧ sig.length = 96 ∧ t.host.flights = [done { payload := attestBody (f.pkt.bytes 0 32) s ++ sig }] ∧
        t = { s with host := t.host, fresh := s.fresh + 1 }) ∧
    (f.op = .fwUpdate → f.stage ≠ 0 → f.bytes.length = f.total → f.progress + 1 = f.total → let floor := max s.flash.floor (fwSecVersion f.bytes)
      ∃ t, run = .next t ∧ t.host.flights = [done { progress := f.total }] ∧
        t = { u with host := t.host, flash := { s.flash with firmware := f.bytes, floor := floor }, boot := { s.boot with floor := floor } }) ∧
    (f.op = .healthTest → f.stage ≠ 0 → s.power.avs = none → s.power.setpoint = s.power.goal → f.progress + 1 = f.total →
      ∃ t, run = .next t ∧ t.host.flights = [done { progress := f.total }] ∧ t = { testOver s with host := t.host }) ∧
    (∀ r, f.op = .marginReplan → f.stage ≠ 0 → s.power.avs = none → s.power.setpoint = s.power.goal → s.power.replan = some r → r.left = 0 →
      ∃ t g, run = .next t ∧ t.host.flights = [g] ∧
        g.phase = .done s.clk.cclk { progress := r.steps, result := leBytes 2 s.power.setpoint } ∧
        t = { s with host := t.host, power := { s.power with replan := none } }) ∧
    (∀ first n, f.op = .arbVerify → f.progress + 1 = f.total → ensembleOf s (f.pkt.at_ 0 1) = some first →
      verdictOf s (f.pkt.at_ 0 1) first = .verified n →
      ∃ t, run = .next t ∧ t.host.flights = [done { progress := n }] ∧
        t = { updEngine (f.pkt.at_ 0 1) (fun x => { x with verified := true }) u with host := t.host }) ∧
    (f.op = .drain → ∃ t, run = .next t ∧
      t.host.flights = [{ f with progress := tokenCount s f.part (f.pkt.at_ 1 1), lastStep := s.host.steps + 1 }] ∧ t = { s with host := t.host }) ∧
    (f.op = .resetDomain →
      ∃ t, run = .next t ∧ t.host.flights = [done {}] ∧
        t = { s with host := t.host, vaults := if f.pkt.at_ 0 1 = 3 then { s.vaults with retraining := false, refreshBase := s.clk.aclk } else s.vaults })

/-! ### Partitions and contexts (R65, R67, R163, R348, R357 to R359) -/

/-- START, STEP, STOP, DRAIN and an ABORT of a partition whose tests are passed begin, and wait for the handshake with the canopy: a START
and a STEP turn their partition's fill on, the others change nothing but the command engine. A DRAIN of a context that is drained, or loaded
without tokens, is answered at once and leaves it DRAINED. What R357, R359 and R65 do not admit is refused, and so is a partition that is
not defined or that another session owns. -/
def Obligations.CanopyCommandsBegin : Prop :=
  ∀ (p : Packet) (s : State), let q := p.at_ 0 1
    let c := p.at_ 1 1
    let k := (getPart s q).ctx c
    let mine : Prop := partDefined s q = true ∧ free (getPart s q).owner p = true
    let filled (u : HostState) : State := { s with host := u, power := { s.power with fillOn := s.power.fillOn ||| (1#8 <<< q) } }
    let startable : Bool :=
      let cs := (List.range 4).filter (fun c => p.bits 1 c 1 == 1)
      cs.contains (p.bits 1 4 2)
        && cs.all (fun c => ((getPart s q).ctx c).state == .loaded || ((getPart s q).ctx c).state == .drained)
        && !(List.range 4).any (fun c => ((getPart s q).ctx c).state == .faulted)
    let refusedAs (st : Nat) : Prop :=
      (servedAtOnce .start p s = true → exec (.start p) s = answers .start p { status := st } s) ∧
      (servedAtOnce .step p s = true → exec (.step p) s = answers .step p { status := st } s) ∧
      (servedAtOnce .stop p s = true → exec (.stop p) s = answers .stop p { status := st } s) ∧
      (servedAtOnce .drain p s = true → exec (.drain p) s = answers .drain p { status := st } s)
    (partDefined s q = false → refusedAs 0x0011) ∧
    (partDefined s q = true → free (getPart s q).owner p = false → refusedAs 0x0012) ∧
    (servedAtOnce .abort p s = true → p.at_ 0 1 = 1 → partDefined s (p.at_ 3 1) = true → free (getPart s (p.at_ 3 1)).owner p = true →
      exec (.abort p) s = begins .abort p id s) ∧
    (mine →
    (servedAtOnce .start p s = true → exec (.start p) s =
      if startable then .next (filled (begunHost .start p id s)) else answers .start p { status := 0x0011 } s) ∧
    (servedAtOnce .step p s = true → exec (.step p) s =
      if startable && !(getPart s q).busy && p.at_ 2 4 != 0 then .next (filled (begunHost .step p (fun g => { g with total := p.at_ 2 4 }) s))
      else answers .step p { status := 0x0011 } s) ∧
    (servedAtOnce .stop p s = true → exec (.stop p) s = if (getPart s q).busy then begins .stop p id s else answers .stop p {} s) ∧
    (servedAtOnce .drain p s = true →
      (3 < c ∨ p.at_ 2 4 = 0 ∨ k.state = .empty ∨ k.state = .loading ∨ k.state = .faulted →
        exec (.drain p) s = answers .drain p { status := 0x0011 } s) ∧
      (c < 4 → p.at_ 2 4 ≠ 0 → (k.state.issues = true ∨ (k.state = .loaded ∧ tokensPresent s q c = true)) →
        exec (.drain p) s = begins .drain p id s) ∧
      (c < 4 → p.at_ 2 4 ≠ 0 → (k.state = .drained ∨ (k.state = .loaded ∧ tokensPresent s q c = false)) →
        let u := updPart q (fun x => x.updCtx c (fun k => { k with state := .drained, inputsStopped := true })) s
        exec (.drain p) s = .next { u with host := answeredHost .drain p {} s })))

/-- CANOPY_COMMAND_APPLY of a START or STEP whose partition's fill is at its level and which is not stopping, outside a pause and an emergency
stop: the named contexts
run from index 0, a STEP's to its last cycle, and on an idle partition the cycle count begins, the seed registers are latched and the edge
ports open. A START is answered, a STEP goes on. That the apply waits for the fill is log entry 24. -/
def Obligations.StartApplies : Prop :=
  ∀ (s : State) (f : Flight), findFlight s f.id = some f → f.phase = .active → f.stage = 0 → f.aborting = false → f.op = .start ∨ f.op = .step →
    s.canopy.paused = false → s.power.estop = none → fillTarget s f.part ≤ Table.get 0 s.power.fill f.part →
    (getPart s f.part).stopped = none →
    let last : Option Nat := if f.op = .step then some (s.canopy.now + f.total - 1) else none
    ∃ t, exec (.canopyCommandApply f.id) s = .next t ∧
      (∀ c, f.contexts.contains c = true → (((getPart s f.part).ctx c).state = .loaded ∨ ((getPart s f.part).ctx c).state = .drained) →
        ((getPart t f.part).ctx c).state = .running ∧ ((getPart t f.part).ctx c).inputsStopped = false ∧
        ((getPart t f.part).ctx c).lastIssue = last ∧
        (∀ col row, col < 640 → row < 512 → (getPart s f.part).hasCol col = true → Table.wf {} s.canopy.tiles = true →
          ((getTile t col row).ctx c).pc = 0 ∧ ((getTile t col row).ctx c).waiting = none)) ∧
      (∀ c, f.contexts.contains c = false → ((getPart t f.part).ctx c) = ((getPart s f.part).ctx c)) ∧
      ((getPart s f.part).busy = false →
        (getPart t f.part).start = s.canopy.now ∧ (getPart t f.part).portsClosed = false ∧ (getPart t f.part).stepEnd = last ∧
        (getPart t f.part).seedInForce = BitVec.ofNat 64 ((getPart s f.part).seedHi.toNat * 2 ^ 32 + (getPart s f.part).seedLo.toNat)) ∧
      (∀ q, q ≠ f.part → getPart t q = getPart s q) ∧
      (f.op = .start → findFlight t f.id = some { f with phase := .done s.clk.cclk {} }) ∧
      (f.op = .step → findFlight t f.id = some { f with stage := 1, acc := [s.canopy.now] }) ∧
      t = { s with host := t.host, canopy := { s.canopy with parts := t.canopy.parts, tiles := t.canopy.tiles } }

/-- CANOPY_COMMAND_APPLY of a STOP stops every context that issues, in that cycle, and closes the partition's edge ports; of a DRAIN it
makes the context DRAINING with its inputs stopped and its limit set; of an ABORT of a partition it stops the partition, discards every token
of its contexts and ends every other operation that names it, at once or at the end of its step; of an ABORT of a STEP that runs it stops the
partition, and the STEP ends with it. Nothing applies while the canopy is paused, nor a START, STEP or DRAIN while the partition is stopping.
The last sentence is log entry 24. -/
def Obligations.StopAndDrainApply : Prop :=
  ∀ (s : State) (f : Flight), findFlight s f.id = some f → f.phase = .active → f.stage = 0 →
    (s.canopy.paused = true ∨ ((f.op = .start ∨ f.op = .step ∨ f.op = .drain) ∧ (getPart s f.part).stopped ≠ none) →
      exec (.canopyCommandApply f.id) s = .next s) ∧
    (s.canopy.paused = false → f.op = .stop → (getPart s f.part).busy = true →
      ∃ t, exec (.canopyCommandApply f.id) s = .next t ∧ (getPart t f.part).busy = false ∧ (getPart t f.part).portsClosed = true ∧
        (getPart t f.part).stopped = some s.canopy.now ∧
        (∀ c < 4, ((getPart s f.part).ctx c).state.issues = true →
          ((getPart t f.part).ctx c).state = .loaded ∧ ((getPart t f.part).ctx c).tail = some s.canopy.now) ∧
        (∃ g, findFlight t f.id = some g ∧ g.stage = 1) ∧
        t = { s with host := t.host, canopy := { s.canopy with parts := t.canopy.parts } }) ∧
    (s.canopy.paused = false → f.op = .drain → (getPart s f.part).stopped = none →
      ∃ t, exec (.canopyCommandApply f.id) s = .next t ∧
        (let k := (getPart t f.part).ctx (f.pkt.at_ 1 1)
         k.state = .draining ∧ k.inputsStopped = true ∧ k.drainEnd = some (s.clk.aclk + f.pkt.at_ 2 4) ∧
           k.drainDiscard = (f.pkt.bits 6 0 1 == 1)) ∧
        findFlight t f.id = some { f with stage := 1 } ∧
        t = { s with host := t.host, canopy := { s.canopy with parts := t.canopy.parts } }) ∧
    (s.canopy.paused = false → f.op = .abort → f.pkt.at_ 0 1 = 1 → (s.host.flights.map (fun g => g.id)).Nodup →
      let q := f.pkt.at_ 3 1
      ∃ t, exec (.canopyCommandApply f.id) s = .next t ∧ (getPart t q).busy = false ∧
        (∀ c < 4, ((getPart s q).ctx c).state.issues = true → ((getPart t q).ctx c).state = .loaded) ∧
        (∀ c < 4, tokenCount t q c = 0) ∧
        (∀ g ∈ s.host.flights, g.id ≠ f.id → g.namesPart q = true → g.phase.isDone = false →
          ∃ g', findFlight t g.id = some g' ∧ (g'.aborting = true ∨ ∃ n r, g'.phase = .done n r ∧ r.status = 0x0002)) ∧
        (∃ f', findFlight t f.id = some f' ∧ f'.stage = 1 ∧ f'.phase = .active) ∧
        t.vaults = s.vaults ∧ t.queues = s.queues ∧ t.flash = s.flash ∧ t.eth = s.eth ∧ t.trig = s.trig ∧ t.clk = s.clk) ∧
    (∀ g, s.canopy.paused = false → f.op = .abort → f.pkt.at_ 0 1 ≠ 1 → f.acc[0]? = some g.id → findFlight s g.id = some g →
      g.op = .step → g.stage = 1 → g.phase = .active → (getPart s g.part).busy = true →
      ∃ t, exec (.canopyCommandApply f.id) s = .next t ∧ (getPart t g.part).busy = false ∧
        (getPart t g.part).stopped = some s.canopy.now ∧
        (∀ c < 4, ((getPart s g.part).ctx c).state.issues = true → ((getPart t g.part).ctx c).state = .loaded) ∧
        (∃ g', findFlight t g.id = some g' ∧ g'.aborting = true) ∧ (∃ f', findFlight t f.id = some f' ∧ f'.stage = 2) ∧
        t = { s with host := t.host, canopy := { s.canopy with parts := t.canopy.parts } })

/-- An ABORT of a tag: one not in flight in its session answers 2 in RESULT, its own 3; a command that no ABORT can end is left alone, one
that waits ends ABORTED, one that is active ends at once or is marked to end with its step (a STEP that runs, with its partition), and one
already completed gains ABORT_LATE, each ABORT then waiting for the command's reply. Another kind than 0 and 1, an undefined partition, or
one of another session's, is refused. A memory operation that has been marked ends ABORTED at the end of its step. The moments of the answers
are log entry 13. -/
def Obligations.AbortCases : Prop :=
  (∀ (p : Packet) (s : State), servedAtOnce .abort p s = true →
    (p.at_ 0 1 = 0 → p.bits 1 0 12 ≠ p.tag.toNat → (∀ g ∈ s.host.flights, g.sess = p.session.toNat → g.pkt.tag.toNat ≠ p.bits 1 0 12) →
      exec (.abort p) s = answers .abort p { result := [2] } s) ∧
    (p.at_ 0 1 = 0 → p.bits 1 0 12 = p.tag.toNat → exec (.abort p) s = answers .abort p { result := [3] } s) ∧
    (∀ g, p.at_ 0 1 = 0 → s.host.flights.find? (fun g => g.sess == p.session.toNat && g.pkt.tag.toNat == p.bits 1 0 12) = some g →
      findFlight s g.id = some g →
      (g.op.abortable = false → exec (.abort p) s = begins .abort p (fun f => { f with acc := [g.id, 3, s.clk.cclk] }) s) ∧
      (g.op.abortable = true → g.phase = .waiting → g.aborting = false → ∃ t, exec (.abort p) s = .next t ∧
        (let r : Reply :=
          { status := 0x0002, isPartial := true, progress := if g.op = .drain then tokenCount s (g.pkt.at_ 0 1) (g.pkt.at_ 1 1) else 0 }
         findFlight t g.id = some { g with phase := .done s.clk.cclk r }) ∧
        findFlight t s.host.nextId = some { taken .abort p s with acc := [g.id, 0, s.clk.cclk] } ∧ t = { s with host := t.host }) ∧
      (g.op.abortable = true → g.phase = .active →
        (g.op = .step ∧ g.stage = 1) ∨ g.op = .sqWrite ∨ (g.op = .marginReplan ∧ g.stage = 1) ∨ (stepping s).map (fun x => x.id) = some g.id →
        ∃ t, exec (.abort p) s = .next t ∧
          findFlight t g.id = some { g with aborting := true, abortAt := if g.aborting then g.abortAt else some s.clk.cclk } ∧
          findFlight t s.host.nextId = some { taken .abort p s with acc := [g.id, 0, s.clk.cclk] } ∧ t = { s with host := t.host }) ∧
      (g.op = .memRead ∨ g.op = .memWrite ∨ g.op = .memFill ∨ g.op = .scrub ∨ g.op = .arbLoad ∨ g.op = .arbVerify → g.phase = .active →
        g.aborting = false → (stepping s).map (fun x => x.id) ≠ some g.id →
        ∃ t, exec (.abort p) s = .next t ∧
          (let r : Reply := { status := 0x0002, isPartial := decide (g.progress < g.total ∨ g.total = 0), progress := g.progress }
           findFlight t g.id = some { g with phase := .done s.clk.cclk r }) ∧
          findFlight t s.host.nextId = some { taken .abort p s with acc := [g.id, 0, s.clk.cclk] } ∧ t = { s with host := t.host }) ∧
      (∀ n r, g.op.abortable = true → g.phase = .done n r → ∃ t, exec (.abort p) s = .next t ∧
        findFlight t g.id = some { g with phase := .done n { r with abortLate := true } } ∧
        findFlight t s.host.nextId = some { taken .abort p s with acc := [g.id, 1, s.clk.cclk] } ∧ t = { s with host := t.host })) ∧
    (1 < p.at_ 0 1 ∨ (p.at_ 0 1 = 1 ∧ partDefined s (p.at_ 3 1) = false) → exec (.abort p) s = answers .abort p { status := 0x0011 } s) ∧
    (p.at_ 0 1 = 1 → partDefined s (p.at_ 3 1) = true → free (getPart s (p.at_ 3 1)).owner p = false →
      exec (.abort p) s = answers .abort p { status := 0x0012 } s)) ∧
  (∀ (s : State) (f : Flight) (found : List Nat), s.host.flights = [f] → f.phase = .active → f.aborting = true → f.pkt.flags = 0 →
    (f.op = .memWrite ∨ f.op = .memFill ∨ f.op = .scrub) → f.progress + 32 < f.total → f.bytes = [] → f.stepLeft = 1 →
    let a := (p40 f.pkt + f.progress) / 32
    auxOpen .host (physVault s (devVault a)) (bankOf (devWord a)) s = true →
    ∃ t, exec (.longOperationStep f.id found) s = .next t ∧
      (let r : Reply := { status := 0x0002, isPartial := true, progress := f.progress + 32 }
       t.host.flights = [{ f with progress := f.progress + 32, stepLeft := 0, lastStep := s.host.steps + 1, phase := .done s.clk.cclk r }]) ∧
      t = { s with host := t.host, vaults := t.vaults })

/-- UNLOAD_CONTEXT of a resident context that neither issues nor has tokens present makes it EMPTY and keeps only its fault count and
whether its inputs are stopped; a FAULTED context loses its tokens too; of a context that issues, or has tokens, it is refused NOT_EMPTY. -/
def Obligations.UnloadContextEmpties : Prop :=
  ∀ (p : Packet) (s : State), servedAtOnce .unloadContext p s = true →
    let q := p.at_ 0 1
    let c := p.at_ 1 1
    let k := (getPart s q).ctx c
    (partDefined s q = false ∨ 3 < c → exec (.unloadContext p) s = answers .unloadContext p { status := 0x0011 } s) ∧
    (partDefined s q = true → c < 4 → free (getPart s q).owner p = true →
    (k.state.issues = true ∨ (k.state ≠ .faulted ∧ tokensPresent s q c = true) →
      exec (.unloadContext p) s = answers .unloadContext p { status := 0x0023 } s) ∧
    (k.state = .faulted ∨ (k.state.issues = false ∧ tokensPresent s q c = false) →
      ∃ t, exec (.unloadContext p) s = .next t ∧
        (getPart t q).ctx c = { inputsStopped := k.inputsStopped, faultCount := k.faultCount } ∧
        (∀ d, d ≠ c → (getPart t q).ctx d = (getPart s q).ctx d) ∧
        (k.state ≠ .faulted → t.canopy.tiles = s.canopy.tiles ∧ t.canopy.edges = s.canopy.edges) ∧
        t = { s with host := answeredHost .unloadContext p {} s, canopy := { s.canopy with
          parts := t.canopy.parts, tiles := t.canopy.tiles, edges := t.canopy.edges } }))

/-- Ends of a run: DRAIN_EMPTY halts a draining context with no tokens as DRAINED, DRAIN_LIMIT one at its limit as DRAINED or, without
DISCARD, LOADED, and the DRAIN in flight is answered; STEP_END stops a partition in its last cycle; PARTITION_QUIESCENT forgets the stop,
turns fill off, where no START or STEP waits for it, and answers the STOPs, STEPs and ABORTs that wait for the stop. That the fill is turned
off at quiescence is log entry 36. -/
def Obligations.RunsEnd : Prop :=
  ∀ (s : State) (q c : Nat), q < 8 → c < 4 →
    let k := (getPart s q).ctx c
    (k.state = .draining → tokensPresent s q c = false →
      ∃ t, exec (.drainEmpty q c) s = .next t ∧ (getPart t q).ctx c = { k with state := .drained, drainEnd := none, tail := none } ∧
        (∀ f, drainFlight s q c = some f → findFlight s f.id = some f → f.aborting = false →
          findFlight t f.id = some { f with phase := .done s.clk.cclk {} }) ∧
        t = { s with host := t.host, canopy := { s.canopy with parts := t.canopy.parts } }) ∧
    (∀ n, k.state = .draining → k.drainEnd = some n → n ≤ s.clk.aclk → tokensPresent s q c = true →
      ∃ t, exec (.drainLimit q c) s = .next t ∧
        (getPart t q).ctx c = { k with state := if k.drainDiscard then .drained else .loaded, drainEnd := none, tail := none } ∧
        (k.drainDiscard = false → t.canopy.tiles = s.canopy.tiles ∧ t.canopy.edges = s.canopy.edges) ∧
        (∀ f, drainFlight s q c = some f → findFlight s f.id = some f → f.aborting = false →
          let r : Reply := { status := if k.drainDiscard then 0x0000 else 0x0023, isPartial := true, progress := tokenCount s q c }
          findFlight t f.id = some { f with phase := .done s.clk.cclk r }) ∧
        t = { s with host := t.host, canopy := { s.canopy with parts := t.canopy.parts, tiles := t.canopy.tiles, edges := t.canopy.edges } }) ∧
    ((getPart s q).stepEnd = some s.canopy.now → (getPart s q).busy = true →
      ∃ t, exec (.stepEnd q) s = .next t ∧ (getPart t q).busy = false ∧ (getPart t q).portsClosed = true ∧
        (getPart t q).stopped = some s.canopy.now ∧ t = { s with canopy := { s.canopy with parts := t.canopy.parts } }) ∧
    (∀ f0, quiescent s q = true → (getPart s q).stopped = some f0 → (getPart s q).firstRec = none →
      ∃ t, exec (.partitionQuiescent q) s = .next t ∧
        t = updPart q (fun x => { x with stopped := none, firstRec := none, stepEnd := none })
          { s with host := t.host, power := { s.power with
              fillOn := if fillWanted s q then s.power.fillOn else s.power.fillOn &&& ~~~(1#8 <<< q) } } ∧
        ((s.host.flights.map (fun g => g.id)).Nodup → ∀ g ∈ s.host.flights, g.phase = .active → g.stage = 1 → g.aborting = false →
          (g.op = .stop → g.part = q → findFlight t g.id = some { g with phase := .done s.clk.cclk {} }) ∧
          (g.op = .step → g.part = q → let n := stepRun g f0
            findFlight t g.id = some { g with phase := .done s.clk.cclk { isPartial := decide (n < g.total), progress := n } }) ∧
          (g.op = .abort → g.pkt.at_ 0 1 = 1 → g.pkt.at_ 3 1 = q → g.acc = [] →
            findFlight t g.id = some { g with phase := .done s.clk.cclk { result := [4] } })))

/-- A stop by a fault ends with the FAULT event: once the partition is quiescent, the record of the first fault goes to its owner's session. -/
def Obligations.FaultEventAtQuiescence : Prop :=
  ∀ (s : State) (q i : Nat) (r : FaultRec), q < 8 → s.host.flights = [] → quiescent s q = true → (getPart s q).stopped.isSome = true →
    (getPart s q).firstRec = some r → (getPart s q).owner = some i → (getSession s i).isOpen = true →
    ((getSession s i).outbox.filter OutItem.isEvent).length < 256 →
    ∃ t e, exec (.partitionQuiescent q) s = .next t ∧ (getSession t i).outbox = (getSession s i).outbox ++ [.event e] ∧ e.code = 0x0001 ∧
      e.seq = (getSession s i).nextSeq ∧ e.data = padTo 32 (r.bytes q (recordNumber (getPart s q) r)) ∧
      (getSession t i).nextSeq = (getSession s i).nextSeq + 1 ∧ (getPart t q).stopped = none ∧ (getPart t q).firstRec = none

/-! ### Spill queues (R179 to R192, R246) -/

/-- MARK, REWIND, RELEASE, FLUSH and RESET of a spill queue, by command, by the session that may use it on a queue of no enabled ingress
endpoint, and in the state that an image's control word of the same cycle leaves (R186): the counts move as R185 says, and no other queue
changes. A FLUSH whose cell finds no room in the tail buffer waits (R189). That the control word acts first is log entry 45. -/
def Obligations.SpillControlCommands : Prop :=
  ∀ (p : Packet) (s : State), let q := p.at_ 0 1
    let u := sqControlWord q s
    let x := { getQueue u q with ctrlAt := s.clk.aclk + 1 }
    let gives (op : Op) (r : Reply) (y : Spill) : Host.Outcome State Fault Refusal :=
      .next { u with host := answeredHost op p r s, queues := Table.set {} u.queues q y }
    free (getQueue s q).owner p = true → ingressOf s q = false →
    (servedAtOnce .sqMark p s = true → exec (.sqMark p) s = gives .sqMark {} { x with mkCell := x.rd, mkWord := x.rdWord, markValid := true }) ∧
    (servedAtOnce .sqRewind p s = true → x.markValid = true → ∃ y, exec (.sqRewind p) s = gives .sqRewind {} y ∧
      y.rd = x.mkCell ∧ y.rdWord = x.mkWord ∧ y.wr = x.wr ∧ y.rel = x.rel ∧ y.markValid = true ∧ y.tail = x.tail) ∧
    (servedAtOnce .sqRewind p s = true → x.markValid = false →
      exec (.sqRewind p) s = gives .sqRewind { status := 0x0011 } { x with ctrlRejected := true, rejectedNow := true }) ∧
    (servedAtOnce .sqRelease p s = true → let n := p.at_ 1 4
      let k := min n (x.rd - x.rel)
      ∃ y, exec (.sqRelease p) s = gives .sqRelease { isPartial := decide (k < n), progress := if k < n then k else 0 } y ∧
        y.rel = x.rel + k ∧ y.rd = x.rd ∧ y.rdWord = x.rdWord ∧ y.wr = x.wr ∧ y.markValid = (x.markValid && decide (x.rel + k ≤ x.mkCell))) ∧
    (servedAtOnce .sqFlush p s = true → x.assembly ≠ [] → sqReady x = false → exec (.sqFlush p) s = .next { u with host := begunHost .sqFlush p id s }) ∧
    (servedAtOnce .sqFlush p s = true → x.assembly = [] ∨ sqReady x = true → ∃ y, exec (.sqFlush p) s = gives .sqFlush {} y ∧ y.assembly = [] ∧
      (x.assembly = [] → y = x) ∧
      (x.assembly ≠ [] → x.writer = 1 → x.frozen = false → x.full = false → y.wr = x.wr + 1)) ∧
    (servedAtOnce .sqReset p s = true → ∃ y, exec (.sqReset p) s = gives .sqReset {} y ∧
      y.wr = 0 ∧ y.rd = 0 ∧ y.rel = 0 ∧ y.markValid = false ∧ y.frozen = false ∧ y.overrun = false ∧ y.assembly = [] ∧
      y.owner = (if p.bits 1 0 1 = 1 then none else x.owner) ∧ y.writer = x.writer ∧ y.reader = x.reader)

/-- SQ_CONFIG of an empty queue sets its writer, reader, mode and region, empties it and claims it. An SQ_WRITE commits its cells, one after
the other, until all are offered or the tail buffer of a queue that the host writes is full; they reach the queue at the end of the cycle
(R186). An SQ_READ takes the words that are on die, in a cycle in which no control operation has acted, and is answered once nothing is left
to wait for. Each is refused where its parameters are. When SQ_WRITE and SQ_READ are answered is log entry 36, the order in a cycle 45. -/
def Obligations.SpillConfigWriteRead : Prop :=
  ∀ (p : Packet) (s : State), let q := p.at_ 0 1
    let x := getQueue s q
    free x.owner p = true →
    (servedAtOnce .sqConfig p s = true →
      let y : Spill := { x with
        writer := p.bits 1 0 3, reader := p.bits 1 3 3, circular := p.bits 1 6 1 == 1, firstVault := p.at_ 2 2, vaults := p.at_ 4 2
        firstPage := p.at_ 6 2, pages := p.at_ 8 2, owner := claim x.owner p }
      let fits : Prop := p.bits 1 0 3 ≤ 5 ∧ p.bits 1 3 3 ≤ 3 ∧ p.bits 1 7 1 = 0 ∧ ingressOf s q = false ∧ x.wr = x.rel ∧ x.assembly = [] ∧
        x.incoming = [] ∧ x.arrived = [] ∧ queueBound s q = false ∧ regionBad q y s = false
      (fits → exec (.sqConfig p) s = .next { s with
        host := answeredHost .sqConfig p {} s
        queues := Table.set {} s.queues q { ({} : Spill) with
          writer := y.writer, reader := y.reader, circular := y.circular, firstVault := y.firstVault, vaults := y.vaults
          firstPage := y.firstPage, pages := y.pages, owner := y.owner, ctrlAt := x.ctrlAt
          poisonCount := x.poisonCount, discardCount := x.discardCount, overrunCount := x.overrunCount } }) ∧
      (¬fits → exec (.sqConfig p) s = answers .sqConfig p { status := 0x0011 } s)) ∧
    (servedAtOnce .sqWrite p s = true → p.payload.length ≠ 0 → p.payload.length % 64 = 0 →
      let n := p.payload.length / 64
      let offered (k : Nat) : Spill := { x with arrived := x.arrived ++ (List.range k).map (fun i =>
        { source := 2, cell := { words := (bytesW64 (slice p.payload (64 * i) 64)).map (fun w => { v := w }) }, flight := some s.host.nextId }) }
      ∃ t k, k ≤ n ∧ exec (.sqWrite p) s = .next t ∧
        (k < n → x.writer = 2 ∧ sqReady (offered k) = false) ∧ (∀ j, j < k → x.writer = 2 → sqReady (offered j) = true) ∧
        getQueue t q = offered k ∧ (∀ j, j ≠ q → getQueue t j = getQueue s j) ∧
        t = { s with host := begunHost .sqWrite p (fun g => { g with total := n, progress := k }) s, queues := t.queues }) ∧
    (servedAtOnce .sqWrite p s = true → p.payload.length = 0 ∨ p.payload.length % 64 ≠ 0 →
      exec (.sqWrite p) s = answers .sqWrite p { status := 0x0011 } s) ∧
    (servedAtOnce .sqRead p s = true → x.reader ≠ 2 ∨ p.at_ 1 1 = 0 ∨ 64 < p.at_ 1 1 → exec (.sqRead p) s = answers .sqRead p { status := 0x0011 } s) ∧
    (servedAtOnce .sqRead p s = true → x.reader = 2 → 1 ≤ p.at_ 1 1 → p.at_ 1 1 ≤ 64 →
      let n := min (8 * p.at_ 1 1) (8 * (x.wr - x.rd) - x.rdWord)
      let r := readWords q (if x.ctrlAt = s.clk.aclk + 1 then 0 else n) s
      (n ≤ r.1.length ∨ (getQueue r.2 q).wr = (getQueue r.2 q).rd → exec (.sqRead p) s = .next { r.2 with
        host := answeredHost .sqRead p { payload := r.1.flatMap (fun w => w64Bytes w.v) } s }) ∧
      (r.1.length < n → (getQueue r.2 q).wr ≠ (getQueue r.2 q).rd → exec (.sqRead p) s = .next { r.2 with
        host := begunHost .sqRead p (fun g => { g with total := n, acc := r.1.map (fun w => w.v.toNat) }) s }) ∧
      (∀ c, x.atRead = some c → x.rdWord = 0 → p.at_ 1 1 = 1 → x.ctrlAt ≠ s.clk.aclk + 1 → ∃ y, exec (.sqRead p) s = .next { s with
          host := answeredHost .sqRead p { payload := (List.range 8).flatMap (fun i => w64Bytes (c.words.getD i {}).v) } s
          queues := Table.set {} s.queues q y } ∧ y.rd = x.rd + 1 ∧ y.rdWord = 0 ∧ y.wr = x.wr ∧ y.rel = x.rel))

/-- Spill-queue events: a cell moves from the tail buffer to its region, and from there or the tail buffer to the head buffer, a region word
in each auxiliary access; a data word arrives, joins the assembly at the end of its cycle, and the eighth commits it; a committed cell is
stored at the end of its cycle, or counts as an overrun, and an SQ_WRITE with all its cells offered is answered then with the count of those
stored; a control word acts or is rejected, or stays while its FLUSH has no room; a word is delivered at the read endpoint. A write of 1 to
POISON_SEEN, CTRL_REJECTED or OVERRUN clears it, but for a set of the same CCLK cycle (R20). Each touches its queue alone, and the vault word
or the edge link that it uses. The order within a cycle is log entry 45, the reply of an SQ_WRITE 36. -/
def Obligations.SpillEvents : Prop :=
  ∀ (s : State) (q : Nat), q < 256 → let x := getQueue s q
    let open_ (a : Nat) : Bool := auxOpen .cell (physVault s (devVault a)) (bankOf (devWord a)) s
    let waits (a : Nat) : Host.Outcome State Fault Refusal := .next (noteWait .cell (physVault s (devVault a)) (bankOf (devWord a)) s)
    (∀ c a, x.vaults ≠ 0 → x.tail.find? (fun kv => kv.1 == x.moved) = some (x.moved, c) → a = x.position x.moved + (if x.half then 1 else 0) →
      (∀ g ∈ s.host.flights, g.op ≠ .sqFlush) →
      (open_ a = false → exec (.sqCellToRegion q) s = waits a) ∧
      (open_ a = true → ∃ t, exec (.sqCellToRegion q) s = .next t ∧
        getQueue t q = (if x.half then { x with tail := Table.erase x.tail x.moved, moved := x.moved + 1, half := false }
          else { x with half := true }) ∧
        (∀ j, j ≠ q → getQueue t j = getQueue s j) ∧
        t = { s with queues := t.queues, vaults := t.vaults } ∧
        (let ws := ((c.words.drop (if x.half then 4 else 0)).take 4).map (fun w => { w with poison := w.poison || w.bad })
         storedWord t (wordLoc s (devVault a) (devWord a)) = encodeWord (ws.flatMap (fun w => w64Bytes w.v)) (ws.any (fun w => w.poison))) ∧
        (∀ b, b / 64 ≠ wordLoc s (devVault a) (devWord a) → Table.get 0 t.vaults.mem b = Table.get 0 s.vaults.mem b))) ∧
    (∀ c, x.vaults ≠ 0 → x.filled ≤ x.rd → x.rd < x.wr → x.moved ≤ x.rd → x.tail.find? (fun kv => kv.1 == x.rd) = some (x.rd, c) →
      (∀ g ∈ s.host.flights, g.op ≠ .sqRead) →
      let y := { x with head := Table.put x.head x.rd c, filled := x.rd + 1, fetched := [] }
      exec (.sqCellToHead q) s = .next { s with queues := Table.set {} s.queues q y }) ∧
    (∀ a, x.regionRead = some a → (∀ g ∈ s.host.flights, g.op ≠ .sqRead) →
      (open_ a = false → exec (.sqCellToHead q) s = waits a) ∧
      (open_ a = true → ∃ t, exec (.sqCellToHead q) s = .next t ∧
        (let d := decodeWord (storedWord s (wordLoc s (devVault a) (devWord a)))
         let ws : List SqWord := (bytesW64 d.2.1).map (fun w => { v := w, poison := d.2.2 })
         getQueue t q = (if x.fetched = [] then { x with fetched := ws } else { x with
           head := Table.put x.head (max x.filled x.rd) { words := x.fetched ++ ws }, filled := max x.filled x.rd + 1, fetched := [] })) ∧
        (∀ j, j ≠ q → getQueue t j = getQueue s j) ∧ t = { s with queues := t.queues, vaults := t.vaults } ∧ t.vaults.mem = s.vaults.mem)) ∧
    (∀ w ws, getEdge s 1 q = w :: ws → w.at_ + 1 ≤ s.canopy.now → s.canopy.paused = false →
      Table.get 0 s.canopy.taken (edgeKey 1 q) ≠ s.canopy.now + 1 →
      (x.assembly.length + x.incoming.length = 7 → sqReady x = false → exec (.sqDataToken q) s = .next s) ∧
      (x.assembly.length + x.incoming.length ≠ 7 ∨ sqReady x = true →
        ∃ t, exec (.sqDataToken q) s = .next t ∧ getEdge t 1 q = ws ∧
          t.queues = Table.set {} s.queues q { x with incoming := x.incoming ++ [{ v := w.tok.data, poison := w.tok.poison }] } ∧
          t = { s with queues := t.queues, canopy := { s.canopy with
            edges := t.canopy.edges, taken := t.canopy.taken, tiles := t.canopy.tiles } })) ∧
    (∀ a, x.incoming = [] → x.arrived = [a] → edgeTake 1 (256 + q) s = none → x.writer = a.source → x.frozen = false →
      (x.full = false → getQueue (settleQueues s) q = { x with arrived := [], wr := x.wr + 1, tail := Table.put x.tail x.wr a.cell }) ∧
      (x.full = true → x.circular = false → getQueue (settleQueues s) q = { x with
        arrived := [], overrun := true, overrunNow := true, overrunCount := satAdd x.overrunCount 1 })) ∧
    (∀ g, s.host.flights = [g] → g.op = .sqWrite → g.phase = .active → g.aborting = false → g.total ≤ g.progress →
      let k := g.acc.getD 0 0
      (settleWrites s).host.flights = [{ g with
        phase := .done s.clk.cclk { isPartial := decide (k < g.total), progress := g.progress, result := leBytes 4 k } }]) ∧
    (∀ w, x.incoming = [w] → x.arrived = [] → edgeTake 1 (256 + q) s = none →
      (x.assembly.length < 7 → getQueue (settleQueues s) q = { x with incoming := [], assembly := x.assembly ++ [w] }) ∧
      (x.assembly.length = 7 → x.writer = 1 → x.frozen = false → x.full = false → getQueue (settleQueues s) q = { x with
        incoming := [], assembly := [], wr := x.wr + 1, tail := Table.put x.tail x.wr { words := x.assembly ++ [w] } })) ∧
    (∀ w ws, getEdge s 1 (256 + q) = w :: ws → w.at_ + 1 ≤ s.canopy.now → s.canopy.paused = false →
      Table.get 0 s.canopy.taken (edgeKey 1 (256 + q)) ≠ s.canopy.now + 1 →
      let y := { x with ctrlAt := s.clk.aclk + 1 }
      let stays : Prop := w.tok.poison = false ∧ fldN w.tok.data 32 28 = 0 ∧ fldN w.tok.data 60 4 = 4 ∧ x.assembly ≠ [] ∧ sqReady x = false
      (stays → exec (.sqControlWord q) s = .next s) ∧
      (¬stays → ∃ t, exec (.sqControlWord q) s = .next t ∧ getEdge t 1 (256 + q) = ws ∧
        (w.tok.poison = true ∨ fldN w.tok.data 32 28 ≠ 0 ∨ fldN w.tok.data 60 4 = 0 ∨ 4 < fldN w.tok.data 60 4 ∨
            (fldN w.tok.data 60 4 = 2 ∧ x.markValid = false) →
          getQueue t q = { y with ctrlRejected := true, rejectedNow := true }) ∧
        (w.tok.poison = false → fldN w.tok.data 32 28 = 0 →
          (fldN w.tok.data 60 4 = 1 → getQueue t q = { y with mkCell := x.rd, mkWord := x.rdWord, markValid := true }) ∧
          (fldN w.tok.data 60 4 = 2 → x.markValid = true → getQueue t q = y.rewind) ∧
          (fldN w.tok.data 60 4 = 3 → getQueue t q = (y.release (fldN w.tok.data 0 32)).1) ∧
          (fldN w.tok.data 60 4 = 4 → getQueue t q = y.flush)) ∧
        (∀ j, j ≠ q → getQueue t j = getQueue s j) ∧
        t = { s with queues := t.queues, canopy := { s.canopy with
          edges := t.canopy.edges, taken := t.canopy.taken, tiles := t.canopy.tiles } })) ∧
    (∀ (ok : Bool) (w : SqWord), x.reader = 1 → x.ctrlAt ≠ s.clk.aclk + 1 → x.nextWord = some w →
      (edgeDeliver 2 q w.v (w.poison || !ok) s = none → exec (.sqReadDelivery q ok) s = .next s) ∧
      (∀ u, edgeDeliver 2 q w.v (w.poison || !ok) s = some u → exec (.sqReadDelivery q ok) s = .next { u with
        queues := Table.set {} s.queues q (x.advance (w.poison || !ok)) })) ∧
    exec (.poisonSeenClear q) s = .next { s with queues := Table.set {} s.queues q { x with poisonSeen := x.poisonNow } } ∧
    exec (.ctrlRejectedClear q) s = .next { s with queues := Table.set {} s.queues q { x with ctrlRejected := x.rejectedNow } } ∧
    exec (.overrunClear q) s = .next { s with queues := Table.set {} s.queues q { x with overrun := x.overrunNow } }

/-! ### The timebase (R315 to R325, R333) -/

/-- Time commands by a session that may act on the timebase: TIME_READ reports SEC, NS and FRAC of its apply tick; TIME_ADJ_FREQ sets the
increment before that tick; TIME_INVALIDATE clears VALID; TIME_SOURCE selects the reference and the PLL relocks; PPS_CONFIG sets PPS_OUT.
All but TIME_READ claim the timebase. A field out of range is refused.
The apply tick is taken at once (log entry 4). -/
def Obligations.TimeCommands : Prop :=
  ∀ (p : Packet) (s : State),
    let mine : Timebase := { s.time with owner := claim s.time.owner p }
    let ticked (b : Timebase) : Timebase := if b.tick.2 then b.tick.1.pulse (s.clk.tticks + 1) else b.tick.1
    let clk : Clocks := { s.clk with tticks := s.clk.tticks + 1, ahead := s.clk.ahead + 1 }
    let refused (op : Op) : Host.Outcome State Fault Refusal := .next { s with host := answeredHost op p { status := 0x0011 } s, time := mine }
    (servedAtOnce .timeRead p s = true → let b := ticked s.time
      exec (.timeRead p) s = .next { s with
        host := answeredHost .timeRead p { result := leBytes 6 b.sec.toNat ++ leBytes 4 b.ns.toNat ++ leBytes 4 b.frac.toNat } s
        time := b, clk := clk }) ∧
    (free s.time.owner p = true →
      (servedAtOnce .timeAdjFreq p s = true →
        (0x00FF000000 ≤ p.at_ 0 5 → p.at_ 0 5 ≤ 0x0100FFFFFF → exec (.timeAdjFreq p) s = .next { s with
          host := answeredHost .timeAdjFreq p {} s, clk := clk
          time := ticked { mine with
            inc := BitVec.ofNat 40 (p.at_ 0 5), edges := s.time.note { tick := s.clk.tticks, jump := 0, inc := s.time.inc } } }) ∧
        (p.at_ 0 5 < 0x00FF000000 ∨ 0x0100FFFFFF < p.at_ 0 5 → exec (.timeAdjFreq p) s = refused .timeAdjFreq)) ∧
      (servedAtOnce .timeInvalidate p s = true → exec (.timeInvalidate p) s = .next { s with
        host := answeredHost .timeInvalidate p {} s, time := { mine with valid := false } }) ∧
      (servedAtOnce .timeSource p s = true →
        (p.at_ 0 1 ≤ 1 → exec (.timeSource p) s = .next { s with
          host := answeredHost .timeSource p {} s, time := { mine with tref := p.at_ 0 1 == 1, pllLocked := false } }) ∧
        (1 < p.at_ 0 1 → exec (.timeSource p) s = refused .timeSource)) ∧
      (servedAtOnce .ppsConfig p s = true →
        (1 ≤ p.at_ 2 2 → p.at_ 2 2 ≤ 500 → exec (.ppsConfig p) s = .next { s with
          host := answeredHost .ppsConfig p {} s
          time := { mine with ppsEnable := p.bits 0 0 1 == 1, ppsWidth := BitVec.ofNat 9 (p.at_ 2 2)
                              ppsEnd := if p.bits 0 0 1 = 1 then s.time.ppsEnd else none } }) ∧
        (p.at_ 2 2 = 0 ∨ 500 < p.at_ 2 2 → exec (.ppsConfig p) s = refused .ppsConfig))) ∧
    (free s.time.owner p = false →
      (servedAtOnce .timeSet p s = true → exec (.timeSet p) s = answers .timeSet p { status := 0x0012 } s) ∧
      (servedAtOnce .timeStep p s = true → exec (.timeStep p) s = answers .timeStep p { status := 0x0012 } s) ∧
      (servedAtOnce .timeAdjFreq p s = true → exec (.timeAdjFreq p) s = answers .timeAdjFreq p { status := 0x0012 } s))

/-- TIME_SET and TIME_STEP, of any value: on an invalid timebase, or within JUMP_LIMIT, the time takes the new value at the apply tick instead
of the one the tick gives, and the change is logged; one that changes nothing is answered OK; beyond JUMP_LIMIT it is refused JUMP, out of
range BAD_PARAM, and the time keeps running. Only the timebase, the tick count, the gate lists that follow the time and the command engine
change. The apply tick is taken at once (log entry 4). -/
def Obligations.TimeIsSetOrRefused : Prop :=
  ∀ (p : Packet) (s : State), free s.time.owner p = true →
    let would := s.time.tick.1.total
    let only (t : State) : Prop := t = { s with host := t.host, time := t.time, clk := t.clk, eth := t.eth } ∧
      t.clk.tticks = s.clk.tticks + 1 ∧ t.time.owner = claim s.time.owner p
    let ticks (t : State) : Prop := t.time.sec = s.time.tick.1.sec ∧ t.time.ns = s.time.tick.1.ns ∧ t.time.frac = s.time.tick.1.frac ∧
      t.time.log = s.time.log ∧ t.time.valid = s.time.valid ∧ t.time.jumps = s.time.jumps
    let jump (t : State) (delta : Int) : Prop := t.time.jumps = satAdd s.time.jumps 1 ∧ (t.time.log.head?).map (fun c => c.delta) = some delta
    let refused (t : State) : Prop := t.time.refused = true ∧ t.time.refusedCount = satAdd s.time.refusedCount 1
    (servedAtOnce .timeSet p s = true →
      let new := p.at_ 0 6 * 1000000000 + p.at_ 6 4
      let delta : Int := (new : Int) - (would : Int)
      let becomes (t : State) : Prop :=
        t.time.sec = BitVec.ofNat 48 (p.at_ 0 6) ∧ t.time.ns = BitVec.ofNat 30 (p.at_ 6 4) ∧ t.time.frac = 0 ∧ t.time.valid = true
      ∃ t, exec (.timeSet p) s = .next t ∧ only t ∧
        (1000000000 ≤ p.at_ 6 4 → ticks t ∧ Answered .timeSet p { status := 0x0011 } s t) ∧
        (p.at_ 6 4 < 1000000000 →
          (s.time.valid = false → becomes t ∧ Answered .timeSet p {} s t) ∧
          (s.time.valid = true → delta = 0 → ticks t ∧ Answered .timeSet p {} s t) ∧
          (s.time.valid = true → delta ≠ 0 → delta.natAbs ≤ s.time.jumpLimit.toNat → becomes t ∧ jump t delta ∧ Answered .timeSet p {} s t) ∧
          (s.time.valid = true → s.time.jumpLimit.toNat < delta.natAbs →
            ticks t ∧ refused t ∧ Answered .timeSet p { status := 0x0030 } s t))) ∧
    (servedAtOnce .timeStep p s = true →
      let d := signed 64 (p.at_ 0 8)
      let new : Int := (would : Int) + d
      let becomes (t : State) : Prop := t.time.total = new.toNat ∧ t.time.frac = s.time.tick.1.frac ∧ t.time.valid = true
      ∃ t, exec (.timeStep p) s = .next t ∧ only t ∧ t.time.inc = s.time.inc ∧
        (new < 0 ∨ (2 ^ 48 * 1000000000 : Nat) ≤ new → ticks t ∧ Answered .timeStep p { status := 0x0011 } s t) ∧
        (0 ≤ new → new < (2 ^ 48 * 1000000000 : Nat) →
          (s.time.valid = false → becomes t ∧ Answered .timeStep p {} s t) ∧
          (s.time.valid = true → d = 0 → ticks t ∧ Answered .timeStep p {} s t) ∧
          (s.time.valid = true → d ≠ 0 → d.natAbs ≤ s.time.jumpLimit.toNat → becomes t ∧ jump t d ∧ Answered .timeStep p {} s t) ∧
          (s.time.valid = true → s.time.jumpLimit.toNat < d.natAbs →
            ticks t ∧ refused t ∧ Answered .timeStep p { status := 0x0030 } s t)))

/-- Events of the timebase: NS that carries moves SEC on and starts a pulse, a pulse ends after its width, a lost reference and the PLL's
lock are shown, outside reset, an edge of PPS_IN in reset does nothing, the enable bit is written, and REFUSED is cleared unless the present
CCLK cycle has set it (R20). Nothing else changes. The ticks that a command takes are log entry 4, the reset log entry 10. -/
def Obligations.TimebaseEvents : Prop :=
  ∀ s : State,
    (s.time.tick.2 = true → exec .secondCarry s = .next { s with
      time := s.time.tick.1.pulse (s.clk.tticks + 1), clk := { s.clk with tticks := s.clk.tticks + 1, ahead := s.clk.ahead + 1 } }) ∧
    (∀ n, s.time.ppsEnd = some n → n ≤ s.clk.tticks → exec .ppsOutEnd s = .next { s with time := { s.time with ppsEnd := none } }) ∧
    (exec .refLost s = .next (if inReset s then s else { s with time := { s.time with refLost := true, pllLocked := false } })) ∧
    (exec .pllLock s = .next (if inReset s then s else { s with time := { s.time with refLost := false, pllLocked := true } })) ∧
    (∀ on, ∃ t, exec (.ppsCfgEnable on) s = .next t ∧ t.time.ppsEnable = on ∧ t.time.ppsEnd = (if on then s.time.ppsEnd else none) ∧
      t.time.ppsWidth = s.time.ppsWidth ∧ t = { s with time := { s.time with ppsEnable := on, ppsEnd := t.time.ppsEnd } }) ∧
    (inReset s = true → exec .ppsInEdge s = .next s) ∧
    exec .refusedClear s = .next { s with time := { s.time with refused := s.time.refusedNow } }

/-- One TCLK tick adds INC to NS.FRAC, in units of 2^-32 ns, and carries a second out of NS. Out of reset an edge of PPS_IN captures the
time and is counted, over any earlier capture, and nothing else changes: no event is sent. -/
def Obligations.TimeAdvancesAndIsCaptured : Prop :=
  (∀ b : Timebase, b.ns.toNat < 1000000000 → b.inc.toNat ≤ 2 ^ 33 →
    let c := b.tick.1
    c.ns.toNat < 1000000000 ∧ c.inc = b.inc ∧
      (c.ns.toNat * 2 ^ 32 + c.frac.toNat) + (if b.tick.2 then 1000000000 * 2 ^ 32 else 0) = b.ns.toNat * 2 ^ 32 + b.frac.toNat + b.inc.toNat ∧
      c.sec = (if b.tick.2 then b.sec + 1 else b.sec)) ∧
  (∀ s : State, inReset s = false → exec .ppsInEdge s = .next { s with time := { s.time with
      ppsInSec := s.time.sec, ppsInNs := s.time.ns, ppsInCount := satAdd s.time.ppsInCount 1 } })

/-! ### Ports: configuration (R264, R272, R275, R279, R284, R330) -/

/-- Commands that configure a MAC of an E-port of the session: the named part of the configuration in force is replaced at once, MAC_CONFIG
and REPLY_CONFIG restart their sequence numbers, GATE_LIST_LOAD leaves its list pending, and TEMPLATE_LOAD stores its template. Nothing else
but the record of earlier configurations, which frames in progress use, changes. -/
def Obligations.MacConfiguration : Prop :=
  ∀ (p : Packet) (s : State), let m := p.at_ 0 1
    let x := getMac s m
    let put (op : Op) (y : Mac) : State := { s with host := answeredHost op p {} s, eth := { s.eth with macs := Table.set {} s.eth.macs m y } }
    let past := (s.clk.tticks, x.conf) :: x.past.filter (fun c => decide (s.clk.tticks < c.1 + 1000000))
    let gives (op : Op) (o : Host.Outcome State Fault Refusal) (y : Mac) : Prop :=
      ∃ t, o = .next t ∧ t = { put op x with eth := { s.eth with macs := t.eth.macs } } ∧ (∀ j, j ≠ m → getMac t j = getMac s j) ∧ getMac t m = y
    (m < 64 → free (macOwner s m) p = true →
      (servedAtOnce .macFilter p s = true →
        let e : FilterEntry := { addr := p.bytes 2 6, valid := p.bits 8 0 1 == 1, eval := p.bits 8 1 1 == 1 }
        let c : MacConf := { x.conf with filter := Table.set {} x.conf.filter (p.at_ 1 1) e }
        exec (.macFilter p) s =
          if p.at_ 1 1 ≤ 15 then .next (put .macFilter { x with past := past, conf := c }) else answers .macFilter p { status := 0x0011 } s) ∧
      (servedAtOnce .macConfig p s = true →
        let txs := ((List.range 8).filter (fun c => p.bits 7 c 1 == 1)).map (fun c => p.at_ (8 + c) 1)
        let rxs := (if p.bits 1 3 1 = 1 then [p.at_ 4 1] else []) ++ (if p.bits 1 4 1 = 1 then [p.at_ 5 1] else [])
        (∀ q ∈ rxs ++ txs, free (getQueue s q).owner p = true) → macPresent s m = true → 1518 ≤ p.at_ 2 2 → p.at_ 2 2 ≤ 9600 →
        (∀ q ∈ rxs, (getQueue s q).writer = 3) → (∀ q ∈ txs, (getQueue s q).reader = 3) → (rxs ++ txs).Nodup →
        (x.conf.cfg.enable && p.bits 1 0 1 == 1) = false →
        gives .macConfig (exec (.macConfig p) s) { x with rxSeq := 0, past := past, conf := { x.conf with cfg := {
          enable := p.bits 1 0 1 == 1, promisc := p.bits 1 1 1 == 1, bcast := p.bits 1 2 1 == 1, rxValid := p.bits 1 3 1 == 1
          ndValid := p.bits 1 4 1 == 1, maxFrame := p.at_ 2 2, rxQueue := p.at_ 4 1, ndQueue := p.at_ 5 1, fwdTc := p.at_ 6 1 % 8
          txValid := BitVec.ofNat 8 (p.at_ 7 1), txQueues := BitVec.ofNat 64 (p.at_ 8 8) } } }) ∧
      (servedAtOnce .gateListLoad p s = true →
        let fits : Prop := p.payload.length = 4 * (p.at_ 1 1 + 1) ∧ 1000 ≤ p.at_ 16 4 ∧ p.at_ 16 4 ≤ 1000000000 ∧ p.at_ 12 4 < 1000000000 ∧
          (bytesW32 p.payload).all (fun e => fldN e 8 24 != 0) = true
        (fits → ∃ g, exec (.gateListLoad p) s = .next (put .gateListLoad { x with pendingGates := some g }) ∧ g.cycle = p.at_ 16 4 ∧
          g.base = p.at_ 6 6 * 1000000000 + p.at_ 12 4 ∧ g.entries = bytesW32 p.payload) ∧
        (¬fits → exec (.gateListLoad p) s = answers .gateListLoad p { status := 0x0011 } s)) ∧
      (servedAtOnce .extractConfig p s = true →
        (p.at_ 1 1 = 0xFF → exec (.extractConfig p) s = .next (put .extractConfig { x with past := past, conf := { x.conf with extract := {} } })) ∧
        (let e := getEns s (p.at_ 1 1)
         let n := p.at_ 2 1
         let w (i : Nat) : Nat := leAt p.payload (8 * i) 8
         let f (i : Nat) : ExtField := { offset := w i % 512, anchor := w i / 512 % 4, len := w i / 2048 % 8 + 1, ty := w i / 16384 % 16
                                         scale := signed 8 (w i / 2 ^ 18 % 256) }
         p.at_ 1 1 ≠ 0xFF → e.engines ≠ 0 → (∀ i < e.engines, free (getEngine s (p.at_ 1 1 + i)).owner p = true) → 1 ≤ n → n ≤ 64 →
         e.features = n → p.payload.length = 8 * n → ensembleBound s (p.at_ 1 1) = false →
         (∀ i < n, w i < 2 ^ 26 ∧ (f i).ty ≤ 5 ∧ ((f i).ty = 4 → (f i).len = 4) ∧ ((f i).ty = 5 → (f i).len = 2) ∧
           (4 ≤ (f i).ty → (f i).scale = 0)) →
         (p.at_ 3 1 = 0xFF ∨ (p.at_ 3 1 < n ∧ ((f (p.at_ 3 1)).ty = 0 ∨ (f (p.at_ 3 1)).ty = 2) ∧ (f (p.at_ 3 1)).scale = 0)) →
         exec (.extractConfig p) s = .next (put .extractConfig { x with past := past, conf := { x.conf with extract := {
           first := some (p.at_ 1 1), fields := (List.range n).map f, lengthField := if p.at_ 3 1 = 0xFF then none else some (p.at_ 3 1)
           lengthAdd := signed 16 (p.at_ 4 2) } } }))) ∧
      (servedAtOnce .replyConfig p s = true →
        let low : W32 := BitVec.ofNat 32 (p.at_ 4 4)
        let high : W32 := BitVec.ofNat 32 (p.at_ 8 4)
        p.at_ 1 1 ≤ 2 → (fpDec 23 low.toNat).nan = false → (fpDec 23 high.toNat).nan = false →
        fpLt (fpDec 23 high.toNat) (fpDec 23 low.toNat) = false →
        (∀ t, t = p.at_ 2 1 ∨ t = p.at_ 3 1 → t = 0xFF ∨ (t ≤ 63 ∧ templateFits x.conf (Table.get {} (getEPort s (m / 8)).templates t) = true)) →
        gives .replyConfig (exec (.replyConfig p) s) { x with replySeq := 0, past := past, conf := { x.conf with
          reply := { mode := p.at_ 1 1, templateLow := p.at_ 2 1, templateHigh := p.at_ 3 1, low := low, high := high } } }) ∧
      (servedAtOnce .ptpPortConfig p s = true → macPresent s m = true → exec (.ptpPortConfig p) s = .next { s with
        host := answeredHost .ptpPortConfig p {} s
        time := { s.time with macs := Table.set {} s.time.macs m { getPtp s m with
          tcEnable := p.bits 1 0 1 == 1, asym := BitVec.ofNat 32 (p.at_ 4 4) } } })) ∧
    (servedAtOnce .templateLoad p s = true → m ≤ 7 → p.at_ 1 1 ≤ 63 → free (getEPort s m).owner p = true →
      let b := p.payload
      let ps := (bytesW32 (slice b 9 32)).take (leAt b 8 1)
      let y := getEPort s m
      60 ≤ leAt b 0 2 → leAt b 0 2 ≤ 512 → b.length = 41 + leAt b 0 2 → leAt b 2 1 ≤ 7 → leAt b 3 1 ≤ 3 → leAt b 8 1 ≤ 8 →
      (∀ w ∈ ps, patchSize w ≠ 0 ∧ fldN w 0 9 + patchSize w ≤ leAt b 0 2 ∧ fldN w 13 3 = 0) → templateInUse s m (p.at_ 1 1) = false →
      exec (.templateLoad p) s = .next { s with
        host := answeredHost .templateLoad p {} s
        eth := { s.eth with ports := Table.set {} s.eth.ports m { y with
          past := (s.clk.tticks, p.at_ 1 1, Table.get {} y.templates (p.at_ 1 1)) :: y.past.filter (fun e => decide (s.clk.tticks < e.1 + 1000000))
          templates := Table.set {} y.templates (p.at_ 1 1)
            { tc := leAt b 2 1, ipv4Csum := leAt b 3 1 % 2 == 1, l4Csum := leAt b 3 1 / 2 % 2 == 1, l3 := leAt b 4 2, l4 := leAt b 6 2
              patches := ps, bytes := slice b 41 (leAt b 0 2) } } } })

/-- Memory, spill-queue and MAC commands that do not fit are refused and change nothing else: a range of MEM_READ, MEM_WRITE, MEM_FILL or SCRUB
that is empty, unaligned or outside the vaults BAD_PARAM, one in a partition of another session DENIED; every spill-queue command on a queue of
another session DENIED, every control command on an ingress queue BAD_PARAM; a command for a MAC or E-port that the part does not have, or a
MAC_CONFIG, COUNTERS_READ or PTP_PORT_CONFIG for a MAC that its port's mode does not have, BAD_PARAM, and one on an E-port of another session
DENIED. -/
def Obligations.UnfitCommandsRefused : Prop :=
  ∀ (p : Packet) (s : State),
    let refused (op : Op) (i : Packet → Instr) (st : Nat) : Prop := servedAtOnce op p s = true → exec (i p) s = answers op p { status := st } s
    (let bad (n : Nat) : Prop := n = 0 ∨ p.at_ 0 5 % 32 ≠ 0 ∨ n % 32 ≠ 0 ∨ logicalVaults s * 2 ^ 25 < p.at_ 0 5 + n ∨
        (s.part.x2 = true ∧ 2 ^ 24 < p.at_ 0 5 % 2 ^ 25 + n)
     let others (n : Nat) : Prop := rangeValid s (p.at_ 0 5) n = true ∧
        (rangeParts s (p.at_ 0 5) n).any (fun q => partForeign s q p.session.toNat) = true
     (bad (p.at_ 8 8) → refused .memRead .memRead 0x0011 ∧ refused .memFill .memFill 0x0011 ∧ refused .scrub .scrub 0x0011) ∧
     (bad p.payload.length → refused .memWrite .memWrite 0x0011) ∧
     (others (p.at_ 8 8) → refused .memRead .memRead 0x0012 ∧ refused .memFill .memFill 0x0012 ∧ refused .scrub .scrub 0x0012) ∧
     (others p.payload.length → refused .memWrite .memWrite 0x0012)) ∧
    (let q := p.at_ 0 1
     (free (getQueue s q).owner p = false →
      refused .sqConfig .sqConfig 0x0012 ∧ refused .sqWrite .sqWrite 0x0012 ∧ refused .sqRead .sqRead 0x0012 ∧ refused .sqMark .sqMark 0x0012 ∧
      refused .sqRewind .sqRewind 0x0012 ∧ refused .sqRelease .sqRelease 0x0012 ∧ refused .sqFlush .sqFlush 0x0012 ∧
      refused .sqReset .sqReset 0x0012) ∧
     (free (getQueue s q).owner p = true → ingressOf s q = true →
      refused .sqMark .sqMark 0x0011 ∧ refused .sqRewind .sqRewind 0x0011 ∧ refused .sqRelease .sqRelease 0x0011 ∧
      refused .sqFlush .sqFlush 0x0011 ∧ refused .sqReset .sqReset 0x0011)) ∧
    (let m := p.at_ 0 1
     let all (st : Nat) : Prop := refused .macConfig .macConfig st ∧ refused .macFilter .macFilter st ∧ refused .gateListLoad .gateListLoad st ∧
        refused .extractConfig .extractConfig st ∧ refused .replyConfig .replyConfig st ∧ refused .countersRead .countersRead st ∧
        refused .ptpPortConfig .ptpPortConfig st
     (64 ≤ m → all 0x0011) ∧
     (m < 64 → free (macOwner s m) p = false → all 0x0012) ∧
     (m < 64 → free (macOwner s m) p = true → macPresent s m = false →
       refused .countersRead .countersRead 0x0011 ∧ refused .ptpPortConfig .ptpPortConfig 0x0011 ∧
       ((∀ q, (q ∈ (List.range 8).map (fun c => p.at_ (8 + c) 1) ∨ q = p.at_ 4 1 ∨ q = p.at_ 5 1) → free (getQueue s q).owner p = true) →
         refused .macConfig .macConfig 0x0011)) ∧
     (8 ≤ m → refused .templateLoad .templateLoad 0x0011) ∧
     (m < 8 → free (getEPort s m).owner p = false → refused .templateLoad .templateLoad 0x0012))

/-! ### The fabric: configuration (R297, R305, R311, R314) -/

/-- FABRIC_CONFIG sets coordinate, sizes, bridge and members; REDUCE_GROUP enables a channel, claimed by its session and empty, or disables
it; LANE_CONTROL retrains a lane, or sets or clears FAILED; FPORT_POWER sends an active port on its way to DEEP, and wakes one that is not
active. Each by a session that may, of any operands that R314 admits. A lane that leaves a search lets it go on without it, which may end it
for other lanes too; in a thermal stop a lane trains once its laser is lit again (log entry 34). -/
def Obligations.FabricCommands : Prop :=
  ∀ (p : Packet) (s : State),
    (servedAtOnce .fabricConfig p s = true →
      let c : BitVec 16 := BitVec.ofNat 16 (p.at_ 0 2)
      let z := { s with fabric := { s.fabric with sizes := BitVec.ofNat 16 (p.at_ 2 2) } }
      let ms : List (BitVec 16) := (List.range (p.payload.length / 2)).map (fun i => BitVec.ofNat 16 (leAt p.payload (2 * i) 2))
      (∀ q < 40, (getPort s q).role = 1 ∨ (getPort s q).role = 2 → free (getPort s q).owner p = true) → p.payload.length % 2 = 0 →
      inSizes z c = true → (∀ k ∈ ms, inSizes z k = true) → s.fabric.channels.any (fun kv => kv.2.enabled) = false →
      (p.bits 4 0 1 = 1 → (∃ q < 40, (getPort s q).role = 3) ∧ 1 ≤ ms.length ∧ ms.length ≤ 64 ∧ c ∈ ms) →
      exec (.fabricConfig p) s = .next { s with
        host := answeredHost .fabricConfig p {} s
        fabric := { s.fabric with coord := some c, sizes := BitVec.ofNat 16 (p.at_ 2 2), isBridge := p.bits 4 0 1 == 1, members := ms } }) ∧
    (∀ c, servedAtOnce .reduceGroup p s = true → let k := p.at_ 0 1
      let box : W32 := BitVec.ofNat 32 (p.at_ 2 4)
      k < 64 → free (getChan s k).owner p = true → s.fabric.coord = some c → (List.range 4).all (fun j => decide (boxLen box j ≤ sizeOf s j)) = true →
      inBox s box c = true → channelBound s k = false →
      let y : Channel := if p.bits 1 0 1 = 1 then { enabled := true, owner := claim (getChan s k).owner p, box := box } else { box := box }
      exec (.reduceGroup p) s = .next { s with
        host := answeredHost .reduceGroup p {} s, fabric := { s.fabric with channels := Table.set {} s.fabric.channels k y } }) ∧
    (servedAtOnce .laneControl p s = true → let q := p.at_ 0 1
      let l := p.at_ 1 1
      let a := p.at_ 2 1
      let x := getPort s q
      q < 40 → l ≤ 8 → a ≤ 2 → free x.owner p = true →
      ((linkPorts (inService .laneControl p s) p).contains q = true → a = 2 ∨ lanesLeft x l = true) →
      ∃ t, exec (.laneControl p) s = .next t ∧ Answered .laneControl p {} s t ∧ (∀ j, j ≠ q → getPort t j = getPort s j) ∧
        (∀ j, j ≠ l → ((getPort t q).lane j).tx = (x.lane j).tx ∧ (x.searchAt = none → (getPort t q).lane j = x.lane j)) ∧
        t = { s with host := t.host, fabric := { s.fabric with ports := t.fabric.ports } } ∧
        (let k := (getPort t q).lane l
         (a = 0 → x.role ≠ 0 → x.power ≠ .deep → k.tx = (if s.power.estop = some .thermal then .off else .train) ∧ k.rx = (if (x.lane l).failed then .off else .acquire) ∧
           k.failed = (x.lane l).failed) ∧
         (a = 1 → k.failed = true ∧ k.rx = .off ∧ k.tx = (x.lane l).tx) ∧
         (a = 2 → k.tx = (x.lane l).tx ∧ (x.searchAt = none → k.failed = false) ∧
           (x.searchAt = none → x.role ≠ 0 → x.power ≠ .deep → k.rx = (if (x.lane l).rx = .off then .acquire else (x.lane l).rx))))) ∧
    (servedAtOnce .fportPower p s = true → let q := p.at_ 0 1
      let x := getPort s q
      let woken : FPort := { x with autoWake := p.bits 2 0 1 == 1 }
      let put (y : FPort) : State := { s with fabric := { s.fabric with ports := Table.set {} s.fabric.ports q y } }
      q < 40 → p.at_ 1 1 ≤ 1 → free x.owner p = true → x.role ≠ 0 → (linkPorts (inService .fportPower p s) p).contains q = false →
      (p.at_ 1 1 = 1 → x.power = .active →
        ∃ t, exec (.fportPower p) s = .next t ∧ t = { s with host := begunHost .fportPower p id s, fabric := { s.fabric with ports := t.fabric.ports } } ∧
          (∀ j, j ≠ q → getPort t j = getPort s j) ∧ getPort t q = { woken with power := .entering, entered := s.clk.tticks }) ∧
      (p.at_ 1 1 = 1 → x.power ≠ .active → x.txAsleep = true →
        exec (.fportPower p) s = .next { put woken with host := answeredHost .fportPower p { isPartial := !x.rxAsleep } s }) ∧
      (p.at_ 1 1 = 1 → x.power ≠ .active → x.txAsleep = false →
        exec (.fportPower p) s = .next { put woken with host := begunHost .fportPower p id s }) ∧
      (p.at_ 1 1 = 0 → x.power = .active → exec (.fportPower p) s = .next { put woken with
        host := if x.txState = .up ∧ x.rxState = .up then answeredHost .fportPower p {} s else begunHost .fportPower p id s }) ∧
      (p.at_ 1 1 = 0 → x.power ≠ .active →
        ∃ t, exec (.fportPower p) s = .next t ∧ t = { s with host := t.host, fabric := { s.fabric with ports := t.fabric.ports } } ∧
          (∀ j, j ≠ q → getPort t j = getPort s j) ∧ (getPort t q).power = .active ∧ (getPort t q).autoWake = (p.bits 2 0 1 == 1) ∧
          (getPort t q).txAsleep = false ∧ (getPort t q).rxAsleep = false ∧
          (∀ l < 9, ((getPort t q).lane l).tx = (if s.power.estop = some .thermal then .off else .train) ∧ ((getPort t q).lane l).rx = (if (x.lane l).failed then .off else .acquire)) ∧
          findFlight t s.host.nextId = some (taken .fportPower p s)))

/-! ### The arbor: commands (R233 to R236) -/

/-- Commands of the arbor complete for every operand that R235 admits: ARB_LOAD and ARB_VERIFY begin and clear VERIFIED; ARB_MODE sets a mode
that the engine may take; ARB_TCAM_LOAD stores its predicates or entries; ARB_ENSEMBLE forms an ensemble, claiming its engines, or removes
one; ARB_EVAL stages its features or, with the last of them, enters a sample, or waits for the end of an emergency stop (log entry 16). -/
def Obligations.ArborCommands : Prop :=
  ∀ (p : Packet) (s : State), let e := p.at_ 0 1
    let x := getEngine s e
    let b := p.payload
    e < 64 → free x.owner p = true →
    (servedAtOnce .arbLoad p s = true →
      let fits : Prop := x.mode ≠ .node ∧ b ≠ [] ∧ b.length % 8 = 0 ∧ b.length ≤ 4096 ∧ p.at_ 1 4 + b.length / 8 ≤ 196608
      (fits → exec (.arbLoad p) s = .next { s with
        host := begunHost .arbLoad p (fun g => { g with total := b.length / 8 }) s
        arbor := { s.arbor with engines := Table.set {} s.arbor.engines e { x with verified := false } } }) ∧
      (¬fits → exec (.arbLoad p) s = answers .arbLoad p { status := 0x0011 } s)) ∧
    (servedAtOnce .arbVerify p s = true →
      (∀ first, ensembleOf s e = some first → ∃ n, exec (.arbVerify p) s = .next { s with
        host := begunHost .arbVerify p (fun g => { g with total := n }) s
        arbor := { s.arbor with engines := Table.set {} s.arbor.engines e { x with verified := false } } }) ∧
      (ensembleOf s e = none → exec (.arbVerify p) s = answers .arbVerify p { status := 0x0011 } s)) ∧
    (servedAtOnce .arbMode p s = true → let ok (m : EngMode) : State := { s with
        host := answeredHost .arbMode p {} s, arbor := { s.arbor with engines := Table.set {} s.arbor.engines e { x with mode := m } } }
      (p.at_ 1 1 = 0 → x.mode ≠ .retired → exec (.arbMode p) s = .next (ok .idle)) ∧
      (p.at_ 1 1 = 1 → x.verified = true → exec (.arbMode p) s = .next (ok .node)) ∧
      (p.at_ 1 1 = 2 → x.safeLoaded = true → exec (.arbMode p) s = .next (ok .ternary)) ∧
      (2 < p.at_ 1 1 ∨ (p.at_ 1 1 = 0 ∧ x.mode = .retired) ∨ (p.at_ 1 1 = 1 ∧ x.verified = false) ∨ (p.at_ 1 1 = 2 ∧ x.safeLoaded = false) →
        exec (.arbMode p) s = answers .arbMode p { status := 0x0011 } s)) ∧
    (servedAtOnce .arbTcamLoad p s = true →
      let pred : Bool := p.at_ 4 1 == 0
      let first : Bool := p.bits 1 0 1 == 1
      let last : Bool := p.bits 1 1 1 == 1
      let k := p.at_ 2 2
      let size := if pred then 8 else 144
      let n := b.length / size
      let old := if first then Table.mapAll {} (fun _ t => { t with valid := false }) x.entries else x.entries
      x.mode ≠ .ternary → x.tcamFailed = false → p.at_ 4 1 ≤ 1 → n ≠ 0 → b.length % size = 0 → k + n ≤ (if pred then 512 else 4096) →
      (last = true → 1 ≤ p.at_ 5 2 ∧ p.at_ 5 2 ≤ 16) →
      ∃ t ps es, exec (.arbTcamLoad p) s = .next t ∧
        t = { s with host := answeredHost .arbTcamLoad p {} s, arbor := { s.arbor with engines := t.arbor.engines } } ∧
        (∀ j, j ≠ e → getEngine t j = getEngine s j) ∧
        getEngine t e = { x with
          preds := ps, entries := es
          predicates := if pred then max (if first then 0 else x.predicates) (k + n) else if first then 0 else x.predicates
          trees := if last then p.at_ 5 2 else if first then 0 else x.trees
          safeLoaded := last || (x.safeLoaded && !first) } ∧
        (pred = true → es = old ∧ ∀ i, Table.get {} ps i =
          if k ≤ i ∧ i < k + n then predicateItem (slice b (8 * (i - k)) 8) else Table.get {} x.preds i) ∧
        (pred = false → ps = x.preds ∧ ∀ i, Table.get {} es i =
          if k ≤ i ∧ i < k + n then entryItem (slice b (144 * (i - k)) 144) else Table.get {} old i)) ∧
    (servedAtOnce .arbEnsemble p s = true → ensembleBound s e = false →
      let n := p.at_ 1 1
      let old := (getEns s e).engines
      let only (t : State) : Prop := t = { s with
          host := answeredHost .arbEnsemble p {} s, fresh := t.fresh, eth := t.eth
          arbor := { s.arbor with engines := t.arbor.engines, ensembles := t.arbor.ensembles } } ∧
        ((∀ m ∈ (getEns s e).samples, ∀ k j, m.source ≠ .frame k j) → t.eth = s.eth ∧ t.fresh = s.fresh) ∧
        (∀ j, j ≠ e → getEns t j = getEns s j)
      (n = 0 → old ≠ 0 → (∀ i < old, free (getEngine s (e + i)).owner p = true) →
        ∃ t, exec (.arbEnsemble p) s = .next t ∧ only t ∧ getEns t e = {} ∧ (∀ i < old, getEngine t (e + i) = { getEngine s (e + i) with owner := none }) ∧
          (∀ j, j < e ∨ e + old ≤ j → getEngine t j = getEngine s j)) ∧
      (n ≠ 0 → e + n ≤ 64 → (∀ i < n, free (getEngine s (e + i)).owner p = true) → 1 ≤ p.at_ 2 2 → p.at_ 2 2 ≤ 4096 → 1 ≤ p.at_ 4 1 →
        p.at_ 4 1 ≤ 23 → b.length = 4 * n → (∀ i < n, leAt b (4 * i) 4 ≤ 8191) →
        (∀ i < n, ensembleOf s (e + i) = none ∨ ensembleOf s (e + i) = some e) →
        ∃ t, exec (.arbEnsemble p) s = .next t ∧ only t ∧
          getEns t e = { engines := n, features := p.at_ 2 2, depth := p.at_ 4 1, base := BitVec.ofNat 32 (p.at_ 8 4) } ∧
          (∀ i < n, let y := getEngine s (e + i)
            getEngine t (e + i) = { y with mode := if y.mode = .retired then .retired else .idle, verified := false
                                           root := leAt b (4 * i) 4, owner := claim y.owner p }) ∧
          (∀ i, n ≤ i → i < old → let y := getEngine s (e + i)
            getEngine t (e + i) = { y with mode := if y.mode = .retired then .retired else .idle }) ∧
          (∀ j, j < e ∨ (e + n ≤ j ∧ e + old ≤ j) → getEngine t j = getEngine s j))) ∧
    (servedAtOnce .arbEval p s = true →
      let z := getEns s e
      let staged := if p.at_ 2 2 = 0 then [] else z.staging
      let all := staged ++ bytesW32 b
      let put (t : State) (y : Ensemble) : Prop := t = { s with host := t.host, arbor := { s.arbor with ensembles := t.arbor.ensembles } } ∧
        getEns t e = y ∧ ∀ j, j ≠ e → getEns t j = getEns s j
      z.engines ≠ 0 → b.length % 4 = 0 → b ≠ [] → p.at_ 2 2 = staged.length → all.length ≤ z.features →
      (p.bits 1 0 1 = 0 → exec (.arbEval p) s = .next { s with
        host := answeredHost .arbEval p {} s, arbor := { s.arbor with ensembles := Table.set {} s.arbor.ensembles e { z with staging := all } } }) ∧
      (p.bits 1 0 1 = 1 → all.length < z.features ∨ 64 ≤ z.slots → exec (.arbEval p) s = answers .arbEval p { status := 0x0011 } s) ∧
      (p.bits 1 0 1 = 1 → all.length = z.features → z.slots < 64 → ∃ t, exec (.arbEval p) s = .next t ∧
        t.host = begunHost .arbEval p (fun g => { g with stage := if s.arbor.stopped then 1 else 0, acc := all.map BitVec.toNat }) s ∧
        (s.arbor.stopped = true → put t { z with staging := [] }) ∧
        (s.arbor.stopped = false → put t { z with
          staging := [], seq := (z.seq + 1) % 65536
          samples := z.samples ++ [{ source := .command s.host.nextId, features := all, at_ := s.canopy.now, seq := z.seq % 65536 }] })))

/-- The step of an ARB_LOAD in progress, the only operation in flight, writes at least one of its words to the node memory, from where the
last step ended, and completes OK at the last; an engine that is loaded is not verified. Tokens join the sample, which is complete with its
last feature; the oldest complete sample starts, with the sum of its leaves or, poisoned, a NaN; its result leaves at its contract cycle,
or later and then counted. The size of a step is free (log entry 11); an early result row does nothing (log entry 8). -/
def Obligations.ArborOperationsAdvance : Prop :=
  (∀ (s : State) (f : Flight) (found : List Nat), s.host.flights = [f] → f.phase = .active → f.aborting = false → f.pkt.flags = 0 →
    f.op = .arbLoad → f.total = f.pkt.payload.length / 8 → f.pkt.payload.length % 8 = 0 → f.progress < f.total →
    let e := f.pkt.at_ 0 1
    ∃ n t, 1 ≤ n ∧ n ≤ f.total - f.progress ∧ exec (.longOperationStep f.id found) s = .next t ∧
      (getEngine t e).verified = false ∧ (∀ j, j ≠ e → getEngine t j = getEngine s j) ∧
      (∀ k, k < n → Table.get {} (getEngine t e).nodes (f.pkt.at_ 1 4 + f.progress + k) = { data := (bytesW64 f.pkt.payload).getD (f.progress + k) 0 }) ∧
      (∀ a, (a < f.pkt.at_ 1 4 + f.progress ∨ f.pkt.at_ 1 4 + f.progress + n ≤ a) →
        Table.get {} (getEngine t e).nodes a = Table.get {} (getEngine s e).nodes a) ∧
      (f.progress + n = f.total → ∃ g, t.host.flights = [g] ∧ g.phase = .done s.clk.cclk { progress := f.total }) ∧
      t = { s with host := t.host, fresh := t.fresh, arbor := { s.arbor with engines := t.arbor.engines } }) ∧
  (∀ (s : State) (e : Nat), e < 64 → (getEns s e).engines ≠ 0 → s.arbor.stopped = false → s.arbor.toReply = [] → s.canopy.paused = false →
    let x := getEns s e
    let set (y : Ensemble) : Table Ensemble := Table.set {} s.arbor.ensembles e y
    (∀ (w : WireTok) (ws : List WireTok), getEdge s 3 e = w :: ws → w.at_ + 1 ≤ s.canopy.now →
      Table.get 0 s.canopy.taken (edgeKey 3 e) ≠ s.canopy.now + 1 →
      (64 ≤ x.slots → exec (.arbSampleToken e) s = .next s) ∧
      (x.slots < 64 →
        let m : Sample := x.gathering.getD { source := .endpoint, features := [] }
        let fs := m.features ++ [BitVec.ofNat 32 (lane w.tok.data 32 0), BitVec.ofNat 32 (lane w.tok.data 32 1)]
        let m' : Sample := { m with features := fs.take x.features, poison := m.poison || w.tok.poison, at_ := s.canopy.now }
        ∃ t y, exec (.arbSampleToken e) s = .next t ∧ getEdge t 3 e = ws ∧
          t = { s with arbor := { s.arbor with ensembles := set y }, canopy := { s.canopy with
            edges := t.canopy.edges, taken := t.canopy.taken, tiles := t.canopy.tiles } } ∧
          (fs.length < x.features → y = { x with gathering := some m' }) ∧
          (x.features ≤ fs.length → m.source = .endpoint → y = { x with
            gathering := none, samples := x.samples ++ [{ m' with seq := x.seq % 65536 }], seq := (x.seq + 1) % 65536 }))) ∧
    (∀ (m : Sample) (ms : List Sample), x.samples = m :: ms → m.started = none → x.startedAt ≠ some s.canopy.now →
      let begun (tok : W64) (poison : Bool) : Table Ensemble := set { x with
        startedAt := some s.canopy.now, samples := { m with started := some (s.canopy.now, tok, poison) } :: ms }
      (m.poison = true → exec (.arbSampleStart e) s = .next { s with arbor := { s.arbor with
        ensembles := begun (resultToken (nanCode 23) m.seq false false) true, poison := satAdd s.arbor.poison 1 } }) ∧
      (m.poison = false → (∃ i, i < x.engines ∧ ((getEngine s (e + i)).mode = .idle ∨ (getEngine s (e + i)).mode = .retired)) →
        exec (.arbSampleStart e) s = .next { s with arbor := { s.arbor with
          ensembles := begun (resultToken (nanCode 23) m.seq false true) true, failed := satAdd s.arbor.failed 1 } }) ∧
      (m.poison = false → (∀ i, i < x.engines → (getEngine s (e + i)).mode = .node ∧
          (walkNodes (getEngine s (e + i)) m.features 24 (getEngine s (e + i)).root {}).broken = false) →
        let leaves := (List.range x.engines).flatMap (fun i => (walkNodes (getEngine s (e + i)) m.features 24 (getEngine s (e + i)).root {}).leaves)
        ∃ n, exec (.arbSampleStart e) s = .next { s with arbor := { s.arbor with
          ensembles := begun (resultToken (leaves.foldl (fun a l => fAdd32 a l.toNat) x.base.toNat) m.seq false false) false, nodeCorrected := n } }) ∧
      (m.poison = false → (∀ i, i < x.engines → (getEngine s (e + i)).mode = .ternary) →
        let leaves := (List.range x.engines).flatMap (fun i => (ternaryLeaves (getEngine s (e + i)) m.features).1)
        ∃ n, exec (.arbSampleStart e) s = .next { s with arbor := { s.arbor with
          ensembles := begun (resultToken (leaves.foldl (fun a l => fAdd32 a l.toNat) x.base.toNat) m.seq true false) false, tcamMiss := n } })) ∧
    (∀ (m : Sample) (ms : List Sample) (c : Nat) (tok : W64) (poison : Bool), x.samples = m :: ms → m.started = some (c, tok, poison) →
      let gone : Arbor := { s.arbor with
        ensembles := set { x with samples := ms }
        late := if (boundTo s 4 e).isSome && decide (c + x.depth + 6 < s.canopy.now) then satAdd s.arbor.late 1 else s.arbor.late }
      (s.canopy.now < c + x.depth + 6 → m.source ≠ .endpoint → exec (.arbResult e) s = .next s) ∧
      (c + x.depth + 6 ≤ s.canopy.now →
        (∀ u, m.source = .endpoint → edgeDeliver 4 e tok poison s = some u → exec (.arbResult e) s = .next { u with arbor := gone }) ∧
        (m.source = .endpoint → boundTo s 4 e = none → exec (.arbResult e) s = .next { s with arbor := gone }) ∧
        (∀ id, m.source = .command id → exec (.arbResult e) s = .next (complete id { result := w64Bytes tok } { s with arbor := gone })) ∧
        (∀ k n, m.source = .frame k n → exec (.arbResult e) s = .next (takeResult k n tok poison { s with arbor := gone })))))

/-! ### Streams and the trigger: commands (R252, R257 to R259, R434) -/

/-- STREAM_CONFIG empties its endpoint's frames and records and enables or disables it; TRIG_ARM latches the registers of the items it names
and arms them, all or none; TRIG_DISARM disarms them; TRIG_REARM arms each frozen capture that it names and thaws its queue. Each completes
for every operand that R258 and R434 admit, and is refused otherwise: where another session owns the trigger or, of an enabling STREAM_CONFIG,
the E-port or the queue, and where the endpoint, the port, the queue or a register to be latched is not fit. -/
def Obligations.TriggerCommands : Prop :=
  ∀ (p : Packet) (s : State),
    (free s.trig.owner p = false →
      (servedAtOnce .streamConfig p s = true → exec (.streamConfig p) s = answers .streamConfig p { status := 0x0012 } s) ∧
      (servedAtOnce .trigArm p s = true → exec (.trigArm p) s = answers .trigArm p { status := 0x0012 } s) ∧
      (servedAtOnce .trigDisarm p s = true → exec (.trigDisarm p) s = answers .trigDisarm p { status := 0x0012 } s) ∧
      (servedAtOnce .trigRearm p s = true → exec (.trigRearm p) s = answers .trigRearm p { status := 0x0012 } s)) ∧
    (free s.trig.owner p = true →
    (servedAtOnce .streamConfig p s = true → let i := p.at_ 0 1
      let x := { getStream s i with nextSeq := 0, ring := [], frames := [], recent := [], lost := none }
      let put (y : Stream) : Host.Outcome State Fault Refusal := .next { s with
        host := answeredHost .streamConfig p {} s, trig := { s.trig with streams := Table.set {} s.trig.streams i y } }
      let q := p.at_ 3 1
      (15 < i ∨ (boundTo s 8 i).isSome ∨ (boundTo s 8 (16 + i)).isSome → exec (.streamConfig p) s = answers .streamConfig p { status := 0x0011 } s) ∧
      (i ≤ 15 → boundTo s 8 i = none → boundTo s 8 (16 + i) = none →
        (p.bits 4 0 1 = 0 → exec (.streamConfig p) s = put { x with enable := false }) ∧
        (p.bits 4 0 1 = 1 → (p.at_ 1 1 ≤ 7 ∧ free (getEPort s (p.at_ 1 1)).owner p = false) ∨ free (getQueue s q).owner p = false →
          exec (.streamConfig p) s = answers .streamConfig p { status := 0x0012 } s) ∧
        (p.bits 4 0 1 = 1 → (p.at_ 1 1 ≤ 7 → free (getEPort s (p.at_ 1 1)).owner p = true) → free (getQueue s q).owner p = true →
          7 < p.at_ 1 1 ∨ (getEPort s (p.at_ 1 1)).mode ≠ 6 ∨ (getQueue s q).writer ≠ 3 ∨ (getQueue s q).reader ≠ 1 ∨
            (getQueue s q).circular = true ∨ (getQueue s q).vaults ≠ 0 ∨ queueBound s q = true ∨
            (∃ j < 16, j ≠ i ∧ (getStream s j).enable = true ∧ (getStream s j).port = p.at_ 1 1 ∧
              (getStream s j).mask &&& BitVec.ofNat 8 (p.at_ 2 1) ≠ 0) →
          exec (.streamConfig p) s = answers .streamConfig p { status := 0x0011 } s) ∧
        (p.bits 4 0 1 = 1 → p.at_ 1 1 ≤ 7 → free (getEPort s (p.at_ 1 1)).owner p = true → free (getQueue s q).owner p = true →
          (getEPort s (p.at_ 1 1)).mode = 6 → (getQueue s q).writer = 3 → (getQueue s q).reader = 1 → (getQueue s q).circular = false →
          (getQueue s q).vaults = 0 → queueBound s q = false →
          (∀ j < 16, j ≠ i → (getStream s j).enable = true → (getStream s j).port = p.at_ 1 1 →
            (getStream s j).mask &&& BitVec.ofNat 8 (p.at_ 2 1) = 0) →
          exec (.streamConfig p) s = put { x with enable := true, port := p.at_ 1 1, mask := BitVec.ofNat 8 (p.at_ 2 1), queue := q }))) ∧
    (let chan (k : Nat) : Prop := k < 64 ∧ p.bits 0 k 1 = 1
     let out (o : Nat) : Prop := o < 4 ∧ p.bits 8 o 1 = 1
     let cap (o : Nat) : Prop := o < 4 ∧ p.bits 8 (4 + o) 1 = 1
     let others (t : State) : Prop := (∀ k, ¬chan k → getChanT t k = getChanT s k) ∧ (∀ o, ¬out o → Machine.getOut t o = Machine.getOut s o) ∧
       (∀ o, ¬cap o → getCap t o = getCap s o)
     let fit : Prop := (∀ k, chan k → (getChanT s k).armed = false ∧ chanOk s (getChanT s k).reg = true) ∧
       (∀ o, out o → let x := Machine.getOut s o
         x.armed = false ∧ x.reg.width ≠ 0 ∧ x.reg.width ≤ x.reg.holdoff) ∧
       (∀ o, cap o → let q := getQueue s (getCap s o).reg.queue
         (getCap s o).state = .idle ∧ q.writer = 4 ∧ q.circular = true ∧ 65 ≤ q.capacity) ∧
       (s.trig.decEnableReg = true → (getQueue s s.trig.decQueueReg).writer = 4)
     (servedAtOnce .trigArm p s = true →
       (¬fit → exec (.trigArm p) s = answers .trigArm p { status := 0x0011 } s) ∧
       (fit → ∃ t, exec (.trigArm p) s = .next t ∧ others t ∧
         t = { s with host := answeredHost .trigArm p {} s, trig := { s.trig with
           chans := t.trig.chans, outs := t.trig.outs, caps := t.trig.caps, decEnable := t.trig.decEnable, decQueue := t.trig.decQueue } } ∧
         ((∃ i, chan i ∨ out i ∨ cap i) → t.trig.decEnable = s.trig.decEnableReg ∧ t.trig.decQueue = s.trig.decQueueReg) ∧
         (∀ k, chan k → getChanT t k = { getChanT s k with
           cfg := (getChanT s k).reg, armed := true, release := BitVec.ofNat 32 (releaseOf (getChanT s k).reg)
           high := false, changes := [], fires := [] }) ∧
         (∀ o, out o → ∃ d, Machine.getOut t o = { Machine.getOut s o with
             cfg := (Machine.getOut s o).reg, armed := true, holdEnd := 0, evalAt := none, droppedAt := d } ∧
           ∀ i < 16, Table.get 0 d i = (getStream s i).notAccepted) ∧
         (∀ o, cap o → getCap t o = { getCap s o with cfg := (getCap s o).reg, state := .armed, left := 0 }))) ∧
     (servedAtOnce .trigDisarm p s = true →
       ∃ t, exec (.trigDisarm p) s = .next t ∧ others t ∧
         t = { s with host := answeredHost .trigDisarm p {} s, trig := { s.trig with
           chans := t.trig.chans, outs := t.trig.outs, caps := t.trig.caps } } ∧
         (∀ k, chan k → getChanT t k = { getChanT s k with armed := false, high := false, changes := [], fires := [] }) ∧
         (∀ o, out o → Machine.getOut t o = { Machine.getOut s o with armed := false, pulses := [] }) ∧
         (∀ o, cap o → getCap t o = if (getCap s o).state = .frozen then getCap s o else { getCap s o with state := .idle, left := 0 }))) ∧
    (servedAtOnce .trigRearm p s = true →
      let named (o : Nat) : Prop := o < 4 ∧ p.bits 0 o 1 = 1 ∧ (getCap s o).state = .frozen
      ∃ t, exec (.trigRearm p) s = .next t ∧ (∀ o, named o → getCap t o = { getCap s o with state := .armed, left := 0 } ∧
          (getQueue t (getCap s o).cfg.queue).frozen = false) ∧
        (∀ o, ¬named o → getCap t o = getCap s o) ∧ (∀ q, (∀ o, named o → q ≠ (getCap s o).cfg.queue) → getQueue t q = getQueue s q) ∧
        t = { s with host := answeredHost .trigRearm p {} s, queues := t.queues, trig := { s.trig with caps := t.trig.caps } }))

/-! ### The ring log: commands (R214, R215) -/

/-- RING_START by the cases of R215: a bad value, a partition of another session, an active log and a busy partition are refused, and otherwise the
log is active and empty, with the payload's hash, step and capture; RING_STOP closes it and keeps its records;
RING_READ and RING_SEAL_READ answer held entries from an index on; FOLD_READ answers folds of the held step, of its layers or vaults. -/
def Obligations.RingLogCommands : Prop :=
  ∀ (p : Packet) (s : State),
    (servedAtOnce .ringStart p s = true → let b := p.payload
      let q := leAt b 80 1
      let bad : Prop := p.payloadLength ≠ 88 ∨ partDefined s q = false ∨ leAt b 60 4 = 0 ∨ 65536 < leAt b 60 4 ∨ leAt b 60 4 ≤ leAt b 56 4 ∨
        4096 < leAt b 82 2 ∨ (4097 ≤ leAt b 84 2 ∧ leAt b 84 2 ≤ 0xFFFE) ∨ leAt b 81 1 ≠ 0 ∨ leAt b 86 2 ≠ 0
      (bad → exec (.ringStart p) s = answers .ringStart p { status := 0x0011 } s) ∧
      (¬ bad → free (getPart s q).owner p = false → exec (.ringStart p) s = answers .ringStart p { status := 0x0012 } s) ∧
      (¬ bad → free (getPart s q).owner p = true → (s.ring.active = true ∨ (getPart s q).busy = true) →
        exec (.ringStart p) s = answers .ringStart p { status := 0x0011 } s) ∧
      (¬ bad → free (getPart s q).owner p = true → s.ring.active = false → (getPart s q).busy = false →
        ∃ t, exec (.ringStart p) s = .next t ∧ t = { s with host := answeredHost .ringStart p {} s, ring := t.ring } ∧ t.ring.active = true ∧
          t.ring.part = some q ∧ t.ring.openStep = {} ∧ t.ring.nextStep = {} ∧ t.ring.held = {} ∧ t.ring.records = [] ∧ t.ring.seals = [] ∧
          t.ring.nextIndex = 0 ∧ t.ring.skew = false ∧ t.ring.prevHash = slice b 0 48 ∧ t.ring.firstStep = BitVec.ofNat 64 (leAt b 48 8) ∧
          t.ring.capture = leAt b 84 2 ∧ t.ring.signInterval = leAt b 82 2 ∧ t.ring.lost = s.ring.lost)) ∧
    (ringForeign s p.session.toNat = false →
      (servedAtOnce .ringStop p s = true → exec (.ringStop p) s = .next { s with
        host := answeredHost .ringStop p {} s
        ring := { s.ring with active := false, folds := [], cuts := [], openStep := {}, nextStep := {} } }) ∧
      (servedAtOnce .ringSealRead p s = true → s.ring.part.isSome = true → 1 ≤ p.at_ 8 1 → p.at_ 8 1 ≤ 16 →
        let got := (s.ring.seals.filter (fun r => decide (p.at_ 0 8 ≤ r.index))).take (p.at_ 8 1)
        exec (.ringSealRead p) s = answers .ringSealRead p { isPartial := decide (got.length < p.at_ 8 1)
                                                             progress := if got.length < p.at_ 8 1 then got.length else 0
                                                             payload := got.flatMap (fun r => r.bytes) } s) ∧
      (servedAtOnce .ringRead p s = true → s.ring.part.isSome = true → 1 ≤ p.at_ 8 1 → p.at_ 8 1 ≤ 16 →
        let got := (s.ring.records.filter (fun r => decide (p.at_ 0 8 ≤ r.index))).take (p.at_ 8 1)
        let kept := s.ring.records.map (fun r => if got.any (fun x => x.index == r.index) then { r with read := true } else r)
        let rep : Reply := { isPartial := decide (got.length < p.at_ 8 1), progress := if got.length < p.at_ 8 1 then got.length else 0
                             payload := got.flatMap (fun r => r.bytes) }
        exec (.ringRead p) s = .next { s with host := answeredHost .ringRead p rep s, ring := { s.ring with records := kept } }) ∧
      (∀ q, servedAtOnce .foldRead p s = true → s.ring.part = some q →
        let n := p.at_ 6 4
        let held := if p.at_ 0 1 = 0 then s.ring.held.table else if p.at_ 0 1 = 1 then s.ring.held.vstep else s.ring.held.vcap
        let fit : Prop := p.at_ 0 1 ≤ 2 ∧ 1 ≤ n ∧ n ≤ 511 ∧ ∀ i < n,
          if p.at_ 0 1 = 0 then p.at_ 2 4 + i < layersOf s q ∨ p.at_ 2 4 + i = 4096 else p.at_ 2 4 + i < (getPart s q).vaultCount
        (fit → exec (.foldRead p) s = answers .foldRead p
          { payload := w64Bytes (s.ring.heldStep.getD 0xFFFFFFFFFFFFFFFF) ++
              (List.range n).flatMap (fun i => w64Bytes (Table.get 0 held (p.at_ 2 4 + i))) } s) ∧
        (¬fit → exec (.foldRead p) s = answers .foldRead p { status := 0x0011 } s)) ∧
      (servedAtOnce .foldRead p s = true → s.ring.part = none → exec (.foldRead p) s = answers .foldRead p { status := 0x0011 } s))

/-! ### Power, ageing, profiles and recovery: commands (R369, R376, R379, R399) -/

/-- POWER_STOP outside a stop begins an emergency stop: every partition is aborted, the arbor accepts no sample, and fill holds VCORE's
current; during a stop it only waits for its end. COLUMN_FAIL of an absent column is refused; of the spare that a bay has in use, or of a
column already grafted, it is answered OK; the first failure of a bay makes a graft pending, and a further one a retirement, with RETIRE,
or is refused. -/
def Obligations.PowerAndSparingCommands : Prop :=
  ∀ (p : Packet) (s : State),
    (servedAtOnce .powerStop p s = true → (s.power.estop.isSome = true → exec (.powerStop p) s = begins .powerStop p id s) ∧
      (s.power.estop = none → ∃ t, exec (.powerStop p) s = .next t ∧ t.power.estop = some .command ∧ t.power.ramp = vcoreMa s ∧
        t.power.fill = [] ∧ t.power.fillOn = 0 ∧ t.arbor.stopped = true ∧ (∀ q < 8, (getPart t q).busy = false) ∧ t.time = s.time ∧
        t.vaults = s.vaults ∧ t.flash = s.flash ∧ t.boot = s.boot ∧ findFlight t s.host.nextId = some (taken .powerStop p s))) ∧
    (servedAtOnce .columnFail p s = true → let col := p.at_ 0 2
      let b := col / 33
      let g := graftOf s b
      let gone : BitVec 20 := s.power.noSpare ||| (1#20 <<< b)
      let fails (t : State) : Prop := exec (.columnFail p) s = .next t ∧ Answered .columnFail p {} s t ∧ t = { s with host := t.host, power := t.power }
      (659 < col ∨ g.retired = true → exec (.columnFail p) s = answers .columnFail p { status := 0x0011 } s) ∧
      (col ≤ 659 → g.retired = false → (physBayParts s b).any (fun q => partForeign s q p.session.toNat) = true →
        exec (.columnFail p) s = answers .columnFail p { status := 0x0012 } s) ∧
      (col ≤ 659 → g.retired = false → (physBayParts s b).any (fun q => partForeign s q p.session.toNat) = false →
        (g.failedPos < 32 → col % 33 = g.failedPos → exec (.columnFail p) s = answers .columnFail p {} s) ∧
        (g.failedPos = 32 → col % 33 = 32 → Table.get none s.power.pendGraft b = none → ∃ t, fails t ∧ t.power = { s.power with noSpare := gone }) ∧
        (¬(g.failedPos < 32 ∧ col % 33 = g.failedPos) → ¬(g.failedPos = 32 ∧ col % 33 = 32 ∧ Table.get none s.power.pendGraft b = none) →
          (s.power.noSpare.getLsbD b = false → ∃ t, fails t ∧ t.power = { s.power with
            noSpare := gone, pendGraft := Table.set none s.power.pendGraft b (some col) }) ∧
          (s.power.noSpare.getLsbD b = true → p.bits 2 0 1 = 0 → exec (.columnFail p) s = answers .columnFail p { status := 0x0040 } s) ∧
          (s.power.noSpare.getLsbD b = true → p.bits 2 0 1 = 1 → Table.get none s.power.pendRetire b = none → ∃ t, fails t ∧
            t.power = { s.power with pendRetire := Table.set none s.power.pendRetire b (some col) }))))

/-- FW_RECOVER is refused outside recovery; in recovery its first piece claims the recovery and begins the image, a further piece adds to it,
a piece at another offset is refused, and a piece of another link than the claim's is refused DENIED. The last piece ends the claim, and where
the image is valid boot restarts once the reply has left, and no other piece is taken. How sessions and links are read in recovery is log
entry 15, when boot restarts log entry 10. -/
def Obligations.FirmwareRecovery : Prop :=
  ∀ (p : Packet) (s : State), servedAtOnce .fwRecover p s = true →
    let link := (p.src, p.origin)
    let image := (if s.boot.claim = none then [] else s.flash.firmware) ++ p.payload
    let put (r : Reply) (fl : Flash) (bo : Boot) : Host.Outcome State Fault Refusal :=
      .next { s with host := answeredHost .fwRecover p r s, flash := { fl with firmware := image }, boot := bo }
    let ended : Boot := { s.boot with claim := none, received := 0 }
    (s.boot.stage ≠ .recovery ∨ s.boot.restart = true → exec (.fwRecover p) s = answers .fwRecover p { status := 0x0011 } s) ∧
    (s.boot.stage = .recovery → s.boot.restart = false → s.boot.claim.isSome = true → s.boot.claim ≠ some link →
      exec (.fwRecover p) s = answers .fwRecover p { status := 0x0012 } s) ∧
    (s.boot.stage = .recovery → s.boot.restart = false → (s.boot.claim = none ∨ s.boot.claim = some link) →
      (p.payload = [] ∨ 4096 < p.payload.length ∨ p.at_ 0 4 ≠ s.boot.received → exec (.fwRecover p) s = answers .fwRecover p { status := 0x0011 } s) ∧
      (p.payload ≠ [] → p.payload.length ≤ 4096 → p.at_ 0 4 = s.boot.received →
        (p.bits 4 0 1 = 0 → exec (.fwRecover p) s =
          put {} s.flash { s.boot with claim := some link, received := p.at_ 0 4 + p.payload.length }) ∧
        (p.bits 4 0 1 = 1 →
          (fwCheck image s.flash.floor = .invalid → exec (.fwRecover p) s = put { status := 0x0020 } s.flash ended) ∧
          (fwCheck image s.flash.floor = .rollback → exec (.fwRecover p) s = put { status := 0x0011 } s.flash ended) ∧
          (fwCheck image s.flash.floor = .valid → let fl := max s.flash.floor (fwSecVersion image)
            exec (.fwRecover p) s = put {} { s.flash with floor := fl } { ended with restart := true, floor := fl }))))

/-- After a thermal trip, and in recovery, a command other than NOP, IDENTIFY, GET_STATUS and READ_CSR (and FW_RECOVER in recovery) that has
nothing to wait for ends INTERNAL without its effect.
The status is log entry 15. -/
def Obligations.TripAndRecoveryEndCommands : Prop :=
  ∀ (op : Op) (p : Packet) (s : State), let f := arriving op p s
    let u := withFlight f s
    deaf p s = false → p.payload.length = p.payloadLength.toNat → badHeader p = false → refusal op p (noteCommand p s) = none →
    serialsBelow s = true → blocked f u = false → firmwareHeld f u = false → (endings p.session.toNat u).isEmpty = true →
    (s.power.trip = true ∧ op.servedAlways = false) ∨ (s.boot.stage = .recovery ∧ op.servedAlways = false ∧ op ≠ .fwRecover) →
    arrive op p s = { s with host := answeredHost op p { status := 0x00F0 } s }

/-- RESET_DOMAIN of every domain, 1 to 7, by the session that owns what it resets, completes: an operation that uses the domain ends, and the
domain is at reset, but for what log entry 18 keeps, while the command waits to report. Of the ring log or an unknown code, of a port that
the part does not have, of the port of its own link, of the vaults of a running partition, and of what another session owns it is refused. -/
def Obligations.ResetDomainCommand : Prop :=
  ∀ (p : Packet) (s : State), servedAtOnce .resetDomain p s = true →
    let c := p.at_ 0 1
    let k := p.at_ 1 1
    let mine : Prop := (definedParts s).any (fun q => partForeign s q p.session.toNat) = false
    let alone : Prop := ∀ g ∈ s.host.flights, g.phase.isDone = true ∨ usesDomain c k g = false
    let gives (f : State → Prop) : Prop := ∃ t, exec (.resetDomain p) s = .next t ∧ f t ∧ findFlight t s.host.nextId = some (taken .resetDomain p s)
    (c = 0 ∨ 7 < c ∨ (c = 5 ∧ 7 < k) ∨ (c = 6 ∧ 39 < k) → exec (.resetDomain p) s = answers .resetDomain p { status := 0x0011 } s) ∧
    ((1 ≤ c ∧ c ≤ 4 ∧ ¬mine) ∨ (c = 5 ∧ k ≤ 7 ∧ free (getEPort s k).owner p = false) ∨ (c = 6 ∧ k ≤ 39 ∧ free (getPort s k).owner p = false) ∨
        (c = 7 ∧ free s.trig.owner p = false) →
      exec (.resetDomain p) s = answers .resetDomain p { status := 0x0012 } s) ∧
    (c = 6 → k ≤ 39 → free (getPort s k).owner p = true → (linkPorts (inService .resetDomain p s) p).contains k = true →
      exec (.resetDomain p) s = answers .resetDomain p { status := 0x0011 } s) ∧
    (c = 3 → mine → (definedParts s).any (fun q => (getPart s q).busy) = true → exec (.resetDomain p) s = answers .resetDomain p { status := 0x0011 } s) ∧
    (c = 1 → mine → alone → gives (fun t =>
      t = { s with host := begunHost .resetDomain p id s, canopy := { s.canopy with parts := t.canopy.parts, tiles := [], edges := [], taken := [] } } ∧
      ∀ q < 8, (getPart t q).ctxs = [] ∧ (getPart t q).busy = false ∧ (getPart t q).valid = (getPart s q).valid ∧
        (getPart t q).owner = (getPart s q).owner ∧ (getPart t q).log = (getPart s q).log)) ∧
    (c = 2 → mine → alone → gives (fun t =>
      t = { s with host := begunHost .resetDomain p id s, fresh := t.fresh, eth := t.eth, arbor := {
        engines := s.arbor.engines, stopped := s.arbor.stopped
        ensembles := Table.mapAll {} (fun _ x => { x with gathering := none, samples := [] }) s.arbor.ensembles } })) ∧
    (c = 3 → mine → alone → (definedParts s).any (fun q => (getPart s q).busy) = false → gives (fun t =>
      t = { s with host := begunHost .resetDomain p id s, vaults := t.vaults } ∧
      t.vaults.mem = s.vaults.mem ∧ t.vaults.redirects = s.vaults.redirects ∧ t.vaults.retraining = true ∧ t.vaults.eccCorrected = 0)) ∧
    (c = 4 → mine → alone → gives (fun t => t = { s with
      host := begunHost .resetDomain p id s, queues := []
      trig := { s.trig with streams := Table.mapAll {} (fun _ x => { x with frames := [], lost := none }) s.trig.streams } })) ∧
    (c = 5 → k ≤ 7 → free (getEPort s k).owner p = true → alone → gives (fun t =>
      (getEPort t k).templates = [] ∧ (∀ i < 8, getMac t (8 * k + i) = { nextFrame := (getMac t (8 * k + i)).nextFrame }) ∧
      (∀ i < 8, getLane t (8 * k + i) = {}) ∧ t.canopy.parts = s.canopy.parts ∧ t.time = s.time ∧ t.boot = s.boot)) ∧
    (c = 6 → k ≤ 39 → free (getPort s k).owner p = true → alone → (linkPorts (inService .resetDomain p s) p).contains k = false → gives (fun t =>
      (∀ j, j ≠ k → getPort t j = getPort s j) ∧ t = { s with host := t.host, fabric := { s.fabric with ports := t.fabric.ports } } ∧
      (let x := getPort t k
       x.queue = [] ∧ x.retry = [] ∧ x.counts = [] ∧ x.epoch = (getPort s k).epoch + 1 ∧ x.power = .active ∧ x.autoWake = false ∧
         ∀ l < 9, (x.lane l).tx = (if x.role = 0 ∨ s.power.estop = some .thermal then .off else .train) ∧ (x.lane l).rx = (if x.role = 0 then .off else .acquire)))) ∧
    (c = 7 → free s.trig.owner p = true → alone → gives (fun t =>
      t = { s with host := begunHost .resetDomain p id s, queues := t.queues, trig := t.trig } ∧
      (∀ j < 64, (getChanT t j).armed = false) ∧ (∀ o < 4, (Machine.getOut t o).armed = false ∧ (Machine.getOut t o).pulses = []) ∧
      (∀ o < 4, (getCap t o).state = .idle ∧ ((getCap s o).state = .frozen → (getQueue t (getCap s o).cfg.queue).frozen = false)) ∧
      t.trig.suppressed = 0 ∧ t.trig.decLost = 0 ∧ t.trig.capLost = 0 ∧ t.trig.owner = s.trig.owner)) ∧
    (∀ g ∈ s.host.flights, g.phase = .waiting → g.aborting = false → usesDomain c k g = true → (s.host.flights.map (fun h => h.id)).Nodup → mine → c = 2 ∨ c = 4 →
      ∃ t n, exec (.resetDomain p) s = .next t ∧
        findFlight t g.id = some { g with phase := .done s.clk.cclk { status := 0x0002, isPartial := true, progress := n } })

/-! ### Instructions of a tile (R117 to R138) -/

/-- Every integer, compare, select and move instruction of latency 1 COMPLETES in the cycle it issues in, on every operand form (register,
link, scratch, immediate, register or scratch destination), whenever none of R117's cases stops it: it writes its register, predicate or
scratch word and nothing else, and the context moves on. A poisoned operand moves with MOV and SELECT.
The word is the one at the tile's program counter (log entry 37). -/
def Obligations.IntegerInstructionsWriteNow : Prop :=
  ∀ (s : State) (a : At), issues s a = true →
    let e := effectState s a
    let f := fieldsAt s a
    let va := operand s a f.a
    let vb := operand s a f.b
    let n := vb.v.toNat % 64
    let writes (i : Instr) (r : Val) : Prop := ∃ u, exec i s = .next u ∧ Retired e u a (nextPc e a) ∧ WroteNow e u a (destination s a) r
    (f.opc = 0x18 → writes (.iadd a.col a.row) { v := va.v + vb.v }) ∧
      (f.opc = 0x19 → writes (.isub a.col a.row) { v := va.v - vb.v }) ∧
      (f.opc = 0x1A → writes (.and a.col a.row) { v := va.v &&& vb.v }) ∧
      (f.opc = 0x1B → writes (.or a.col a.row) { v := va.v ||| vb.v }) ∧
      (f.opc = 0x1C → writes (.xor a.col a.row) { v := va.v ^^^ vb.v }) ∧
      (f.opc = 0x1D → writes (.shl a.col a.row) { v := va.v <<< n }) ∧
      (f.opc = 0x1E → writes (.shr a.col a.row) { v := va.v >>> n }) ∧
      (f.opc = 0x1F → writes (.sar a.col a.row) { v := va.v.sshiftRight n }) ∧
      (f.opc = 0x21 → writes (.icmp a.col a.row) { v := if icmp (f.mode / 4 % 8) va.v vb.v then 1 else 0 }) ∧
      (f.opc = 0x22 → writes (.select a.col a.row) (if ((getTile e a.col a.row).ctx a.c).pred (fldN f.imm 0 3) then va else vb)) ∧
      (f.opc = 0x28 → writes (.mov a.col a.row) va)

/-- Every vector, conversion, float compare and MX expansion instruction COMPLETES its issue, on every operand form, whenever none of R117's
cases stops it: its result is due in its last cycle (R118, R146), the context moves on, and no register changes before.
The word is the one at the tile's program counter (log entry 37). -/
def Obligations.VectorInstructionsWriteLate : Prop :=
  ∀ (s : State) (a : At), issues s a = true →
    let e := effectState s a
    let f := fieldsAt s a
    let va := (operand s a f.a).v
    let vb := (operand s a f.b).v
    let vc := (operand s a f.c).v
    let writes (i : Instr) (lat : Nat) (r : W64) : Prop :=
      ∃ u, exec i s = .next u ∧ Retired e u a (nextPc e a) ∧ WritesLate e u a (destination s a) lat { v := r }
    let draw := drawAt e a.p vb (((getTile e a.col a.row).ctx a.c).reg f.ireg).v
    (f.opc = 0x10 → writes (.vadd a.col a.row) 4 (laneOp (f.mode % 4) (fun k x y => fpAdd k (fpDec k x) (fpDec k y)) va vb)) ∧
      (f.opc = 0x11 → writes (.vsub a.col a.row) 4 (laneOp (f.mode % 4) (fun k x y => fpAdd k (fpDec k x) (fpDec k y).neg) va vb)) ∧
      (f.opc = 0x12 → writes (.vmul a.col a.row) 4 (laneOp (f.mode % 4) (fun k x y => fpMul k (fpDec k x) (fpDec k y)) va vb)) ∧
      (f.opc = 0x13 → writes (.vfma a.col a.row) 5 (vfma (f.mode % 4) va vb vc)) ∧
      (f.opc = 0x14 → writes (.vmin a.col a.row) 4 (laneOp (f.mode % 4) fpMin va vb)) ∧
      (f.opc = 0x15 → writes (.vmax a.col a.row) 4 (laneOp (f.mode % 4) fpMax va vb)) ∧
      (f.opc = 0x16 → writes (.vfn a.col a.row) (latencyOf f) (ofLanes 32 [vfn (f.mode % 16) (lane va 32 0), vfn (f.mode % 16) (lane va 32 1)])) ∧
      (f.opc = 0x17 → writes (.vcvt a.col a.row) 3 (vcvt (f.mode % 8) draw va)) ∧
      (f.opc = 0x20 → writes (.fcmp a.col a.row) 2 (if fcmp (f.mode % 4) (f.mode / 4 % 8) va vb then 1 else 0)) ∧
      (f.opc = 0x32 →
        let w := mxWidth (f.mode % 8)
        let o := fldN f.imm 0 6
        let x (k : Nat) : Nat := mxTo32 (f.mode % 8) (va.toNat / 2 ^ (o + k * w) % 2 ^ w) (fldN vc (16 * (f.mode / 8 % 4)) 8)
        writes (.mxexp a.col a.row) 3 (ofLanes 32 [x 0, x 1]))

/-- Every control instruction COMPLETES whenever none of R117's cases stops it: NOP moves on; SWITCH to a context that is not EMPTY makes it
active where it issues; WAIT leaves the context waiting from this cycle, met at once where its condition holds; LOOP counts its register down
and jumps while it is 2 or more; SEQSET sets the sequence tags.
The word is the one at the tile's program counter (log entry 37). -/
def Obligations.ControlInstructions : Prop :=
  ∀ (s : State) (a : At), issues s a = true →
    let e := effectState s a
    let t := getTile e a.col a.row
    let f := fieldsAt s a
    let moves (u : State) : Prop := Retired e u a (nextPc e a) ∧ SameRegs e u a ∧ (getTile u a.col a.row).dues = t.dues
    (f.opc = 0x00 → ∃ u, exec (.nopInstr a.col a.row) s = .next u ∧ moves u) ∧
    (f.opc = 0x01 →
      let target := fldN f.imm 0 2
      let k := (getPart e a.p).ctx target
      (target = a.c ∨ k.state ≠ .empty) → ∃ u, exec (.switch a.col a.row) s = .next u ∧ moves u ∧
        (getTile u a.col a.row).active = if target ≠ a.c ∧ issuable e k = true then target else t.active) ∧
    (f.opc = 0x02 →
      let w : Waiting := { since := e.canopy.now, mode := f.mode, imm := f.imm, index := a.index }
      ∃ u, exec (.wait a.col a.row) s = .next u ∧ moves u ∧ ((getTile u a.col a.row).ctx a.c).waiting =
        some { w with met := if waitHolds e.canopy.now t a.c w then some e.canopy.now else none }) ∧
    (f.opc = 0x03 →
      let n := (operand s a f.a).v
      (2 ≤ n.toNat → ∃ u, exec (.loop a.col a.row) s = .next u ∧ Retired e u a (fldN f.imm 0 6) ∧ WroteNow e u a (destination s a) { v := n - 1 }) ∧
      (n.toNat < 2 → ∃ u, exec (.loop a.col a.row) s = .next u ∧ Retired e u a (nextPc e a) ∧ WroteNow e u a (destination s a) {})) ∧
    (f.opc = 0x05 → ∃ u, exec (.seqset a.col a.row) s = .next u ∧ moves u ∧
      let y := (getTile u a.col a.row).ctx a.c
      y.dseqA = f.imm.extractLsb' 0 4 ∧ y.dseqB = f.imm.extractLsb' 4 4 ∧ y.cseq = f.imm.extractLsb' 8 4)

/-- Every instruction that begins something COMPLETES its issue whenever none of R117's cases stops it: LDV, STV and FOLD_CUT enter a request
in the vault queue, for the word their address gives and a service cycle 16 cycles later or after the request before it (R150), an STV with
its scratch read due in the next cycle; DOT and MXCVT occupy their unit until their result is formed. No register changes in the cycle of the
issue, but for the tag that MXCVT steps. The word is the one at the tile's program counter (log entry 37). -/
def Obligations.VaultAndBlockInstructionsBegin : Prop :=
  ∀ (s : State) (a : At), issues s a = true →
    let e := effectState s a
    let t := getTile e a.col a.row
    let f := fieldsAt s a
    let now := e.canopy.now
    let begun (u : State) : Prop := Retired e u a (nextPc e a) ∧ SameRegs e u a
    let service := match t.lastV with
      | some (n, v0) => if (getPart e a.p).start ≤ n then max (now + 16) (v0 + 1) else now + 16
      | none => now + 16
    let enters (i : Instr) (kind : VKind) (word scr : Nat) : Prop :=
      ∃ u, exec i s = .next u ∧ begun u ∧ (getTile u a.col a.row).lastV = some (now, service) ∧
        (getTile u a.col a.row).vq = t.vq ++
          [{ ctx := a.c, kind := kind, index := a.index, word := word, scr := scr, issued := now, service := service }] ∧
        (kind ≠ .store → (getTile u a.col a.row).dues = t.dues) ∧
        (kind = .store → (getTile u a.col a.row).dues =
          (addDue { at_ := now + 1, tag := now, ctx := a.c, index := a.index, op := .storeRead now } t).dues)
    let word := (fldN (operand s a f.a).v 0 32 + f.imm.toNat) % 2 ^ 32
    (f.opc = 0x04 → enters (.foldCut a.col a.row) (.fold (fldN f.imm 0 16)) 0 0) ∧
      (f.opc = 0x2A → enters (.ldv a.col a.row) .load word f.addr) ∧
      (f.opc = 0x2B → enters (.stv a.col a.row) .store word f.addr) ∧
      (f.opc = 0x30 → ∃ u d, exec (.dot a.col a.row) s = .next u ∧ begun u ∧ (getTile u a.col a.row).dot = some d ∧ d.ctx = a.c ∧
        d.issued = now ∧ d.blocks = f.count + 1 ∧ d.dst = f.dst ∧ d.scaleA = (operand s a f.c).v ∧ d.scaleB = (operand s a f.d).v ∧
        d.sum = (if f.mode.testBit 6 then ((t.ctx a.c).reg f.dst).v.extractLsb' 0 32 else 0) ∧
        (getTile u a.col a.row).lanesUntil = now + (f.count + 1) * mxLanes (f.mode % 8) (f.mode / 8 % 8) + 1) ∧
      (f.opc = 0x31 → ∃ u k, exec (.mxcvt a.col a.row) s = .next u ∧ begun u ∧ (getTile u a.col a.row).cvt = some k ∧ k.ctx = a.c ∧
        k.issued = now ∧ k.tag = (t.ctx a.c).cseq ∧ k.dst = f.dst ∧ k.addr = f.addr ∧ k.out = fldN f.imm 0 10 ∧
        ((getTile u a.col a.row).ctx a.c).cseq = (t.ctx a.c).cseq + 1 ∧ (getTile u a.col a.row).vecUntil = now + 5)

/-- Every SEND COMPLETES whenever none of R117's cases stops it, on any operand form and any set of outputs: on each output it names the token
goes on the link in this cycle, to the neighbour or to the endpoint of the edge port, and takes a credit there (but a trigger channel's, which
needs none); no register changes, and no other output carries it.
The word is the one at the tile's program counter (log entry 37). -/
def Obligations.SendPlacesToken : Prop :=
  ∀ (s : State) (a : At), issues s a = true →
    let e := effectState s a
    let f := fieldsAt s a
    let v := operand s a f.a
    f.opc = 0x29 →
    ∃ u, exec (.send a.col a.row) s = .next u ∧ SameRegs e u a ∧ ((getTile u a.col a.row).ctx a.c).pc = BitVec.ofNat 6 (nextPc e a) ∧
      (getTile u a.col a.row).issuedAt = some e.canopy.now ∧ (getTile u a.col a.row).dues = (getTile e a.col a.row).dues ∧
      Placed e u a.p a.col a.row a.c f.mode.testBit { data := v.v, ctx := a.c, poison := v.poison }

/-- Where an instruction does not act, and what it takes where it does. With its predicate false each one only moves on, whatever its other
fields hold. In a tile that may not issue in this cycle, and for another opcode than that at the program counter, a row leaves the state
as it is (the model's choice, log entries 8, 37). An instruction that acts first takes the head token of each link it reads, and frees its
credit; it changes no register, scratch word or output, and counts at most a corrected scratch word. -/
def Obligations.InstructionsThatDoNotAct : Prop :=
  (∀ (s : State) (a : At), standsAt s a = true →
    let w := atIssue a s
    let t := getTile w a.col a.row
    let f := fieldsAt s a
    pendingPred t a.c f.pred = false → (t.ctx a.c).pred f.pred = f.pneg →
    ∃ u, exec (opcodeRow f.opc a.col a.row) s = .next u ∧ Retired w u a (nextPc w a) ∧ SameRegs w u a) ∧
  (∀ (s : State) (col row opc : Nat), isTile col row = true → issuePlace s col row = none → exec (opcodeRow opc col row) s = .next s) ∧
  (∀ (s : State) (a : At) (opc : Nat), standsAt s a = true → opcodeRow opc a.col a.row ≠ opcodeRow (fieldsAt s a).opc a.col a.row →
    exec (opcodeRow opc a.col a.row) s = .next s) ∧
  (∀ (s : State) (a : At), noReadsDue s a = true →
    atIssue a s = updTile a.col a.row (fun t => t.updCtx a.c (fun x => { x with waiting := none })) s) ∧
  (∀ (s : State) (a : At), issues s a = true →
    let w := atIssue a s
    let e := effectState s a
    let t := getTile w a.col a.row
    let v := getTile e a.col a.row
    (∀ d, (v.inp d).queue a.c = if d ∈ (fieldsAt s a).popsAtIssue then ((t.inp d).queue a.c).drop 1 else (t.inp d).queue a.c) ∧
      v = { t with ins := v.ins, claims := v.claims } ∧
      (∀ k, k ≠ tileKey a.col a.row → Table.get {} e.canopy.tiles k = { Table.get {} w.canopy.tiles k with outs := (Table.get {} e.canopy.tiles k).outs }) ∧
      (∀ q, q ≠ a.p → getPart e q = getPart w q) ∧
      getPart e a.p = { getPart w a.p with scratchCorrected := (getPart e a.p).scratchCorrected } ∧
      e = { w with canopy := { w.canopy with tiles := e.canopy.tiles, parts := e.canopy.parts } })

/-- A word that breaks a row of R140's table raises F11 where it issues, whatever its opcode: the context is FAULTED, its partition issues no
more and its edge ports close, and the record names code, tile, context, index, cycle and the row. No more changes than that, but the DRAINs
in flight on the partition, which end. The word is the one at the tile's program counter; that NOP_INSTR is the row of a word whose opcode is
not in the table is the model's choice (log entry 37). -/
def Obligations.IllegalEncodingFaults : Prop :=
  ∀ (s : State) (a : At) (r : Nat) (rs : List Nat), standsAt s a = true → noReadsDue s a = true → predicated s a = true →
    illegalRows (fieldsAt s a) (envOf (atIssue a s) a) = r :: rs →
    let x := getPart s a.p
    (x.ctx a.c).state.issues = true → x.stopped = none → x.firstRec = none → x.log.length < 64 → a.c < 4 →
    ∃ u, exec (opcodeRow (fieldsAt s a).opc a.col a.row) s = .next u ∧ ((getPart u a.p).ctx a.c).state = .faulted ∧ (getPart u a.p).busy = false ∧
      (getPart u a.p).portsClosed = true ∧ (getPart u a.p).stopped = some s.canopy.now ∧
      (∃ e ∈ (getPart u a.p).log, e.code = 0x0B ∧ e.secondary = false ∧ e.col = a.col ∧ e.row = a.row ∧ e.ctx = a.c ∧ e.index = a.index ∧
        e.cycle = s.canopy.now - x.start ∧ e.imageId = (x.ctx a.c).imageId ∧ e.detail = BitVec.ofNat 32 r) ∧
      (∀ q, q ≠ a.p → getPart u q = getPart s q) ∧ SameRegs s u a ∧
      (s.host.flights.all (fun g => g.op != .drain) = true → u.host = s.host) ∧
      u = { s with canopy := { s.canopy with tiles := u.canopy.tiles, parts := u.canopy.parts }, host := u.host }

/-- What a tile does beside its issue, outside a pause: a late result is written in its cycle to its register, predicate or scratch word; every
waiting context whose condition holds within its bound notes it; a context that still issues and is past its bound stops with F09; a token arrives in the pass-through
register, in its queue, behind moved ones, or finds no room (F09); freed credits come back; the words of a DOT are taken, the sequence counters
moving with a block's first, and a block that has its last word joins the sum; a pass-through token departs on all its outputs. In a pause none of these rows does anything (R48).
When in its cycle a row acts is log entry 20; how a DOT takes its words, log entry 43. -/
def Obligations.TileEventsAct : Prop :=
  (∀ (s : State) (col row dir ctx : Nat) (ok : Bool), isTile col row = true → dir < 4 → ctx < 4 → s.canopy.paused = true →
    exec (.lateResult col row) s = .next s ∧ exec (.waitConditionMet col row) s = .next s ∧ exec (.waitBoundExpiry col row) s = .next s ∧
    exec (.tokenArrival col row dir ok) s = .next s ∧ exec (.passTokenDepart col row dir ctx) s = .next s ∧ exec (.creditReturn col row dir) s = .next s ∧
    exec (.dotBlock col row) s = .next s ∧ exec (.vaultService col row) s = .next s ∧ exec (.vaultLoadReturn col row) s = .next s) ∧
  ∀ (s : State) (col row p : Nat), isTile col row = true → partOf s col = some p → s.canopy.paused = false →
    let t := getTile s col row
    let now := s.canopy.now
    let x := getPart s p
    let only (u : State) : Prop := u = { s with canopy := { s.canopy with tiles := u.canopy.tiles, parts := u.canopy.parts }, host := u.host } ∧
      ∀ k, k ≠ tileKey col row → Table.get {} u.canopy.tiles k = Table.get {} s.canopy.tiles k
    let fixed (c : Nat) : Bool := (x.ctx c).image.fixedClass
    (∀ (d : Due) (dst : LateDst) (v : Val), dueAlone s col row d (fun d => match d.op with | .late _ _ => true | _ => false) → d.op = .late dst v →
      writesOpen s col row = true →
      (∀ w, dst = .scratch w → writesWord s p col row 0 d.ctx d.tag w = true) → (∀ w, dst = .block w → writesWord s p col row 5 d.ctx d.tag w = true) →
      ∃ u, exec (.lateResult col row) s = .next u ∧ OnlyTile s u col row ∧ (getTile u col row).dues = t.dues.erase d ∧
        Wrote t (getTile u col row) d.ctx dst v) ∧
    (t.dues.all (fun d => !(decide (d.at_ ≤ now) && d.op.isRead)) = true →
      ∃ u, exec (.waitConditionMet col row) s = .next u ∧ OnlyTile s u col row ∧
        (∀ c w, c < 4 → t.endedAt ≠ some now → (t.ctx c).waiting = some w → w.met = none → (fixed c = true → now ≤ w.since + fldN w.imm 16 16) →
          (getTile u col row).ctx c = { t.ctx c with waiting := some { w with met := if waitHolds now t c w then some now else none } }) ∧
        (∀ c, c < 4 → (∀ w, (t.ctx c).waiting = some w → w.met ≠ none) → (getTile u col row).ctx c = t.ctx c)) ∧
    (∀ (c : Nat) (w : Waiting), c < 4 → t.dues.all (fun d => !(decide (d.at_ ≤ now) && d.op.isRead)) = true →
      (∀ d, d < 4 → d ≠ c → (t.ctx d).waiting = none) → (t.ctx c).waiting = some w → w.met = none → fixed c = true → (x.ctx c).state.issues = true →
      issuable s (x.ctx c) = true → w.since + fldN w.imm 16 16 < now →
      ∃ u, exec (.waitBoundExpiry col row) s = .next u ∧ only u ∧ ((getPart u p).ctx c).state = .faulted ∧ (getPart u p).busy = false ∧
        ((getTile u col row).ctx c).waiting = none) ∧
    (∀ (d : Nat) (ok : Bool) (w : WireTok) (rest : List WireTok), d < 4 → (t.inp d).wire = w :: rest → w.at_ + 1 ≤ now →
      let c := w.tok.ctx
      let l := t.inp d
      let k : Tok := { w.tok with poison := w.tok.poison || !ok }
      let moved := c == 0 && !l.spilled.isEmpty
      let through := routePass (routeOf s p col row c) d && (l.queue c).isEmpty && !moved && l.pass.isNone && tokensMove s p &&
        (selecting (routeOf s p col row c) d).all (fun o => granted s p col row o c && hasCredit s p col row o c)
      let full := decide (l.depth c ≤ (l.queue c).length + (if c == 0 then l.behind.length else 0))
      (x.ctx c).state ≠ .empty → (x.ctx c).state ≠ .loading →
      ∃ u, exec (.tokenArrival col row d ok) s = .next u ∧
        (getPart u p).linkParity = (if ok then x.linkParity else satAdd x.linkParity 1) ∧ ((getTile u col row).inp d).wire = rest ∧
        (through = true → only u ∧ ((getTile u col row).inp d).pass = some k ∧ ((getTile u col row).inp d).queue c = l.queue c) ∧
        (through = false → full = false → moved = true → only u ∧ ((getTile u col row).inp d).behind = l.behind ++ [k] ∧
          ((getTile u col row).inp d).queue c = l.queue c) ∧
        (through = false → full = false → moved = false → only u ∧ ((getTile u col row).inp d).queue c = l.queue c ++ [k]) ∧
        (through = false → full = true → c < 4 → (x.ctx c).state.issues = true →
          ((getPart u p).ctx c).state = .faulted ∧ ((getTile u col row).inp d).queue c = l.queue c)) ∧
    (∀ d, d < 4 → ∃ u, exec (.creditReturn col row d) s = .next u ∧ OnlyTile s u col row ∧
      ((getTile u col row).out d).returns = (t.out d).returns.filter (fun r => decide (now ≤ r.2)) ∧
      ∀ c, ((getTile u col row).out d).used.getD c 0 =
        (t.out d).used.getD c 0 - ((t.out d).returns.filter (fun r => r.1 == c && decide (r.2 + 1 ≤ now))).length) ∧
    (∀ (d : Due) (k : Dot) (j i : Nat) (va vb : List W64) (s1 s2 : State),
      t.dues.filter (fun d => decide (d.at_ ≤ now) && (match d.op with | .dotWord _ _ => true | _ => false)) = [d] → d.op = .dotWord j i → t.dot = some k →
      d.ctx = k.ctx → d.tag = k.issued →
      let wA := mxWords k.fmtA
      let wB := mxWords k.fmtB
      let a : At := { p := p, col := col, row := row, c := d.ctx, index := d.index, tag := d.tag }
      let s0 := updTile col row (fun t => { t with dues := t.dues.erase d }) s
      (i = 0 → fldN k.scaleA (16 * j + 8) 4 = (t.ctx k.ctx).dseqA.toNat ∧ fldN k.scaleB (16 * j + 8) 4 = (t.ctx k.ctx).dseqB.toNat) →
      (k.linkA = none → k.linkB = none → i < wA → i < wB → (k.baseA + j * wA + i) % 4 ≠ (k.baseB + j * wB + i) % 4) →
      (i < wA → dotEmpty (getTile s0 col row) k.ctx k.linkA = false) → (i < wB → dotEmpty (getTile s0 col row) k.ctx k.linkB = false) →
      (if i < wA then ∃ w, dotOperand a k k.linkA k.baseA k.selA 1 (j * wA + i) s0 = (some w, s1) ∧ va = [w] else s1 = s0 ∧ va = []) →
      (if i < wB then ∃ w, dotOperand a k k.linkB k.baseB k.selB 2 (j * wB + i) s1 = (some w, s2) ∧ vb = [w] else s2 = s1 ∧ vb = []) →
      let packed (ws : List W64) : Nat := (ws.zip (List.range ws.length)).foldl (fun acc q => acc + q.1.toNat * 2 ^ (64 * q.2)) 0
      let block := blockResult k.fmtA k.fmtB (fldN k.scaleA (16 * j) 8) (fldN k.scaleB (16 * j) 8) (packed (k.wordsA ++ va)) (packed (k.wordsB ++ vb))
      let sum := BitVec.ofNat 32 (fAdd32 k.sum.toNat block)
      let x2 := (getTile s2 col row).ctx k.ctx
      let x3 := if i = 0 then { x2 with dseqA := x2.dseqA + 1, dseqB := x2.dseqB + 1 } else x2
      ∃ u, exec (.dotBlock col row) s = .next u ∧ OnlyTile s2 u col row ∧
        (i + 1 ≠ max wA wB → (getTile u col row).dot = some { k with wordsA := k.wordsA ++ va, wordsB := k.wordsB ++ vb } ∧
          (getTile u col row).ctx k.ctx = x3) ∧
        (i + 1 = max wA wB → (getTile u col row).ctx k.ctx = x3 ∧
          (j + 1 ≠ k.blocks → (getTile u col row).dot = some { k with sum := sum, wordsA := [], wordsB := [] }) ∧
          (j + 1 = k.blocks → (getTile u col row).dot = none ∧ (getTile u col row).dues =
            (addDue { at_ := k.issued + k.blocks * k.lanes + 5, tag := k.issued, ctx := k.ctx, index := k.index
                      op := .late (.g k.dst) { v := sum.setWidth 64 } } (getTile s2 col row)).dues))) ∧
    (∀ (d c : Nat) (k : Tok), d < 4 → c < 4 → passReady (t.inp d) c = some k → k.ctx = c →
      let route := routeOf s p col row c
      let outs := selecting route d
      let asks (o : Nat) : Option Nat := (sendWants s col row).bind (fun w => if w.2.contains o then some w.1 else none)
      routePass route d = true → outs ≠ [] → tokensMove s p = true →
      (x.byteMode = true → outs.all (fun o => chooses s p col row o (asks o) == some c) = true) →
      (x.byteMode = false → gateOf s p col row c outs false false (readyPasses s p col row ++ (sendWants s col row).toList) = .go) →
      ∃ u, exec (.passTokenDepart col row d c) s = .next u ∧ Placed s u p col row c (fun o => outs.contains o) k ∧
        (((t.inp d).pass.any (fun y => y.ctx == c)) = true → ((getTile u col row).inp d).pass = none ∧ ((getTile u col row).inp d).queue c = (t.inp d).queue c) ∧
        (((t.inp d).pass.any (fun y => y.ctx == c)) = false → ((getTile u col row).inp d).pass = (t.inp d).pass ∧
          ((getTile u col row).inp d).queue c = ((t.inp d).queue c).drop 1))

/-! ### The vaults (R150 to R152, R171 to R178) -/

/-- Vault requests of a tile, loads, stores and FOLD_CUTs, in queue mode and under a contract: the oldest is served when it is its turn (queue
mode), or in its service cycle with no rival and no occupied or calendar bank (padded mode), for 32 or 40 cycles of its bank. A store writes its
word with its poison and joins its fold, a load reads it, a FOLD_CUT cuts the fold. A padded request that meets another is dropped with it, each with F02 of its context, and so is one that meets an
occupied bank. A served load's data lands in its four scratch words. When in its cycle a row acts is log entry 8; when a queue-mode request
is ready and where its rotation starts, log entry 39. -/
def Obligations.VaultRequestsServed : Prop :=
  ∀ (s : State) (col row p : Nat) (r : VReq), isTile col row = true → partOf s col = some p → s.canopy.paused = false →
    let t := getTile s col row
    let x := getPart s p
    let now := s.canopy.now
    let v := vaultOf col row
    let pv := physVault s v
    let bank := 16 * pv + bankOf r.word
    let loc := wordLoc s v r.word
    let read := decodeWord (storedWord s loc)
    let at_ := if x.padded then r.service else now
    let bytes (d : List Val) : List Byte := d.flatMap (fun x => w64Bytes x.v)
    let marked (u : State) (vals : List Val) : Prop := (getTile u col row).vq =
      t.vq.map (fun q => if q.issued == r.issued then { q with loaded := some (at_, vals) } else q)
    let effect (u : State) : Prop :=
      (∀ d, r.kind = .store → r.data = some d → marked u d ∧
        u.vaults.mem = setStored loc (encodeWord (bytes d) (d.any (fun x => x.poison))) s.vaults.mem ∧
        u.ring = (foldStore p v (row % 16) r.word ((d.zip (List.range 4)).foldl (fun a q => a + b2n q.1.poison * 2 ^ q.2) 0) (padTo 32 (bytes d)) s).ring) ∧
      (r.kind = .load → marked u ((bytesW64 read.2.1).map (fun x => { v := x, poison := read.2.2 })) ∧
        u.vaults.mem = s.vaults.mem ∧ u.ring = s.ring) ∧
      (∀ k, r.kind = .fold k → marked u [] ∧ u.vaults.mem = s.vaults.mem ∧ u.ring = (foldCut p v k s).ring) ∧
      u = { s with vaults := u.vaults, ring := u.ring, canopy := { s.canopy with tiles := u.canopy.tiles } }
    let isFold := match r.kind with | .fold _ => true | _ => false
    (nextRequest t = some r → x.padded = false → vaultTurn s pv col row = some (row % 16) → servedNow s pv = false → agedReady s pv = false →
      ∃ u, exec (.vaultService col row) s = .next u ∧ effect u ∧
        (isFold = false → Table.get 0 u.vaults.auxUntil bank = s.clk.aclk + (if s.part.b0 then 32 else 40)) ∧ servedNow u pv = true) ∧
    (nextRequest t = some r → x.padded = true → r.service ≤ now → (r.kind = .store → r.data ≠ none) →
      let slot := x.busy && (r.service - x.start) % 64 == 63
      let clash := !isFold && (decide (r.service < Table.get 0 s.vaults.bankUntil bank) || (x.busy && calendarClash (r.service - x.start) (bankOf r.word)))
      (vaultRivals s col row r ≠ [] →
        ∃ u, exec (.vaultService col row) s = .next u ∧ u.vaults = s.vaults ∧ u.ring = s.ring ∧
          ∀ q ∈ (row, r) :: vaultRivals s col row r, (getTile u col q.1).vq = (getTile s col q.1).vq.filter (fun y => y.issued != q.2.issued) ∧
            (q.2.ctx < 4 → (x.ctx q.2.ctx).state.resident = true → ((getPart u p).ctx q.2.ctx).state = .faulted)) ∧
      (vaultRivals s col row r = [] → ∃ u, exec (.vaultService col row) s = .next u ∧
        (slot = false → clash = false → effect u ∧ (isFold = false → Table.get 0 u.vaults.bankUntil bank = r.service + 40)) ∧
        (slot = true ∨ clash = true → r.ctx < 4 → (x.ctx r.ctx).state.resident = true →
          ((getPart u p).ctx r.ctx).state = .faulted ∧ (getTile u col row).vq = t.vq.filter (fun q => q.issued != r.issued) ∧
          u.vaults = s.vaults ∧ u.ring = s.ring))) ∧
    (∀ (n : Nat) (vals : List Val), r.loaded = some (n, vals) → (∀ q, q ∈ t.vq → q.issued = r.issued → q = r) → r ∈ t.vq →
      t.dues.all (fun d => !(decide (d.at_ ≤ now) && d.op.isRead)) = true → writesOpen s col row = true →
      (x.padded = false → returning s t = some r → (∀ j, j < 4 → writesWord s p col row 3 r.ctx r.issued ((r.scr + j) % 1024) = true) →
        ∃ u, exec (.vaultLoadReturn col row) s = .next u ∧ OnlyTile s u col row ∧ Landed t (getTile u col row) r vals) ∧
      (∀ d, x.padded = true → dueAlone s col row d (fun d => match d.op with | .loadReturn _ => true | _ => false) → d.op = .loadReturn r.issued →
        (∀ j, j < 4 → writesWord s p col row 3 d.ctx d.tag ((r.scr + j) % 1024) = true) →
        ∃ u, exec (.vaultLoadReturn col row) s = .next u ∧ OnlyTile s u col row ∧ Landed t (getTile u col row) r vals))

/-- Upkeep of the vaults: SCRUB_CTRL's enable is written; a refresh that can be served notes its row and occupies its bank, and one that cannot
waits; the background scrub takes the next word of a queued row or of its pass, writes a corrected one back and no other, and moves on; a row
under repair is copied word by word with its poison, the last word ending the repair; a queued row gets the first free spare of its bank, and
one with none stays in use unrepaired. That a scrub visit and a repair take one word a row is log entry 39. -/
def Obligations.VaultUpkeep : Prop :=
  ∀ s : State,
    let only (t : State) : Prop := t = { s with vaults := t.vaults }
    let taken (t : State) (pv bank : Nat) : Prop :=
      Table.get 0 t.vaults.auxUntil (16 * pv + bank) = s.clk.aclk + (if s.part.b0 then 32 else 40) ∧ servedNow t pv = true
    let waits (t : State) : Prop := t = { s with vaults := { s.vaults with auxWait := t.vaults.auxWait } }
    (∀ on, exec (.scrubEnable on) s = .next { s with vaults := { s.vaults with scrubEnable := on } }) ∧
    (∀ v b d r, v < 21120 → b < 16 → d < dies s → r < 256 →
      let row : RowId := { vault := v, bank := b, die := d, row := r }
      let k := if refreshDue s row then AuxKind.overdue else .refresh
      ∃ t, exec (.refresh v b d r) s = .next t ∧ (auxOpen k v b s = false → waits t) ∧
        (auxOpen k v b s = true → only t ∧ t.vaults.mem = s.vaults.mem ∧ taken t v b ∧
          Table.get 0 t.vaults.refreshed (((v * 16 + b) * 4 + d) * 256 + r) = s.clk.aclk)) ∧
    (s.vaults.scrubEnable = false → exec .scrubVisit s = .next s) ∧
    (s.vaults.scrubEnable = true → s.vaults.visits = [] →
      let v := s.vaults.scrubAt / 2 ^ 20
      let w := s.vaults.scrubAt % 2 ^ 20
      let read := decodeWord (storedWord s (wordLoc s v w))
      v < logicalVaults s →
      ∃ t, exec .scrubVisit s = .next t ∧ (auxOpen .scrub (physVault s v) (bankOf w) s = false → waits t) ∧
        (auxOpen .scrub (physVault s v) (bankOf w) s = true → only t ∧ taken t (physVault s v) (bankOf w) ∧
          t.vaults.scrubAt = (if w + 1 < vaultWords s then s.vaults.scrubAt + 1 else if v + 1 < logicalVaults s then (v + 1) * 2 ^ 20 else 0) ∧
          (read.1 = .corrected → t.vaults.mem = setStored (wordLoc s v w) (encodeWord read.2.1 false) s.vaults.mem ∧
            t.vaults.eccCorrected = satAdd s.vaults.eccCorrected 1) ∧
          (read.1 ≠ .corrected → t.vaults.mem = s.vaults.mem) ∧ (read.1 = .clean → t.vaults.eccCorrected = s.vaults.eccCorrected))) ∧
    (∀ r col rest v, s.vaults.scrubEnable = true → s.vaults.visits = (r, col) :: rest → logicalOf s r.vault = some v →
      let read := decodeWord (storedWord s (wordLoc s v (r.word col)))
      ∃ t, exec .scrubVisit s = .next t ∧ (auxOpen .scrub r.vault r.bank s = false → waits t) ∧
        (auxOpen .scrub r.vault r.bank s = true → only t ∧ taken t r.vault r.bank ∧ t.vaults.scrubAt = s.vaults.scrubAt ∧
          t.vaults.visits = (if col < 63 then (r, col + 1) :: rest else rest) ∧
          (read.1 = .corrected → t.vaults.mem = setStored (wordLoc s v (r.word col)) (encodeWord read.2.1 false) s.vaults.mem) ∧
          (read.1 ≠ .corrected → t.vaults.mem = s.vaults.mem))) ∧
    (∀ d, s.vaults.redirects.find? (fun x => decide (x.copied < 64)) = some d →
      let w := d.row.word d.copied
      let read := decodeWord (storedWord s (physLoc s d.row.vault w))
      let d' := { d with copied := d.copied + 1 }
      ∃ t, exec .rowRepairCopy s = .next t ∧ (auxOpen .repair d.row.vault d.row.bank s = false → waits t) ∧
        (auxOpen .repair d.row.vault d.row.bank s = true → taken t d.row.vault d.row.bank ∧
          t.vaults.redirects = s.vaults.redirects.map (fun x => if x = d then d' else x) ∧
          t.vaults.mem = setStored (physLoc t d.row.vault w) (encodeWord read.2.1 read.2.2) s.vaults.mem ∧
          t = { s with vaults := t.vaults, flash := t.flash } ∧ (d.copied < 63 → t.flash = s.flash) ∧
          (d.copied = 63 → t.vaults.repairs = min 65535 (s.vaults.repairs + 1) ∧
            t.flash = { s.flash with repairs := t.vaults.repairs, redirects := t.vaults.redirects.filter (fun x => x.copied == 64) }))) ∧
    (∀ r rest, s.vaults.redirects.find? (fun x => decide (x.copied < 64)) = none → s.vaults.repairQueue = r :: rest →
      (freeSpares s r.vault r.bank r.die = [] → s.vaults.unrepaired.any (fun x => x.vault / 32 == r.vault / 32) = true →
        exec .rowRepairCopy s = .next { s with
          vaults := { s.vaults with repairQueue := rest, unrepaired := s.vaults.unrepaired ++ [r] }
          flash := { s.flash with unrepaired := s.vaults.unrepaired ++ [r] } }) ∧
      (∀ i is, freeSpares s r.vault r.bank r.die = i :: is →
        let d : Repair := { row := r, spare := i }
        let u := { s with vaults := { s.vaults with repairQueue := rest, redirects := d :: s.vaults.redirects } }
        d ∉ s.vaults.redirects →
        ∃ t, exec .rowRepairCopy s = .next t ∧ t = { s with vaults := t.vaults } ∧ t.vaults.redirects =
          { d with copied := if auxOpen .repair r.vault r.bank u then 1 else 0 } :: s.vaults.redirects))

/-- Upkeep of a partition: its fault log is cleared, its sampler enabled, takes a snapshot at a multiple of its period or counts one as
skipped, and hands a cell to its queue once the tail buffer has room, where it is stored at the end of the cycle; in compatibility mode, tokens
of full queues move to the spill area after 4,096 quiet cycles, or F05 is raised where they do not fit, and enter their queue again in the order
in which they came and before later ones, taking a credit or the entry of a later one; in a pause neither happens.
When in its cycle a row acts is log entry 8; what the spec leaves open of the spill area is log entry 44. -/
def Obligations.PartitionUpkeep : Prop :=
  ∀ (s : State) (q : Nat), q < 8 →
    let x := getPart s q
    let g := x.sampler
    let put (y : Partition) : State := { s with canopy := { s.canopy with parts := Table.set {} s.canopy.parts q y } }
    let due : Prop := g.enable = true ∧ x.busy = true ∧ s.canopy.paused = false ∧ (s.canopy.now - x.start) % g.period = 0 ∧ g.lastAt ≠ some s.canopy.now
    exec (.faultStatusClear q) s = .next (put { x with log := [], lost := 0, logMark := none }) ∧
    (∀ on, exec (.samplerEnable q on) s = .next (put { x with sampler := { g with enable := on } })) ∧
    (¬due → exec (.samplerSnapshot q) s = .next s) ∧
    (due → g.draining = [] → exec (.samplerSnapshot q) s =
      .next (put { x with sampler := { g with draining := snapshotCells q s, lastAt := some s.canopy.now } })) ∧
    (due → g.draining ≠ [] → exec (.samplerSnapshot q) s =
      .next (put { x with sampler := { g with skip := satAdd g.skip 1, lastAt := some s.canopy.now } })) ∧
    (∀ c rest, g.draining = c :: rest → (sqReady (getQueue s g.queue) = false → exec (.snapshotDrain q) s = .next s) ∧
      (sqReady (getQueue s g.queue) = true →
        let u := put { x with sampler := { g with draining := rest } }
        let y := getQueue s g.queue
        let cell : SqCell := { words := c.map (fun w => { v := w }) }
        (∃ t, exec (.snapshotDrain q) s = .next t ∧ t = { u with queues := t.queues } ∧
          getQueue t g.queue = { y with arrived := y.arrived ++ [{ source := 5, cell := cell }] } ∧
          ∀ k, k ≠ g.queue → getQueue t k = getQueue s k) ∧
        (∀ z : Spill, z.incoming = [] → z.arrived = [{ source := 5, cell := cell }] → z.writer = 5 → z.frozen = false → z.full = false →
          z.settle = { z with arrived := [], wr := z.wr + 1, tail := Table.put z.tail z.wr cell }))) ∧
    (s.canopy.paused = true → exec (.deadlockDetect q) s = .next s ∧
      ∀ col row d, isTile col row = true → d < 4 → exec (.deadlockReinject col row d) s = .next s) ∧
    (s.canopy.paused = false → (x.ctx 0).image.compat = true → x.busy = true → x.activity + 4096 ≤ s.canopy.now → Table.wf {} s.canopy.tiles = true →
      (∃ kv ∈ partTiles s q, ∃ d, d < 4 ∧ (kv.2.inp d).full0 = true) →
      let moving := areaTokens s q + ((partTiles s q).map (fun kv => (((List.range 4).filter (fun d => (kv.2.inp d).full0)).map (fun d => (kv.2.inp d).held 0)).sum)).sum
      ∃ t, exec (.deadlockDetect q) s = .next t ∧
        t = { s with canopy := { s.canopy with tiles := t.canopy.tiles, parts := t.canopy.parts }, host := t.host } ∧
        (moving ≤ areaCapacity s q → (getPart t q).activity = s.canopy.now ∧ (x.owner = none → t.host = s.host) ∧
          ∀ kv ∈ partTiles s q, ∀ d, d < 4 → (kv.2.inp d).full0 = true →
            let l := (Table.get {} t.canopy.tiles kv.1).inp d
            l.queue 0 = [] ∧ l.behind = [] ∧ l.spilled = (kv.2.inp d).queue 0 ++ (kv.2.inp d).spilled ++ (kv.2.inp d).behind) ∧
        (areaCapacity s q < moving → (x.ctx 0).state.resident = true → ((getPart t q).ctx 0).state = .faulted ∧ t.canopy.tiles = s.canopy.tiles)) ∧
    (∀ col row d k rest, s.canopy.paused = false → isTile col row = true → d < 4 → partOf s col = some q →
      let l := (getTile s col row).inp d
      let free : Prop := l.held 0 < l.depth 0 ∧ (senderOf s col row d).used.getD 0 0 < l.depth 0
      l.spilled = k :: rest →
      (¬free → l.behind = [] → exec (.deadlockReinject col row d) s = .next s) ∧
      (∀ b bs, ¬free → l.behind = b :: bs → ∃ t, exec (.deadlockReinject col row d) s = .next t ∧ (getPart t q).activity = s.canopy.now ∧
        OnlyTile (updPart q (fun x => { x with activity := s.canopy.now }) s) t col row ∧
        (getTile t col row).inp d = { l with spilled := rest ++ [b], behind := bs, queues := Table.set [] l.queues 0 (l.queue 0 ++ [k]) }) ∧
      (free → ∃ t, exec (.deadlockReinject col row d) s = .next t ∧ (getPart t q).activity = s.canopy.now ∧
        ((getTile t col row).inp d).spilled = rest ∧
        ((getTile t col row).inp d).queue 0 = l.queue 0 ++ k :: (if rest.isEmpty then l.behind else []) ∧
        ((getTile t col row).inp d).behind = (if rest.isEmpty then [] else l.behind) ∧
        (((edgeSide row d).isSome ∨ (neighbour col row d).isSome) → (senderOf t col row d).used = ((senderOf s col row d).take 0).used) ∧
        (∀ j, j ≠ tileKey col row → Table.get {} t.canopy.tiles j = { Table.get {} s.canopy.tiles j with outs := (Table.get {} t.canopy.tiles j).outs }) ∧
        t = { s with canopy := { s.canopy with tiles := t.canopy.tiles, parts := t.canopy.parts } }))

/-! ### Reduction and ring records (R199 to R213, R311 to R313) -/

/-- The members of a reduction: a complete block gets its pass 1 code when the engine can take it, and goes up from a leaf, waits at a member
for its children, and is settled at once by a lone member, as R203 says; what comes from a child is combined, and from the parent forwarded to
the children and taken; results leave in the order of the blocks. The writing of a ring record appends it, keeps the latest 4,096, chains its
hash, seals it where its index ends an interval, and tells the partition's owner. When the engine can take a block is log entry 30; the nonce of
a seal is free (log entry 3). -/
def Obligations.ReductionAndRingRecords : Prop :=
  ∀ s : State, (∀ (k : Nat) (c : BitVec 16), k < 64 → s.fabric.coord = some c →
    let x := getChan s k
    let kids := childDirs s x.box c
    let dad := parentDir s x.box c
    let toward (r : RedPkt) (d : Nat) : List (Nat × Flit) :=
      (flitsOf (redVc r.kind) ({ dest := stepCoord s c d, src := c, ty := tyReduce, hopCount := 1, body := redBody k r } : FabPacket).bytes).map (fun f => (d, f))
    let becomes (t : State) (y : Channel) : Prop := getChan t k = y ∧ (∀ j, j ≠ k → getChan t j = getChan s j) ∧
      t = { s with fabric := { s.fabric with channels := t.fabric.channels }, ring := t.ring }
    let counted (t : State) (code : Nat) : Prop := t.ring = { s.ring with
      mismatch := if 0x8000 ≤ code then satAdd s.ring.mismatch 1 else s.ring.mismatch
      poison := if code < 0x8000 ∧ 0x4000 ≤ code then satAdd s.ring.poison 1 else s.ring.poison
      nonfinite := if code < 0x4000 ∧ 0x2000 ≤ code then satAdd s.ring.nonfinite 1 else s.ring.nonfinite }
    let ready (b : RedBlock) (code : Nat) (sums : List Int) : RedBlock := { b with ready := some (resultTokens b.desc code sums) }
    let child (b : RedBlock) (kind code : Nat) (sums : List Int) : RedPkt := { src := c, kind := kind, no := b.no, desc := b.desc, code := code, sums := sums }
    (∀ (d : SqWord) (data : List SqWord), x.enabled = true → x.assembly = d :: data → data.length = blockTokens (fldN d.v 0 3) →
      (engineHeld x = true → exec (.reduceBlockEntry k) s = .next s) ∧
      (engineHeld x = false → (∀ y ∈ x.blocks, y.no ≠ x.blockNo) →
        let code := if d.poison then 0x4000 else pass1Code d.v data
        let b : RedBlock := { no := x.blockNo, desc := d.v, tokens := data, code := code }
        let y : Channel := { x with assembly := [], blockNo := (x.blockNo + 1) % 2 ^ 32 }
        let own := alignedOwn b code
        ∃ t, exec (.reduceBlockEntry k) s = .next t ∧
          (kids ≠ [] → becomes t { y with blocks := x.blocks ++ [b] } ∧ t.ring = s.ring) ∧
          (∀ e, kids = [] → dad = some e →
            becomes t { y with blocks := x.blocks ++ [{ b with sent1 := true }], outbox := x.outbox ++ toward (child b 0 code []) e } ∧ t.ring = s.ring) ∧
          (kids = [] → dad = none → runsPass2 code = false →
            becomes t ({ y with blocks := x.blocks ++ [ready { b with sent1 := true } code []] } : Channel).release ∧ counted t code) ∧
          (kids = [] → dad = none → runsPass2 code = true →
            becomes t ({ y with blocks := x.blocks ++ [ready { b with sent1 := true, final := some code, sums := own, sent2 := true } code own] } : Channel).release ∧
              counted t code))) ∧
    (∀ (r : RedPkt) (b : RedBlock) (pre post : List RedBlock), x.blocks = pre ++ b :: post → (∀ y ∈ pre ++ post, y.no ≠ b.no) →
      let y : Channel := { x with inbox := x.inbox.erase r }
      let with_ (b : RedBlock) : Channel := { y with blocks := pre ++ b :: post }
      let lacks (r : RedPkt) : Option RedBlock := x.blocks.find? (fun b => !b.sent1 && b.ready.isNone && !b.got1.contains r.src)
      let lacks2 (r : RedPkt) : Option RedBlock :=
        x.blocks.find? (fun b => b.final.isSome && !b.sent2 && b.ready.isNone && !b.got2.contains r.src)
      (x.inbox.find? (fun r => r.kind == 0 && (lacks r).isSome) = some r → lacks r = some b → b.final = none → b.got2 = [] → kids ≠ [] →
        let code := combineCode b.code r.code (r.desc == b.desc && r.no == b.no)
        let b' : RedBlock := { b with code := code, got1 := b.got1 ++ [r.src] }
        let out := kids.flatMap (toward (child b 2 code []))
        let own := alignedOwn b code
        ∃ t, exec (.reducePass1Up k) s = .next t ∧
          (b.got1.length + 1 < kids.length → becomes t (with_ b') ∧ t.ring = s.ring) ∧
          (∀ e, kids.length ≤ b.got1.length + 1 → dad = some e →
            becomes t { with_ { b' with sent1 := true } with outbox := x.outbox ++ toward (child b 0 code []) e } ∧ t.ring = s.ring) ∧
          (kids.length ≤ b.got1.length + 1 → dad = none → runsPass2 code = true →
            becomes t { with_ { b' with sent1 := true, final := some code, sums := own } with outbox := x.outbox ++ out } ∧ t.ring = s.ring) ∧
          (kids.length ≤ b.got1.length + 1 → dad = none → runsPass2 code = false →
            becomes t ({ with_ (ready { b' with sent1 := true } code []) with outbox := x.outbox ++ out } : Channel).release ∧ counted t code)) ∧
      (x.inbox.find? (fun r => r.kind == 2) = some r → x.blocks.find? (fun b => b.sent1 && b.final.isNone && b.ready.isNone) = some b → b.got2 = [] →
        b.sent2 = false →
        let out := x.outbox ++ kids.flatMap (toward (child b 2 r.code []))
        let own := alignedOwn b r.code
        let b' : RedBlock := { b with final := some r.code, sums := own }
        ∃ t, exec (.reducePass1Down k) s = .next t ∧
          (runsPass2 r.code = true → kids ≠ [] → becomes t { with_ b' with outbox := out } ∧ t.ring = s.ring) ∧
          (∀ e, runsPass2 r.code = true → kids = [] → dad = some e →
            becomes t { with_ { b' with sent2 := true } with outbox := out ++ toward (child b 1 r.code own) e } ∧ t.ring = s.ring) ∧
          (runsPass2 r.code = false → becomes t ({ with_ (ready b r.code []) with outbox := out } : Channel).release ∧ counted t r.code)) ∧
      (∀ f, x.inbox.find? (fun r => r.kind == 1 && (lacks2 r).isSome) = some r → lacks2 r = some b → b.final = some f →
        let sums := addSums b.sums r.sums
        let b' : RedBlock := { b with sums := sums, got2 := b.got2 ++ [r.src] }
        ∃ t, exec (.reducePass2Up k) s = .next t ∧
          (b.got2.length + 1 < kids.length → becomes t (with_ b') ∧ t.ring = s.ring) ∧
          (∀ e, kids.length ≤ b.got2.length + 1 → dad = some e →
            becomes t { with_ { b' with sent2 := true } with outbox := x.outbox ++ toward (child b 1 f sums) e } ∧ t.ring = s.ring) ∧
          (kids.length ≤ b.got2.length + 1 → dad = none →
            becomes t ({ with_ (ready { b' with sent2 := true } f sums) with
              outbox := x.outbox ++ kids.flatMap (toward (child b 3 f sums)) } : Channel).release ∧ counted t f)) ∧
      (∀ f, x.inbox.find? (fun r => r.kind == 3) = some r → x.blocks.find? (fun b => b.sent2 && b.ready.isNone) = some b → b.final = some f →
        ∃ t, exec (.reducePass2Down k) s = .next t ∧
          becomes t ({ with_ (ready b f r.sums) with outbox := x.outbox ++ kids.flatMap (toward (child b 3 f r.sums)) } : Channel).release ∧ counted t f))) ∧
  (∀ (x : Channel) (b : RedBlock) (ws : List SqWord) (rest : List RedBlock), x.blocks = b :: rest →
    (b.ready = none → x.release = x) ∧
    (b.ready = some ws → x.release = ({ x with blocks := rest, results := x.results ++ ws } : Channel).release)) ∧
  (∀ (desc : W64) (code : Nat) (sums : List Int) (i : Nat), code < 2 ^ 16 → i < 32 →
    let w := (resultTokens desc code sums).getD (i / 2) {}
    let r := lane w.v 32 (i % 2)
    (resultTokens desc code sums).length = 16 ∧
    (code.testBit 15 = true ∨ code.testBit 14 = true → r = 0x7FC00000 ∧ w.poison = true) ∧
    (code.testBit 15 = false → code.testBit 14 = false → code.testBit 13 = true → r = 0x7FC00000 ∧ w.poison = false) ∧
    (code = 0 → r = 0 ∧ w.poison = false) ∧
    (code ≠ 0 → code < 0x2000 → r = reduceResult (sums.getD i 0) ((code % 512 : Nat) - 150) (fldN desc 3 5) % 2 ^ 32 ∧ w.poison = false)) ∧
  (s.ring.due = [] → exec .ringRecordWrite s = .next s) ∧
  (∀ (d : StepDone) (rest : List StepDone), let g := s.ring
    let d' : StepDone := if g.skew then { d with skew := true, deviceFold := 0, digest := List.replicate 48 0 } else d
    let record := ringRecord g d'
    let ends : Bool := decide (0 < g.signInterval) && (g.nextIndex.toNat + 1) % g.signInterval == 0
    let told (u : State) : State := match g.part with
      | some p => postOwner (getPart s p).owner 0x000A (w64Bytes g.nextIndex ++ w64Bytes (g.firstStep + g.nextIndex)) u
      | none => u
    let all := g.records ++ [{ index := g.nextIndex.toNat, bytes := record }]
    let old := all.take (all.length - 4096)
    let seals := g.seals ++ [{ index := g.nextIndex.toNat, bytes := ringSeal s.boot.identityKey g.nextIndex (sha384 record) (Config.freeNat s.fresh) }]
    let written : RingLog := { g with
      due := rest, records := all.drop (all.length - 4096), lost := satAdd g.lost (old.filter (fun r => !r.read)).length
      nextIndex := g.nextIndex + 1, prevHash := sha384 record }
    g.due = d :: rest →
    (ends = false → exec .ringRecordWrite s = .next (told { s with ring := written })) ∧
    (ends = true → exec .ringRecordWrite s = .next (told { s with
      fresh := s.fresh + 1, ring := { written with seals := seals.drop (seals.length - 64) } })))

/-! ### Stream ingress and trigger decisions (R238 to R257) -/

/-- A raw lane gains and loses block lock by its sync headers, and its blocks are descrambled; its frame is read from them, tested at the end of
the cycle in the order of R243, and counted under its first failure or accepted
to its queue; each frame cycle delivers the next word with its tag, or a pair that is not valid. A channel changes with its values and its pin; an
output decides on the first channel that fired, once its holdoff is over; its pulses end in order, and its capture freezes after its last frame.
The two units to a delivery, pins in a pause, blocks with nonzero rest and the three kept changes are log entry 31; rows that come early do
nothing (log entry 8). -/
def Obligations.StreamAndTriggerEventsAct : Prop :=
  (∀ (words : List W64) (crc : W32) (bad : List StreamBlock),
    let start : StreamBlock := { sync := 2, data := 0x5A }
    let finish : StreamBlock := { sync := 2, data := BitVec.ofNat 64 (0xA5 + crc.toNat * 2 ^ 32) }
    let body := words.map (fun w => ({ sync := 1, data := w } : StreamBlock))
    readFrame (start :: body ++ [finish]) = some { data := words, crc := crc, bad := false } ∧
      (bad ≠ [] → (∀ b ∈ bad, ∀ w, blockKind b ≠ .data w) → (∀ b ∈ bad, (blockKind b).ends = false) →
        readFrame (start :: body ++ bad ++ [finish]) = some { data := words, crc := crc, bad := true })) ∧
  (∀ (x : StreamLane) (hs : List (BitVec 2)), hs.length = 64 → x.count = 0 → x.invalid = 0 →
    let y := hs.foldl StreamLane.header x
    let bad := (hs.filter (fun h => h == 0 || h == 3)).length
    (bad = 0 → y = { x with locked := true }) ∧ (x.locked = true → bad < 16 → y = x)) ∧
  (∀ (x : StreamLane) (h : BitVec 2), h = 0 ∨ h = 3 → x.locked = false ∨ x.invalid = 15 → x.header h = { x with locked := false, count := 0, invalid := 0 }) ∧
  (∀ (kept : BitVec 58) (w : W64) (i : Nat), i < 64 →
    let back (n : Nat) : Bool := if n ≤ i then w.getLsbD (i - n) else kept.getLsbD (n - 1 - i)
    (descramble kept w).1.getLsbD i = (w.getLsbD i ^^ (back 39 ^^ back 58)) ∧ (i < 58 → (descramble kept w).2.getLsbD i = w.getLsbD (63 - i))) ∧
  (∀ (b : StreamBlock) (bs : List StreamBlock) (x : StreamLane), x.locked = true → b.sync = 1 ∨ b.sync = 2 →
    let d := descramble x.scrambled b.data
    let r := receiveBlocks bs { x.header b.sync with scrambled := d.2 }
    receiveBlocks (b :: bs) x = (r.1, { b with data := d.1 } :: r.2)) ∧
  ∀ s : State, let now := s.canopy.now
    (∀ lane headers, lane < 64 → ((getEPort s (lane / 8)).mode = 6 → exec (.streamLaneBlockLock lane headers) s = .next { s with
        trig := { s.trig with lanes := Table.set {} s.trig.lanes lane (headers.foldl StreamLane.header (getLane s lane)) } }) ∧
      ((getEPort s (lane / 8)).mode ≠ 6 → exec (.streamLaneBlockLock lane headers) s = .next s)) ∧
    (∀ (lane : Nat) (start header : StreamBlock) (words : List StreamBlock) (finish : StreamBlock) (since : Nat), lane < 64 →
      let blocks := start :: header :: words ++ [finish]
      let run := exec (.streamFrameEnd lane start header words finish since) s
      let locked := (getEPort s (lane / 8)).mode == 6 && (getLane s lane).locked
      let r := receiveBlocks blocks (getLane s lane)
      let lanes := Table.set {} s.trig.lanes lane r.1
      (locked = false → run = .next s) ∧
      (locked = true → readFrame r.2 = none → run = .next { s with trig := { s.trig with lanes := lanes } }) ∧
      (∀ f, locked = true → readFrame r.2 = some f → run = .next { s with
        trig := { s.trig with lanes := lanes, ended := s.trig.ended ++ [{ lane := lane, frame := f, since := since }] } })) ∧
    (∀ e, s.trig.ended = [e] → s.trig.records = [] → e.lane < 64 →
      let t := frameEnd e.lane e.frame e.since s
      settleTrigger s = { t with trig := { t.trig with ended := [], records := [] } }) ∧
    (∀ (lane : Nat) (f : RawFrame) (since : Nat),
      let run := frameEnd lane f since s
      (laneEndpoint s lane = none → run = { s with trig := { s.trig with unbound := satAdd s.trig.unbound 1 } }) ∧
      (∀ i, laneEndpoint s lane = some i →
        let x := getStream s i
        let header := headerValue (f.data.headD 0)
        let n := fldN header 10 10
        let cells := frameCells (header :: f.data.drop 1)
        let q := (getQueue s x.queue).settle
        let broken : Prop := f.bad = true ∨ n = 0 ∨ 512 < n ∨ f.data.length ≠ n + 1
        let good : Prop := crc32 (f.data.flatMap w64Bytes) = f.crc
        let room : Prop := q.wr - q.rel + cells.length ≤ q.capacity
        let lost : Stream := { x with nextSeq := (x.nextSeq + 1) % 2 ^ 32, notAccepted := x.notAccepted + 1 }
        let counts (y : Stream) : Prop := getStream run i = y ∧ (∀ j, j ≠ i → getStream run j = getStream s j) ∧
          run = { s with trig := { s.trig with streams := run.trig.streams } }
        (broken → counts { lost with malformed := satAdd x.malformed 1 }) ∧
        (¬ broken → ¬ good → counts { lost with crc := satAdd x.crc 1 }) ∧
        (¬ broken → good → streamRuns s i = false → counts { lost with stopped := satAdd x.stopped 1 }) ∧
        (¬ broken → good → streamRuns s i = true → ¬ room → counts { lost with drop := satAdd x.drop 1 }) ∧
        (¬ broken → good → streamRuns s i = true → room →
          let st := splitTime (rxStamp x.port 6 since s)
          let m : FrameMeta := { sec := st.1, ns := st.2, channel := fldN header 52 12, sequence := fldN header 20 32, seq := x.nextSeq
                                 notAccepted := x.notAccepted, pauses := s.canopy.pauses }
          let w := commitCells x.queue 3 cells s
          ∃ t, run = (List.range 4).foldl (fun s o => captureFrame i o cells s) t ∧
            getStream t i = { x with
              nextSeq := (x.nextSeq + 1) % 2 ^ 32, accepted := satAdd x.accepted 1, ring := Table.set none x.ring (x.nextSeq % 1024) (some m)
              frames := x.frames ++ [{ seq := x.nextSeq, lane := lane, words := n + 1, cell := q.wr
                                       allowed := s.clk.aclk + 2 * s.clk.units }] } ∧
            (∀ j, j ≠ i → getStream t j = getStream s j) ∧ t = { w with trig := { s.trig with streams := t.trig.streams } }))) ∧
    (∀ (i o : Nat) (cells : List (List W64)), let u := getCap s o
      let q := u.cfg.queue
      ¬(u.state = .post ∧ u.left = 0) →
      (u.cfg.source ≠ i ∨ u.state = .idle → captureFrame i o cells s = s) ∧
      (u.cfg.source = i → u.state = .frozen → captureFrame i o cells s = commitCells q 4 cells s) ∧
      (u.cfg.source = i → u.state = .armed ∨ u.state = .post → tailRoom (getQueue s q) cells.length = false →
        captureFrame i o cells s = { s with trig := { s.trig with capLost := satAdd s.trig.capLost 1 } }) ∧
      (u.cfg.source = i → u.state = .armed → tailRoom (getQueue s q) cells.length = true → captureFrame i o cells s = commitCells q 4 cells s) ∧
      (u.cfg.source = i → u.state = .post → tailRoom (getQueue s q) cells.length = true →
        captureFrame i o cells s = updCap o (fun u => { u with left := u.left - 1 }) (commitCells q 4 cells s))) ∧
    (∀ i, i < 16 → let x := getStream s i
      let seen : State := { s with trig := { s.trig with streams := Table.set {} s.trig.streams i { x with deliveredAt := some now } } }
      (s.canopy.paused = true ∨ x.deliveredAt = some now ∨ streamRuns s i = false → exec (.streamDelivery i) s = .next s) ∧
      (s.canopy.paused = false → x.deliveredAt ≠ some now → streamRuns s i = true → x.lost = none →
        (x.frames = [] → exec (.streamDelivery i) s = .next (placeSample (16 + i) 0 false (placeSample i 0 false seen))) ∧
        (∀ (f : StreamFrame) (rest : List StreamFrame), x.frames = f :: rest →
          (f.sent = 0 → s.clk.aclk < f.allowed → exec (.streamDelivery i) s = .next (placeSample (16 + i) 0 false (placeSample i 0 false seen))) ∧
          (∀ w, let g : StreamFrame := if f.sent = 0 then { f with wait := min 65535 (s.clk.aclk - f.allowed) } else f
            let q : Spill := if f.sent = 0 then { getQueue s x.queue with rd := f.cell, rdWord := 0 } else getQueue s x.queue
            let isLast := g.sent + 1 == g.words
            (f.sent = 0 → f.allowed ≤ s.clk.aclk) → q.nextWord = some w →
            ∃ t, exec (.streamDelivery i) s = .next t ∧
              t.canopy = (placeSample (16 + i) (tagToken g g.sent isLast) false (placeSample i w.v w.poison s)).canopy ∧
              (getStream t i).frames = (if isLast then rest else { g with sent := g.sent + 1 } :: rest) ∧ (getStream t i).deliveredAt = some now ∧
              (∀ j, j ≠ i → getStream t j = getStream s j) ∧
              getQueue t x.queue = (if isLast then (({ q.advance w.poison with rd := g.cell + g.cells, rdWord := 0 } : Spill).release (g.cell + g.cells)).1
                else q.advance w.poison) ∧
              (∀ k, k ≠ x.queue → getQueue t k = getQueue s k) ∧
              (∀ k, getChanT t k = getChanT (rawWord i g w s) k) ∧
              t = { s with canopy := t.canopy, queues := t.queues
                           trig := { s.trig with streams := t.trig.streams, chans := t.trig.chans, nan := t.trig.nan, poison := t.trig.poison } })))) ∧
    (∀ (k : Nat) (w : WireTok) (ws : List WireTok), k < 64 → s.canopy.paused = false → getEdge s 5 k = w :: ws → w.at_ + 1 ≤ now →
      Table.get 0 s.canopy.taken (edgeKey 5 k) ≠ now + 1 →
      let x := getChanT s k
      let taken : Canopy := { s.canopy with edges := Table.set [] s.canopy.edges (edgeKey 5 k) ws, taken := Table.set 0 s.canopy.taken (edgeKey 5 k) (now + 1) }
      let v : W32 := BitVec.ofNat 32 (lane w.tok.data 32 0)
      let why : Cause := .frame x.cfg.endpoint (lane w.tok.data 32 1)
      let becomes (y : TrigChan) : State := { s with canopy := taken, trig := { s.trig with chans := Table.set {} s.trig.chans k y } }
      (x.armed = false ∨ x.cfg.source ≠ 0 → exec (.trigScoreToken k) s = .next { s with canopy := taken }) ∧
      (x.armed = true → x.cfg.source = 0 →
        (w.tok.poison = true → exec (.trigScoreToken k) s = .next { s with canopy := taken, trig := { s.trig with poison := satAdd s.trig.poison 1 } }) ∧
        (w.tok.poison = false → (fpDec 23 v.toNat).nan = true →
          exec (.trigScoreToken k) s = .next { s with canopy := taken, trig := { s.trig with nan := satAdd s.trig.nan 1 } }) ∧
        (w.tok.poison = false → (fpDec 23 v.toNat).nan = false →
          (x.high = false → (if x.cfg.polarity then geF x.cfg.level v else geF v x.cfg.level) = true →
            exec (.trigScoreToken k) s = .next (becomes { x with
              high := true, changes := ((now + 1, true) :: x.changes).take 3, fires := ((now + 1, why) :: x.fires).take 3 })) ∧
          (x.high = false → (if x.cfg.polarity then geF x.cfg.level v else geF v x.cfg.level) = false →
            exec (.trigScoreToken k) s = .next { s with canopy := taken }) ∧
          (x.high = true → (if x.cfg.polarity then geF x.release v else geF v x.release) = true →
            exec (.trigScoreToken k) s = .next { s with canopy := taken }) ∧
          (x.high = true → (if x.cfg.polarity then geF x.release v else geF v x.release) = false →
            exec (.trigScoreToken k) s = .next (becomes { x with high := false, changes := ((now + 1, false) :: x.changes).take 3 }))))) ∧
    (∀ pin level since, pin < 4 →
      let st := splitTime (timeBefore since s)
      let why : Cause := .pin st.1 st.2 s.canopy.pauses
      let pins := if level then s.trig.pins ||| (1#4 <<< pin) else s.trig.pins &&& ~~~(1#4 <<< pin)
      (s.canopy.paused = true → exec (.trigInChange pin level since) s = .next { s with
        trig := { s.trig with pins := pins, waiting := s.trig.waiting ++ [(pin, level, why)] } }) ∧
      (s.canopy.paused = false → ∃ t, exec (.trigInChange pin level since) s = .next t ∧ t = { s with trig := { s.trig with pins := pins, chans := t.trig.chans } } ∧
        (∀ k, 64 ≤ k → getChanT t k = getChanT s k) ∧
        (∀ k, k < 64 → let x := getChanT s k
          getChanT t k = if x.armed = true ∧ x.cfg.source = 2 ∧ x.cfg.pin = pin ∧ x.high ≠ level then { x with
              high := level, changes := ((now + 1, level) :: x.changes).take 3
              fires := if level then ((now + 1, why) :: x.fires).take 3 else x.fires }
            else x))) ∧
    (∀ o, o < 4 → let x := getOut s o
      let u := getCap s o
      let fired (k : Nat) : Option Cause := (getChanT s k).firedAt (now - 1)
      let all := (List.range 64).all (fun k => !x.cfg.andMask.getLsbD k || (getChanT s k).highAt (now - 1))
      let hits := (List.range 64).filter (fun k => (fired k).isSome && (x.cfg.orMask.getLsbD k || (x.cfg.andMask != 0 && all && x.cfg.andMask.getLsbD k)))
      let looked (y : TrigOut) (sup : W32) : State := { s with trig := { s.trig with outs := Table.set {} s.trig.outs o y, suppressed := sup } }
      (x.armed = false ∨ s.canopy.paused = true ∨ x.evalAt = some now ∨ now = 0 → exec (.trigOutputDecide o) s = .next s) ∧
      (x.armed = true → s.canopy.paused = false → x.evalAt ≠ some now → now ≠ 0 →
        (hits = [] → exec (.trigOutputDecide o) s = .next (looked { x with evalAt := some now } s.trig.suppressed)) ∧
        (hits ≠ [] → now ≤ x.holdEnd → exec (.trigOutputDecide o) s = .next (looked { x with evalAt := some now } (satAdd s.trig.suppressed 1))) ∧
        (∀ k rest why, hits = k :: rest → fired k = some why → x.holdEnd < now →
          let mark := if u.state = .armed then (getQueue s u.cfg.queue).wr % 2 ^ 32 else 0
          let record : DecRecord :=
            { out := o, bytes := decisionRecord o k why mark (u.state != .armed) s
              seen := countsSeen why s }
          ∃ t, exec (.trigOutputDecide o) s = .next t ∧
            getOut t o = { x with evalAt := some now, holdEnd := now + x.cfg.holdoff, pulses := x.pulses ++ [(now, x.cfg.width)] } ∧
            (∀ j, j ≠ o → getOut t j = getOut s j ∧ getCap t j = getCap s j) ∧
            t.trig.records = (if s.trig.decEnable then s.trig.records ++ [record] else s.trig.records) ∧
            getCap t o = (if u.state = .armed then { u with state := if u.cfg.post = 0 then .frozen else .post
                                                            left := u.cfg.post, captureWr := BitVec.ofNat 32 mark } else u) ∧
            (¬(u.state = .armed ∧ u.cfg.post = 0) → t.host = s.host ∧ t.queues = s.queues ∧ t.canopy = s.canopy) ∧
            (∀ i, i < 16 → Table.get 0 (countsSeen why s) i = match why with
              | .frame ep seq => if ep = i then ((frameMeta s ep seq).map (fun m => m.notAccepted)).getD (getStream s i).notAccepted
                  else (getStream s i).notAccepted
              | .pin _ _ _ => (getStream s i).notAccepted) ∧
            (u.state = .armed → u.cfg.post = 0 → (getQueue t u.cfg.queue).frozen = true) ∧
            t = { s with queues := t.queues, host := t.host, canopy := t.canopy
                         trig := { s.trig with outs := t.trig.outs, caps := t.trig.caps, records := t.trig.records } })) ∧
      (x.pulses = [] → exec (.trigOutPulseEnd o) s = .next s) ∧
      (∀ c w rest, x.pulses = (c, w) :: rest →
        (5 * now < 5 * (c + w) + 3 * s.clk.units → exec (.trigOutPulseEnd o) s = .next s) ∧
        (5 * (c + w) + 3 * s.clk.units ≤ 5 * now → exec (.trigOutPulseEnd o) s = .next { s with
          trig := { s.trig with outs := Table.set {} s.trig.outs o { x with pulses := rest } } })) ∧
      (u.state ≠ .post ∨ u.left ≠ 0 → exec (.captureFreeze o) s = .next s) ∧
      (u.state = .post → u.left = 0 → let y := settleQueue u.cfg.queue s
        exec (.captureFreeze o) s =
        .next (postOwner s.trig.owner 0x0002 (leBytes 1 o ++ leBytes 1 u.cfg.queue ++ leBytes 2 0 ++ leBytes 4 u.captureWr.toNat) { y with
          queues := Table.set {} y.queues u.cfg.queue { getQueue y u.cfg.queue with frozen := true }
          trig := { s.trig with caps := Table.set {} s.trig.caps o { u with state := .frozen } } }))) ∧
    (∀ r, s.trig.records = [r] → s.trig.ended = [] → r.out < 4 → let q := getQueue s s.trig.decQueue
      getEdge s 1 (256 + s.trig.decQueue) = [] → Table.wf 0 r.seen = true →
      let z := q.settle
      let cell : SqCell := { words := (bytesW64 r.bytes ++ [0, 0, 0, 0]).map (fun w => { v := w }) }
      ∃ t, settleTrigger s = t ∧ t.trig.records = [] ∧
        t.queues = Table.set {} s.queues s.trig.decQueue { q with arrived := q.arrived ++ [{ source := 4, cell := cell }] } ∧
        (z.accepts 4 = true → t.trig.decLost = s.trig.decLost ∧
          ∀ i, Table.get 0 (getOut t r.out).droppedAt i = max (Table.get 0 (getOut s r.out).droppedAt i) (Table.get 0 r.seen i)) ∧
        (z.accepts 4 = false → (getOut t r.out).droppedAt = (getOut s r.out).droppedAt ∧
          t.trig.decLost = if z.writer = 4 ∧ z.frozen = false then satAdd s.trig.decLost 1 else s.trig.decLost))

/-! ### MACs, replies and transmission (R261 to R282) -/

/-- A received frame is counted under the first case it falls in, or accepted, and goes to its queue after its descriptor as there is room; a frame
that a loss of link cuts ends as a code error; an evaluated frame's features become a sample, which stands at the end of its cycle unless a lower
MAC takes its slot; a reply is built, once the bytes it copies are there, starts, and gets a valid FCS where its frame passed and a stomped one
where it failed; an item becomes frames, which leave with their FCS; gate lists take force at their cycle
start, and their entries follow the time. Each row completes on every state. Frames come whole (log entry 32); early rows do nothing (log entry 8). -/
def Obligations.MacAndReplyEventsAct : Prop :=
  ∀ (s : State) (m : Nat), macPresent s m = true →
    let x := getMac s m
    let count (i : Nat) : W32 := Table.get 0 x.counters i
    let counted (t : State) (i : Nat) : W32 := Table.get 0 (getMac t m).counters i
    let counts (t : State) (i n : Nat) : Prop := counted t i = count i + BitVec.ofNat 32 n
    let near (u t : State) : Prop := (∀ j, j ≠ m → getMac t j = getMac u j) ∧ t.eth.ports = u.eth.ports ∧
      t = { u with eth := t.eth, host := t.host, queues := t.queues, canopy := t.canopy }
    let macOnly (t : State) : Prop := near s t ∧ t.queues = s.queues ∧ t.canopy = s.canopy
    let put (y : Mac) : State := { s with eth := { s.eth with macs := Table.set {} s.eth.macs m y } }
    let now := 100 * s.clk.tticks
    let bt := byteTime (macMode s m)
    (∀ up, (x.linkUp = up → exec (.macLinkChange m up) s = .next s) ∧
      (x.linkUp ≠ up →
        let told := postOwner (macOwner s m) 0x0009 (leBytes 1 0 ++ leBytes 1 m ++ leBytes 1 (b2n up)) (put { x with linkUp := up })
        (openFrame x = none ∨ up = true → exec (.macLinkChange m up) s = .next told) ∧
        (∀ f, openFrame x = some f → up = false → ∃ t, exec (.macLinkChange m up) s = .next t ∧ near s t ∧ (getMac t m).linkUp = false ∧
          (getMac t m).cutAt = some f.word0 ∧ counts t (if f.conf.cfg.enable && f.conf.cfg.rxValid then 5 else 9) 1))) ∧
    (∀ (b : List Byte) (codeError : Bool) (since : Nat),
      let word0 := s.clk.tticks - since
      let st := splitTime (rxStamp (m / 8) (macMode s m) since s)
      let c := (openFrame x).elim (x.confAt word0) (fun f => f.conf)
      let w0 := (openFrame x).elim word0 (fun f => f.word0)
      let q := (openFrame x).elim c.cfg.rxQueue (fun f => if f.noDecision && c.cfg.ndValid then c.cfg.ndQueue else c.cfg.rxQueue)
      let case_ := verdictCase c b (codeError || !x.linkUp)
      let f : RxFrame := { serial := x.nextFrame, word0 := word0, conf := c, bytes := b, sec := st.1, ns := st.2, verdict := some true
                           accepted := some (q, x.rxSeq) }
      let fits := rxFits s q b.length && rxHeld s m b.length w0
      let undecided := (openFrame x).elim (evaluates c b) (fun f => f.entering)
      (x.cutAt = some word0 → exec (.macRxVerdict m b codeError since) s = .next s) ∧
      (x.cutAt ≠ some word0 → x.replies = [] → x.inFlight = [] → ∃ t, exec (.macRxVerdict m b codeError since) s = .next t ∧ near s t ∧
        (∀ i, case_.2 = some i → counts t i 1 ∧ (∀ j, j ≠ i → counted t j = count j) ∧ (getMac t m).rxSeq = x.rxSeq) ∧
        (case_.2 = none → fits = false → counts t 8 1 ∧ (∀ j, j ≠ 8 → counted t j = count j) ∧ (getMac t m).rxSeq = x.rxSeq) ∧
        (case_.2 = none → fits = true → (getMac t m).rxSeq = (x.rxSeq + 1) % 2 ^ 32 ∧ (∀ j, 1 < j → counted t j = count j) ∧
          counts t 0 (b2n (!undecided)) ∧ counts t 1 (if undecided then 0 else b.length)) ∧
        (x.frames = [] → evaluates c b = true → ∃ g, (getMac t m).frames = [g] ∧ g.serial = x.nextFrame ∧ g.awaits = true ∧ g.bytes = b ∧
          g.verdict = some case_.1 ∧ g.accepted.isSome = (case_.2.isNone && fits)) ∧
        (x.frames = [] → evaluates c b = false →
          let cells := bytesW64 (rxDescriptor m f x.rxSeq) :: dataCells b
          let k := (getQueue s q).room cells.length
          (case_.2.isSome || !fits → (getMac t m).frames = [] ∧ t.queues = s.queues ∧ t.canopy = s.canopy) ∧
          (case_.2 = none → fits = true → t.queues = (commitCells q 3 (cells.take k) s).queues ∧
            (getMac t m).frames = if k < cells.length then [{ f with given := k }] else [])))) ∧
    (∀ (b : List Byte) (ended : Bool) (since : Nat),
      let c := x.confAt (s.clk.tticks - since)
      let sampleOf (f : RxFrame) (b : List Byte) (ended : Bool) : Sample :=
        { source := .frame m f.serial, features := f.conf.extract.fields.map (fun e => fieldValue b e (fieldState b ended e)) }
      (s.canopy.paused = true → exec (.extractSampleComplete m b ended since) s = .next s) ∧
      (s.canopy.paused = false → x.frames.find? (fun f => f.awaits) = none →
        ((openFrame x).isSome = true ∨ evaluates c b = false ∨ (∃ e ∈ c.extract.fields, fieldState b ended e = .waiting) →
          exec (.extractSampleComplete m b ended since) s = .next s) ∧
        (openFrame x = none → (∀ g ∈ x.frames, g.serial ≠ x.nextFrame) → evaluates c b = true → (∀ e ∈ c.extract.fields, fieldState b ended e ≠ .waiting) →
          ∃ t f, exec (.extractSampleComplete m b ended since) s = .next t ∧ (getMac t m).frames = x.frames ++ [f] ∧ f.serial = x.nextFrame ∧
            f.conf = c ∧ f.bytes = b ∧ t = { s with eth := t.eth, host := t.host, arbor := t.arbor } ∧
            let first := c.extract.first.getD 0
            let enters : Prop := f.evaluated = true ∧ f.noDecision = false ∧ f.entering = true ∧ ∀ j, counted t j = count j
            (∀ u, writeSample first (sampleOf f b ended) s = some u → enters ∧ t.arbor = u.arbor) ∧
            (∀ v u, writeSample first (sampleOf f b ended) s = none → takeSlot first (sampleOf f b ended) s = some (v, u) → v.1 ≠ m →
              enters ∧ t.arbor = u.arbor ∧
              (∀ g, findFrame s v.1 v.2 = some g → Table.get 0 (getMac t v.1).counters 11 = Table.get 0 (getMac s v.1).counters 11 + 1)) ∧
            (writeSample first (sampleOf f b ended) s = none → takeSlot first (sampleOf f b ended) s = none →
              f.evaluated = false ∧ f.noDecision = true ∧ counts t 11 1 ∧ t.arbor = s.arbor))) ∧
      (∀ f, s.canopy.paused = false → x.frames.find? (fun f => f.awaits) = some f →
        ∃ t, exec (.extractSampleComplete m b ended since) s = .next t ∧
          let first := f.conf.extract.first.getD 0
          (∀ u, writeSample first (sampleOf f f.bytes true) s = some u → t.arbor = u.arbor) ∧
          (writeSample first (sampleOf f f.bytes true) s = none → takeSlot first (sampleOf f f.bytes true) s = none →
            counts t 11 1 ∧ t.arbor = s.arbor)) ∧
      (∀ f, x.frames.filter (fun f => f.entering) = [f] → (∀ g ∈ x.frames, g.serial = f.serial → g = f) →
        let t := settleSamples m s
        (getMac t m).frames = x.frames.map (fun g => if g.serial == f.serial then { g with entering := false } else g) ∧ counts t 10 1 ∧
          counts t 0 (b2n f.accepted.isSome) ∧ counts t 1 (if f.accepted.isSome then f.bytes.length else 0))) ∧
    (x.building = [] → exec (.replyReady m) s = .next s) ∧
    (∀ (r : ReplyRec) (rest : List ReplyRec) (f : RxFrame), x.building = r :: rest → findFrame s m r.serial = some f →
      let tpl := (getEPort s (m / 8)).templateAt r.template f.word0
      let built := patchTemplate tpl f (f.result.getD (0, false)).1 x.replySeq
      (s.canopy.paused = true ∨ s.canopy.now < r.ready → exec (.replyReady m) s = .next s) ∧
      (r.ready ≤ s.canopy.now → s.canopy.paused = false → x.replies.length < 16 → built = none → f.verdict = none →
        ∃ t, exec (.replyReady m) s = .next t ∧ macOnly t ∧ t.host = s.host ∧ getMac t m = x) ∧
      (r.ready ≤ s.canopy.now → s.canopy.paused = false → 16 ≤ x.replies.length ∨ built ≠ none ∨ f.verdict ≠ none →
        ∃ t, exec (.replyReady m) s = .next t ∧ near s t ∧ (getMac t m).building = rest ∧
        (16 ≤ x.replies.length → (getMac t m).replies = x.replies ∧ counts t 24 1) ∧
        (x.replies.length < 16 → built = none ∨ f.verdict = some false → (getMac t m).replies = x.replies ∧ counts t 21 1) ∧
        (∀ b, x.replies.length < 16 → built = some b → f.verdict ≠ some false →
          macOnly t ∧ (getMac t m).replySeq = (x.replySeq + 1) % 2 ^ 32 ∧
          ((getMac t m).replies.map (fun y : ReplyRec => (y.serial, y.bytes, y.tc))) = (x.replies ++ [{ r with bytes := b, tc := tpl.tc }]).map (fun y : ReplyRec => (y.serial, y.bytes, y.tc)) ∧
          (x.busyUntil ≤ now → (∀ y ∈ x.replies, y.waited = true) → fitsGate s m tpl.tc (b.length + 4) = true →
            t.host = s.host ∧ getMac t m =
              { x with building := rest, replies := x.replies ++ [{ r with bytes := b, tc := tpl.tc }], replySeq := (x.replySeq + 1) % 2 ^ 32 })))) ∧
    ((∀ r, chooseTx s m ≠ .reply r) → ∃ t, exec (.replyStart m) s = .next t ∧ macOnly t ∧ (getMac t m).inFlight = x.inFlight ∧
      (getMac t m).wire = x.wire ∧ (getMac t m).busyUntil = x.busyUntil) ∧
    (∀ (r : ReplyRec) (f : RxFrame), chooseTx s m = .reply r → findFrame s m r.serial = some f →
      ∃ t, exec (.replyStart m) s = .next t ∧ macOnly t ∧ counts t 28 (b2n (pausedSince s f.word0)) ∧
        (getMac t m).replies.map (fun y => y.serial) = (x.replies.map (fun y => y.serial)).filter (fun i => i != r.serial) ∧
        (getMac t m).inFlight = x.inFlight ++ [{ r with started := some now }] ∧ (getMac t m).busyUntil = now + (r.bytes.length + 24) * bt) ∧
    (x.inFlight.find? (fun r => !r.handed) = none → exec (.replyFcsHandover m) s = .next s) ∧
    (∀ (r : ReplyRec) (f : RxFrame) (began : Nat), x.inFlight.find? (fun r => !r.handed) = some r → r.started = some began → findFrame s m r.serial = some f →
      (now < began + r.bytes.length * bt → exec (.replyFcsHandover m) s = .next s) ∧
      (began + r.bytes.length * bt ≤ now → ∃ t, exec (.replyFcsHandover m) s = .next t ∧ near s t ∧ counts t 12 1 ∧
        let sent (stomp : Bool) : Prop := (getMac t m).wire = if lasersLit s then x.wire ++ [replyWire r stomp] else x.wire
        let gone : Prop := (getMac t m).inFlight = x.inFlight.filter (fun y => y.serial != r.serial)
        (f.verdict = some true → sent false ∧ gone ∧ counts t 19 1) ∧
        (f.verdict = some false ∨ (f.verdict = none ∧ f.conf.reply.mode = 2) → sent true ∧ gone ∧ counts t 20 1) ∧
        (f.verdict = none → f.conf.reply.mode ≠ 2 → sent false ∧
          (getMac t m).inFlight = x.inFlight.map (fun y => if y.serial == r.serial then { y with handed := true } else y)))) ∧
    (∀ c, c < 8 → let k := Table.get {} x.classes c
      let q := fldN x.conf.cfg.txQueues (8 * c) 8
      let sq := getQueue s q
      let held := !x.conf.cfg.enable || !x.conf.cfg.txValid.getLsbD c || decide (16384 < txBuffered x + x.conf.cfg.maxFrame)
      let classOf (t : State) : TxClass := Table.get {} (getMac t m).classes c
      -- what becomes of an item whose descriptor has been taken, in the state `u`
      let copies (it : TxItem) (u t : State) : Prop :=
        it.isSegment = false →
        let r := fillItem q (descLen it.desc) it u;
        (r.1.buf.length < descLen it.desc → classOf t = { k with item := some r.1 } ∧ t = { r.2 with eth := t.eth }) ∧
        (∀ it' f, descLen it.desc ≤ r.1.buf.length → copyNext m r.1 r.2 = (it', .inr f) →
          classOf t = { k with frame := some f, item := if it'.copied < it'.segments then some it' else none } ∧ t = { r.2 with eth := t.eth }) ∧
        (∀ it' e, descLen it.desc ≤ r.1.buf.length → copyNext m r.1 r.2 = (it', .inl e) → it'.segments ≤ it'.copied →
          (classOf t).frame = none ∧ (classOf t).item = none ∧
            counts t (match e with | .runt => 13 | .poisoned => 16 | .neverFits => 18) 1)
      k.frame = none →
      (held = true → exec (.txItemReady m c) s = .next s) ∧
      (held = false → 0 < k.skip → ∃ t, exec (.txItemReady m c) s = .next t ∧ t.queues = (takeCells q k.skip s).2.queues ∧
        classOf t = { k with skip := k.skip - (takeCells q k.skip s).1.length / 8 }) ∧
      (∀ it, held = false → k.skip = 0 → k.item = some it → ∃ t, exec (.txItemReady m c) s = .next t ∧ copies it s t) ∧
      (held = false → k.skip = 0 → k.item = none →
        (sq.reader ≠ 3 ∨ readsNow s q = false ∨ sq.atRead = none → exec (.txItemReady m c) s = .next s) ∧
        (∀ cell, sq.reader = 3 → readsNow s q = true → sq.atRead = some cell →
          let d := (wordBytes cell.words).map (fun e => e.1)
          (descBad sq d = true → ∃ t, exec (.txItemReady m c) s = .next t ∧ (classOf t).item = none ∧ (classOf t).frame = none ∧ counts t 15 1) ∧
          (descBad sq d = false → sq.wr < sq.rd + 1 + descCells d → exec (.txItemReady m c) s = .next s) ∧
          (descBad sq d = false → sq.rd + 1 + descCells d ≤ sq.wr →
            let it : TxItem := { desc := d, cells := descCells d }
            let big := !it.isSegment && decide (x.conf.cfg.maxFrame < descLen d + (if descKind d == 1 then 0 else 4))
            ∃ t, exec (.txItemReady m c) s = .next t ∧
              (big = true → (classOf t).item = none ∧ (classOf t).frame = none ∧ counts t 14 1) ∧
              (it.isSegment = true → descLen d ≤ descHeader d → (classOf t).item = none ∧ (classOf t).frame = none ∧ counts t 15 1) ∧
              (big = false → copies it (takeCells q 1 s).2 t))))) ∧
    (let u := dropUnfits m s;
      (chooseTx u m = .nothing → exec (.txFrameStart m) s = .next u) ∧
      (∀ r, chooseTx u m = .reply r → exec (.txFrameStart m) s = exec (.replyStart m) u) ∧
      (∀ c f, chooseTx u m = .item c f →
        let r : List Byte × State := match f.fwd with
          | some d => if (getPtp u m).tcEnable then transparentClock m d f.bytes u else (f.bytes, u)
          | none => if f.oneStep then oneStepSync m f.segment f.bytes u else (f.bytes, u)
        let had (i : Nat) : W32 := Table.get 0 (getMac u m).counters i
        ∃ t, exec (.txFrameStart m) s = .next t ∧ near r.2 t ∧ t.queues = u.queues ∧ t.time = r.2.time ∧
          (getMac t m).wire = (if lasersLit s then (getMac u m).wire ++ [r.1 ++ fcsOf r.1] else (getMac u m).wire) ∧ (Table.get {} (getMac t m).classes c).frame = none ∧
          counted t 12 = had 12 + 1 ∧ counted t 26 = had 26 + BitVec.ofNat 32 (r.1.length + 4) ∧
          counted t 27 = had 27 + BitVec.ofNat 32 (b2n f.padded) ∧ counted t 17 = had 17 + BitVec.ofNat 32 (b2n f.segment) ∧
          (getMac t m).busyUntil = now + (r.1.length + 24) * bt)) ∧
    (x.pendingGates = none → exec (.gateListTakesForce m) s = .next s) ∧
    (∀ g, x.pendingGates = some g →
      (s.time.total < g.takes → exec (.gateListTakesForce m) s = .next s) ∧
      (g.takes ≤ s.time.total → exec (.gateListTakesForce m) s =
        .next (put { x with inForce := some g, pendingGates := none, entry := (gateAt g s.time.total).1 }))) ∧
    (x.inForce = none → exec (.gateEntryAdvance m) s = .next s) ∧
    (∀ g, x.inForce = some g → exec (.gateEntryAdvance m) s = .next (put { x with entry := (gateAt g s.time.total).1 }))

/-! ### Optical lanes (R289 to R296) -/

/-- A lane in SEARCH is tested at the offset of its port's search, once and, where it finds six markers, again; the second good test locks it,
and the search moves on one offset once no lane waits, to fail after offset 256. A lane acquires on four good windows; an ALIGN group
gives it its feedback, raises it, marks it miswired or notes that its peer goes to sleep; a lane whose first codeword is bad is not raised; a
transmit lane runs after the 16 groups of its countdown and trains again when its peer is deaf or gone; a lost lane falls back to ACQUIRE, or fails after eight losses within a second.
Every row completes for every port and lane. Early rows do nothing (log entry 8); the order of tests is log entry 34. -/
def Obligations.LaneEventsAct : Prop :=
  ∀ (s : State) (p l : Nat), p < 40 → l < 9 →
    let x := getPort s p
    let k := x.lane l
    let now := s.clk.tticks
    let portOnly (t : State) : Prop := (∀ q, q ≠ p → getPort t q = getPort s q) ∧
      t = { s with fabric := { s.fabric with ports := t.fabric.ports }, host := t.host }
    let becomes (t : State) (y : Lane) : Prop := (getPort t p).lane l = y ∧ (∀ j, j ≠ l → (getPort t p).lane j = x.lane j) ∧ portOnly t
    let searching (j : Nat) : Prop := (x.lane j).rx = .search ∧ (x.lane j).hunt ≠ .out
    let idle : Prop := x.searchAt = none ∨ ∀ j < 9, ¬ searching j
    let go (offset : Nat) := exec (.laneSlipGo p l offset) s
    let first (o : Nat) (y : Lane) : Lane := { y with slipOffset := o, slipBusy := true, slipDone := false, hunt := .testing }
    (∀ n, (k.rx ≠ .search ∨ (idle ∧ n ≠ 0) ∨ (¬ idle ∧ x.searchAt ≠ some n)) → go n = .next s) ∧
    (k.rx = .search → idle → ∃ t, go 0 = .next t ∧ portOnly t ∧ (getPort t p).searchAt = some 0 ∧
      (∀ j < 9, (getPort t p).lane j =
        if j = l then first 0 k
        else if (x.lane j).rx = .search then { x.lane j with hunt := .todo } else { x.lane j with hunt := .out })) ∧
    (k.rx = .search → ¬ idle → ∀ o, x.searchAt = some o →
      let turn : Prop := k.hunt = .again ∧ ∀ j < 9, searching j → (x.lane j).hunt ≠ .todo ∧ (x.lane j).hunt ≠ .testing ∧
        (j < l → (x.lane j).hunt ≠ .again ∧ (x.lane j).hunt ≠ .retesting)
      ∃ t, go o = .next t ∧ (getPort t p).searchAt = some o ∧ (k.hunt = .todo → becomes t (first o k)) ∧
        (turn → becomes t { first o k with hunt := .retesting }) ∧ (k.hunt ≠ .todo → ¬ turn → becomes t k)) ∧
    (∀ bits : BitVec 2312,
      let found := alignMatches bits k.slipOffset
      let run := exec (.laneSlipTestDone p l bits) s
      let done : Lane := { k with slipBusy := false, slipDone := true, slipFound := found }
      let tested : Lane :=
        if k.rx ≠ .search then done
        else if found < 6 then { done with hunt := .tried }
        else if k.hunt = .retesting then { done with rx := .aligned, offset := k.slipOffset, hunt := .out, counted := false }
        else { done with hunt := .again }
      let lane (j : Nat) : Lane := if j = l then tested else x.lane j
      let left (j : Nat) : Prop := (lane j).rx = .search ∧ (lane j).hunt ≠ .out
      let allTried : Prop := ∀ j < 9, left j → (lane j).hunt = .tried
      (k.slipBusy = false → run = .next s) ∧
      (k.slipBusy = true → ∃ t, run = .next t ∧ portOnly t ∧
        (∀ j < 9, (¬ left j ∨ ¬ allTried ∨ x.searchAt = none) → (getPort t p).lane j = lane j) ∧
        (∀ o, x.searchAt = some o → allTried → (∃ j < 9, left j) →
          (getPort t p).searchAt = (if o < 256 then some (o + 1) else none) ∧
          ∀ j < 9, left j → (getPort t p).lane j = if o < 256 then { lane j with hunt := .todo } else dropLane now (lane j)))) ∧
    (∀ (group : BitVec 257) (rest : Option (BitVec 5183)) (g : AlignGroup) (clean : Bool),
      let run := exec (.alignGroupReceive p l group rest) s
      ((∀ h, (alignOf group rest).1 ≠ .align h) → (rest = none ∨ k.rx ≠ .aligned → run = .next s) ∧
        (rest ≠ none → k.rx = .aligned → ∃ t, run = .next t ∧ becomes t { k with counted := false })) ∧
      (alignOf group rest = (.align g, clean) →
        (x.role = 0 ∨ x.power = .deep ∨ (k.rx ≠ .aligned ∧ k.rx ≠ .up) → rest = none ∨ clean = true ∨ k.rx ≠ .aligned → run = .next s) ∧
        (x.role ≠ 0 → x.power ≠ .deep → (k.rx = .aligned ∨ k.rx = .up) →
          let wired : Prop := g.lane = l ∧ g.port = expectedPeer s p
          ∃ t, run = .next t ∧ portOnly t ∧
            (let y := getPort t p
             y.rxUse = g.txUse ∧ y.peerAligned = g.rxAligned ∧ y.peerUp = g.rxUp ∧ y.lastAlign = now ∧ y.peerEpoch = g.epoch ∧
             (∀ j, j < 9 → (y.lane j).tx = match (x.lane j).tx with
               | .train => if g.rxAligned.getLsbD j then .countdown else .train
               | .countdown => if g.rxAligned.getLsbD j then .countdown else .train
               | .run => if g.rxAligned.getLsbD j then .run else .train
               | u => u) ∧
             (∀ j, j ≠ l → (y.lane j).rx = (x.lane j).rx) ∧
             (k.rx = .aligned → ((y.lane l).miswired = true ↔ ¬ wired)) ∧
             (k.rx = .aligned → wired → g.mode = 2 → k.counted = true → clean = true →
               (y.lane l).rx = .up ∧ (y.lane l).marginal = decide (k.fom < 64)) ∧
             (k.rx = .aligned → ¬ wired → (y.lane l).rx = .aligned) ∧
             (k.rx = .aligned → g.mode = 2 → clean = false → (y.lane l).rx = .aligned ∧ (y.lane l).counted = false) ∧
             (g.mode = 1 → g.countdown = 0 → (y.lane l).counted = true) ∧
             (y.lane l).sleepFrom = (if g.mode = 3 then some (k.sleepFrom.getD now) else none) ∧ (g.mode = 3 → (y.lane l).rx = k.rx) ∧
             (g.epoch ≠ x.peerEpoch → y.reorder = [] ∧ y.rxBuf = [] ∧ y.expected = 0 ∧ y.freed = [] ∧ y.nakSent = none) ∧
             (g.epoch = x.peerEpoch → y.reorder = x.reorder ∧ y.rxBuf = x.rxBuf ∧ y.expected = x.expected ∧ y.freed = x.freed) ∧
             y.awaitEcho = (x.awaitEcho && g.rxEpoch != x.epoch))))) ∧
    (k.tx ≠ .countdown ∨ groupsIn (now - k.txAt) < 16 → exec (.txCountdownEnd p l) s = .next s) ∧
    (k.tx = .countdown → 16 ≤ groupsIn (now - k.txAt) → ∃ t, exec (.txCountdownEnd p l) s = .next t ∧
      becomes t { k with tx := .run, txAt := now, slots := 0, word := [], lastWord := [], flit := none }) ∧
    (now < x.lastAlign + 100000 → exec (.txDeafTimeout p) s = .next s) ∧
    (x.lastAlign + 100000 ≤ now → ∃ t, exec (.txDeafTimeout p) s = .next t ∧ portOnly t ∧
      (∀ j, j < 9 → (getPort t p).lane j = if (x.lane j).tx = .countdown ∨ (x.lane j).tx = .run then { x.lane j with tx := .train } else x.lane j)) ∧
    (∀ fom, let n := min 255 fom
      ((k.rx = .off ∨ k.rx = .sleep) → exec (.fomWindow p l fom) s = .next s) ∧
      (k.rx ≠ .off → k.rx ≠ .sleep →
        let low : Option Nat := if n < 48 then some (k.lowSince.getD now) else none
        let seen : Lane := { k with fom := n, marginal := k.rx == .up && decide (n < 64), lowSince := low }
        let y : Lane := if k.rx = .acquire then
            (if n < 96 then { seen with good := 0 } else if k.good < 3 then { seen with good := k.good + 1 }
             else { seen with rx := .search, good := 0, hunt := .out })
          else seen
        ∃ t, exec (.fomWindow p l fom) s = .next t ∧ becomes t y)) ∧
    (∀ cause, let low : Prop := ∃ since, k.lowSince = some since ∧ since + 100000 ≤ now
      ((k.rx = .aligned ∨ k.rx = .up) → (cause ≠ 0 ∨ low) → ∃ t, exec (.laneLost p l cause) s = .next t ∧ becomes t (dropLane now k) ∧
        Table.get 0 (getPort t p).counts 6 = satAdd (Table.get 0 x.counts 6) 1) ∧
      ((k.rx ≠ .aligned ∧ k.rx ≠ .up) ∨ (cause = 0 ∧ ¬ low) → exec (.laneLost p l cause) s = .next s))

/-! ### Flits, ports and packets (R297 to R308) -/

/-- A flit slot counts what its codewords say, and a good flit moves the retry buffer on, asks for a replay, brings credit and delivers its data
in order; a NAK and a replay are repeated in time; a port that stays DOWN is flushed into a new epoch; a drained port sleeps once its lanes
have sent their last two periods, and a sleeping one wakes. A whole packet is discarded, delivered or forwarded by the cases of R308, and waits only for the flits of its own virtual channel.
Every row completes for every port, lane, slot and channel. Early rows do nothing (log entry 8); the readings of R300 to R309 are log
entries 17 and 34. -/
def Obligations.PortEventsAct : Prop :=
  ∀ (s : State) (p : Nat), p < 40 →
    let x := getPort s p
    let now := s.clk.tticks
    let count (i : Nat) : W32 := Table.get 0 x.counts i
    let counted (t : State) (i : Nat) : W32 := Table.get 0 (getPort t p).counts i
    let portOnly (t : State) : Prop := (∀ q, q ≠ p → getPort t q = getPort s q) ∧
      t = { s with fabric := { s.fabric with ports := t.fabric.ports }, host := t.host }
    let put (y : FPort) : State := { s with fabric := { s.fabric with ports := Table.set {} s.fabric.ports p y } }
    let flushed (t : State) : Prop := (getPort t p).queue = [] ∧ (getPort t p).retry = [] ∧ (getPort t p).epoch = x.epoch + 1 ∧
      (getPort t p).awaitEcho = true ∧ counted t 5 = satAdd (count 5) (x.queue.length + x.retry.length) ∧ portOnly t
    (∀ (l slot : Nat) (groups : BitVec 5140) (parity : BitVec 300) (next : Option (BitVec 5440)), l < 9 → slot < 159 →
      let run := exec (.flitReceive p l slot groups parity next) s
      let ms := laneDecode (parity ++ groups) :: next.toList.map laneDecode
      let ends := slotEnds slot ms
      (x.role = 0 ∨ (x.lane l).rx ≠ .up → run = .next s) ∧
      (x.role ≠ 0 → (x.lane l).rx = .up → ∃ t, run = .next t ∧ portOnly t ∧
        counted t 0 = satAdd (count 0) (ends.map (fun m => (m.map (fun v => v.2)).getD 0)).sum ∧
        counted t 1 = satAdd (count 1) (ends.filter (fun m => m.isNone)).length ∧
        (let same : Prop := (getPort t p).rxBuf = x.rxBuf ∧ (getPort t p).expected = x.expected ∧ (getPort t p).credit = x.credit ∧
           (getPort t p).oldest = x.oldest ∧ (getPort t p).retry = x.retry
         (readSlot slot ms = .fill → counted t 2 = count 2 ∧ same) ∧
         (readSlot slot ms = .bad → counted t 2 = satAdd (count 2) 1 ∧ same) ∧
         (∀ b, readSlot slot ms = .flit b →
           let good : Prop := crc32 (b.take 252) = BitVec.ofNat 32 (leAt b 252 4)
           let seq := leAt b 0 2 % 4096
           let ack := leAt b 2 2 % 4096
           let ctrl := leAt b 4 1
           let f : Flit := { vc := leAt b 5 1 % 8, first := ctrl / 16 % 2 == 1, last := ctrl / 32 % 2 == 1, payload := slice b 12 (leAt b 8 1 + 1) }
           (¬ good → counted t 2 = satAdd (count 2) 1 ∧ same) ∧
           (good → counted t 2 = count 2 ∧
             (ctrl / 8 % 2 = 0 → (getPort t p).rxBuf = x.rxBuf ∧ (getPort t p).expected = x.expected) ∧
             (ctrl / 8 % 2 = 1 → seq = x.expected.toNat → x.reorder = [] →
               (getPort t p).rxBuf = x.rxBuf ++ [f] ∧ (getPort t p).expected = x.expected + 1) ∧
             (ctrl / 8 % 2 = 1 → ahead 12 seq x.expected.toNat = none →
               (getPort t p).rxBuf = x.rxBuf ∧ (getPort t p).expected = x.expected) ∧
             (∀ d, ahead 12 ack x.oldest.toNat = some d → 0 < d → d ≤ x.retry.length →
               (getPort t p).retry = x.retry.drop d ∧ (getPort t p).oldest = x.oldest + BitVec.ofNat 12 d ∧ (getPort t p).ackAt = now) ∧
             (∀ d, ahead 12 ack x.oldest.toNat = some d → d < x.retry.length → leAt b 2 2 / 4096 % 2 = 1 → x.nakSeen = none →
               (getPort t p).replay = some 0) ∧
             (∀ d, ahead 16 (leAt b 6 2) (Table.get 0 x.credit (ctrl % 8)) = some d →
               Table.get 0 (getPort t p).credit (ctrl % 8) = Table.get 0 x.credit (ctrl % 8) + d)))))) ∧
    (exec (.nakRepeat p) s = .next (match x.nakSent with
      | some t => if t + 2000 ≤ now then put { x with nakSent := some now, nakDue := true, counts := Table.set 0 x.counts 3 (satAdd (count 3) 1) } else s
      | none => s)) ∧
    (exec (.retryTimeout p) s = .next (if x.retry ≠ [] ∧ x.ackAt + 10000 ≤ now then put { x with ackAt := now, replay := some 0 } else s)) ∧
    (let late (d : Option Nat) : Prop := ∃ t, d = some t ∧ t + 10000000 ≤ now
     (¬ late x.txDown → ¬ late x.rxDown → exec (.portDownFlush p) s = .next s) ∧
     (late x.txDown ∨ late x.rxDown → ∃ t, exec (.portDownFlush p) s = .next t ∧ flushed t ∧ (late x.txDown → (getPort t p).txDown = none) ∧
       (late x.rxDown → (getPort t p).rxDown = none))) ∧
    (x.power = .entering → x.txAsleep = false → x.queue = [] → x.retry = [] → (∀ l < 9, (x.lane l).sleepBy = none) →
      ∃ t, exec (.deepDrainDone p) s = .next t ∧ portOnly t ∧
      (∀ l, l < 9 → let at_ := (x.lane l).stopsAt now
        (now < at_ → ((getPort t p).lane l).tx = (x.lane l).tx ∧ ((getPort t p).lane l).sleepBy = some at_) ∧
        (at_ ≤ now → ((getPort t p).lane l).tx = .sleep))) ∧
    (x.power ≠ .entering ∨ x.txAsleep = true ∨ x.queue ≠ [] ∨ x.retry ≠ [] ∨ (∃ l < 9, (x.lane l).sleepBy ≠ none) →
      exec (.deepDrainDone p) s = .next s) ∧
    (let y := getPort (restPort p s) p
     portOnly (restPort p s) ∧ (∀ l < 9, let k := x.lane l
      ((y.lane l).tx = if ∃ t, k.sleepBy = some t ∧ t ≤ now then .sleep else k.tx) ∧
      ((y.lane l).rx = if ∃ t, k.sleepFrom = some t ∧ t + 3277 ≤ now then .sleep else k.rx)) ∧
     ((∃ l < 9, (x.lane l).rest now ≠ x.lane l) → x.power = .entering → (∀ l < 9, (y.lane l).tx = .sleep) → y.txAsleep = true ∧
      (y.power = .deep ↔ (∀ l < 9, (y.lane l).rx = .sleep ∨ (y.lane l).rx = .off) ∧ (∃ l < 9, (y.lane l).rx = .sleep)) ∧
      (∀ f : Flight, x.txAsleep = false → s.host.flights = [f] → f.op = .fportPower → f.pkt.at_ 0 1 = p → f.pkt.at_ 1 1 = 1 → f.phase = .active →
        f.aborting = false → (findFlight (restPort p s) f.id).map (fun g => g.phase) =
          some (.done s.clk.cclk { status := 0, isPartial := !y.rxAsleep })))) ∧
    (x.power = .entering → x.txAsleep = false → x.entered + 1000000 ≤ now → (x.queue ≠ [] ∨ x.retry ≠ []) →
      ∃ t, exec (.deepDrainTimeout p) s = .next t ∧ flushed t) ∧
    (x.power ≠ .entering ∨ x.txAsleep = true ∨ now < x.entered + 1000000 ∨ (x.queue = [] ∧ x.retry = []) →
      exec (.deepDrainTimeout p) s = .next s) ∧
    (x.power ≠ .deep → exec (.activityWake p) s = .next s) ∧
    (x.power = .deep → ∃ t, exec (.activityWake p) s = .next t ∧ portOnly t ∧ (getPort t p).power = .active ∧
      (∀ l, l < 9 → ((getPort t p).lane l).tx = (if lasersLit s then .train else .off) ∧ ((getPort t p).lane l).rx = (if (x.lane l).failed then .off else .acquire))) ∧
    (∀ vc, vc < 8 → (wholePacket x vc = none → exec (.fabricPacket p vc) s = .next s) ∧
      (∀ fs, wholePacket x vc = some fs →
        let k := fromHost s p (parsePacket (fs.flatMap (fun f => f.payload)))
        let done := put { x with rxBuf := dropFlits vc fs.length x.rxBuf, freed := Table.set 0 x.freed vc (Table.get 0 x.freed vc + fs.length) }
        let run := exec (.fabricPacket p vc) s
        let dropped := run = .next { done with fabric := { done.fabric with unroutable := satAdd s.fabric.unroutable 1 } }
        let delivered := run = .next (arriveBody (pathOf p k) k.body done)
        let forwarded (q v : Nat) (m : FabPacket) : Prop :=
          ((∀ f ∈ (getPort s q).queue, f.vc ≠ v) → run = .next (queuePacket q v m.bytes done)) ∧
          ((∃ f ∈ (getPort s q).queue, f.vc = v) → run = .next s)
        let recovers : Prop := s.boot.stage = .recovery ∧ s.boot.cause = 1
        let illRouted : Prop := k.sourceRouted = true ∧ (routeOk k.route = false ∨ k.hopCount = 0 ∨ 12 < k.hopCount ∨ k.hopCount < k.hop)
        let away : Prop := s.fabric.coord ≠ none ∧ inSizes s k.dest = false
        (x.role = 3 → k.ty ≠ 1 → run = .next { done with fabric := { done.fabric with hostDrop := satAdd s.fabric.hostDrop 1 } }) ∧
        (x.role = 3 → k.ty = 1 → recovers → delivered) ∧
        (x.role = 3 → k.ty = 1 → ¬ recovers → s.fabric.isBridge = true → k.dest ∉ s.fabric.members →
          run = .next { done with fabric := { done.fabric with foreign := satAdd s.fabric.foreign 1 } }) ∧
        (s.fabric.isBridge = false → (x.role = 3 → k.ty = 1 ∧ ¬ recovers) →
          ((k.ty = 0 ∨ 3 < k.ty ∨ away ∨ illRouted ∨ (k.sourceRouted = false ∧ s.fabric.coord = none)) → dropped) ∧
          (k.sourceRouted = true → ¬ illRouted → ¬ away → (k.ty = 1 ∨ k.ty = 2) →
            (k.ty = 1 → k.hop = k.hopCount → delivered) ∧
            (∀ h, k.hop < k.hopCount → k.route.getD k.hop 0 = h → 8 ≤ h → (getPort s (24 + h)).role ≠ 0 →
              forwarded (24 + h) (if k.ty = 2 then 2 else 0) { k with hop := k.hop + 1 })) ∧
          (k.sourceRouted = false → inSizes s k.dest = true → ∀ c, s.fabric.coord = some c →
            (k.ty = 3 → run = .next (reduceArrive k.src k.body done)) ∧
            (k.ty = 1 → k.dest = c → delivered) ∧
            (k.ty = 2 → k.dest = c →
              let o := k.origin.toNat
              (32 ≤ o → o < 40 → (getPort s o).role = 3 → forwarded o 2 k) ∧ ((o < 32 ∨ 40 ≤ o ∨ (getPort s o).role ≠ 3) → dropped)) ∧
            (∀ d, (k.ty = 1 ∨ k.ty = 2) → k.dest ≠ c → dimOrder s c k.dest = some d →
              let v := (if k.ty = 2 then 2 else 0) + (if crosses s c d = true ∨ (x.role ≠ 3 ∧ portDir s p ^^^ 1 = d ∧ vc % 2 = 1) then 1 else 0)
              (trunk s d ≠ [] → forwarded ((trunk s d).getD ((k.src ^^^ k.dest).toNat % (trunk s d).length) 0) v k) ∧
              (trunk s d = [] → ((activeMember s d = true ∨ wakeable s d = none) → dropped) ∧
                (∀ q, activeMember s d = false → wakeable s d = some q →
                  run = .next (queuePacket q v k.bytes (wakePort q done)))))))))

/-! ### Power, ageing and sparing (R364 to R379, R426) -/

/-- The governor takes its sample and moves THROTTLE by one; an excess at 64 ends in an emergency stop, which ends when VCORE's current is idle.
VCORE's warning pauses the canopy until it has recovered for 2 µs; a thermal trip stops the device; monitors are measured against their birth
periods; VCORE moves by 5 mV at each acknowledgement; pending grafts go on by the column steps reported, and retirements are applied, once
their bay is free. Every row completes in every state; detectors are still in reset.
Early rows do nothing (log entry 8); the governor is log entry 24, SLOWDOWN and WARN log entry 29, grafts log entry 28. -/
def Obligations.PowerEventsAct : Prop :=
  ∀ s : State, let w := s.power
    let now := s.clk.tticks
    let put (y : Power) : State := { s with power := y }
    let vcore (mv : Nat) : Table Rail := Table.set {} w.rails 0 { Table.get {} w.rails 0 with mv := mv }
    (inReset s = true → (∀ rails maxC, exec (.governorSample rails maxC) s = .next s) ∧ (∀ mv, exec (.vcoreWarning mv) s = .next s) ∧
      (∀ c, exec (.thermalTrip c) s = .next s) ∧ (∀ ps, exec (.ageingMeasure ps) s = .next s)) ∧
    (∀ (rails : List (Nat × Nat)) (maxC : Nat),
      let run := exec (.governorSample rails maxC) s
      let mv := ((rails.take 9).headD (0, 0)).1
      let recovered : Prop := 96 * w.setpoint ≤ 100 * mv
      let u := put { w with
          samples := (((rails.take 9).map (fun r => r.1 * r.2)).sum :: w.samples).take 64, sampledAt := some now, maxC := maxC
          rails := (rails.take 9).zipIdx.foldl (fun t ri => Table.set {} t ri.2 { mv := ri.1.1, ma := ri.1.2 }) []
          warn := belowWarning s mv }
      let due : Prop := inReset s = false ∧ ∀ t, w.sampledAt = some t → t + 1000 ≤ now
      (∀ t, w.sampledAt = some t → now < t + 1000 → run = .next s) ∧
      (due → ∃ t, run = .next t ∧ t.power.samples = u.power.samples ∧ t.power.maxC = maxC ∧ t.power.rails = u.power.rails ∧
        t.power.warn = u.power.warn ∧ t.power.sampledAt = some now ∧
        (w.warnPause ≠ none → (recovered → t.power.hold = true) ∧ (¬ recovered → t.power.hold = false ∧ t.power.dipAt = now)) ∧
        (w.ramp ≠ 0 ∨ w.estop ≠ none → t.power.ramp = w.ramp - 1000 * max 10 w.slew ∧ t.power.throttle = w.throttle ∧ t.power.estop = w.estop) ∧
        (w.ramp = 0 → w.estop = none → w.warnPause ≠ none → t.power.throttle = w.throttle ∧ t.power.fill = w.fill ∧ t.power.estop = none) ∧
        (w.ramp = 0 → w.estop = none → w.warnPause = none →
          (overLimit u = true → w.fill = [] → w.throttle < 64 → w.fullSince = none → throttleFree u = true →
            t.power.throttle = w.throttle + 1 ∧ t.power.throttleMoved = some now ∧ t.power.estop = none) ∧
          (overLimit u = false → relaxed u = true → w.throttle ≠ 0 → throttleFree u = true →
            t.power.throttle = w.throttle - 1 ∧ t.power.throttleMoved = some now ∧ t.power.estop = none) ∧
          (overLimit u = false → relaxed u = false → t.power.throttle = w.throttle ∧ t.power.estop = none ∧ t.canopy = s.canopy) ∧
          (∀ since, overLimit u = true → w.throttle = 64 → w.fullSince = some since → since + 64000 ≤ now →
            t.power.estop = some .power ∧ t.arbor.stopped = true ∧ t.power.ramp = vcoreMa u)))) ∧
    (w.estop = none ∨ w.ramp ≠ 0 → exec .emergencyStopEnd s = .next s) ∧
    (w.ramp = 0 → w.estop = some .thermal → s.host.flights = [] → exec .emergencyStopEnd s = .next s) ∧
    (w.ramp = 0 → (w.estop = some .command ∨ w.estop = some .power) →
      (s.host.flights = [] → exec .emergencyStopEnd s = .next { s with power := { w with estop := none }, arbor := { s.arbor with stopped := false } }) ∧
      (∀ f : Flight, s.host.flights = [f] → f.op = .powerStop → f.phase = .active → f.aborting = false →
        ∃ t, exec .emergencyStopEnd s = .next t ∧ t.power.estop = none ∧ t.arbor.stopped = false ∧
          t.host.flights = [{ f with phase := .done s.clk.cclk {} }] ∧
          t = { s with host := t.host, power := { w with estop := none }, arbor := { s.arbor with stopped := false } })) ∧
    (inReset s = false → ∀ mv,
      (w.warnPause ≠ none → exec (.vcoreWarning mv) s = .next (if 96 * w.setpoint ≤ 100 * mv then put { w with rails := vcore mv }
        else put { w with rails := vcore mv, hold := false, dipAt := now })) ∧
      (w.warnPause = none → 94 * w.setpoint ≤ 100 * mv → exec (.vcoreWarning mv) s = .next s) ∧
      (w.warnPause = none → 100 * mv < 94 * w.setpoint → exec (.vcoreWarning mv) s =
        .next (postAll 0x0004 (leBytes 4 (satAdd w.brownouts 1).toNat ++ leBytes 2 w.setpoint ++ leBytes 2 mv) { s with
          canopy := { s.canopy with paused := true, pausedAt := some now }
          mgmt := { s.mgmt with pmbus := { s.mgmt.pmbus with status := s.mgmt.pmbus.status ||| (1#16 <<< 15) } }
          power := { w with rails := vcore mv
                            warn := true, hold := false, dipAt := now, warnPause := some now, brownouts := satAdd w.brownouts 1 } }))) ∧
    (∀ mv, (w.warnPause = none → exec (.pauseEnd mv) s = .next s) ∧
      (∀ t, w.warnPause = some t →
        let free : Prop := s.canopy.throttled = false ∧ s.boot.phase = .running
        let after (paused : Bool) : State := { s with
          canopy := { s.canopy with paused := paused, pauses := s.canopy.pauses + 1 }
          power := { w with rails := vcore mv, warn := false, hold := false, warnPause := none, lastPause := satAdd 0 (now - t) } }
        (100 * mv < 96 * w.setpoint → exec (.pauseEnd mv) s = .next (put { w with hold := false, dipAt := now })) ∧
        (96 * w.setpoint ≤ 100 * mv → now < w.dipAt + 2000 → exec (.pauseEnd mv) s = .next s) ∧
        (96 * w.setpoint ≤ 100 * mv → w.dipAt + 2000 ≤ now →
          (free → exec (.pauseEnd mv) s = .next (releasePins (after false))) ∧ (¬ free → exec (.pauseEnd mv) s = .next (after true))))) ∧
    (∀ c, (c < 115 ∨ w.trip = true → exec (.thermalTrip c) s = .next s) ∧
      (115 ≤ c → w.trip = false → inReset s = false → ∃ t, exec (.thermalTrip c) s = .next t ∧ t.power.trip = true ∧ t.power.maxC = c ∧
        t.power.estop = some .thermal ∧ t.vaults.selfRefresh = true ∧ (∀ p l, p < 40 → l < 9 → ((getPort t p).lane l).tx = .off) ∧
        (w.estop = none → t.arbor.stopped = true ∧ t.vaults.mem = s.vaults.mem ∧ t.flash = s.flash ∧
          t.mgmt.pmbus.status = s.mgmt.pmbus.status ||| (1#16 <<< 2) ||| (1#16 <<< 6)))) ∧
    (∀ ps : List Nat,
      (∀ t, w.measuredAt = some t → now < t + 1000000000 → exec (.ageingMeasure ps) s = .next s) ∧
      (inReset s = false → (∀ t, w.measuredAt = some t → t + 1000000000 ≤ now) → ∃ t, exec (.ageingMeasure ps) s = .next t ∧
        (∀ i, i < 256 → i < ps.length → let m : Monitor := Table.get {} w.monitors i
          let v := 10000 * ps.getD i 0 / (10000 + Table.get 0 s.flash.births i).toNat - 10000
          Table.get {} t.power.monitors i = ({ slowdown := v, warn := decide ((if m.warn then 250 else 300) ≤ v) } : Monitor)) ∧
        (∀ i, 256 ≤ i ∨ ps.length ≤ i → Table.get ({} : Monitor) t.power.monitors i = Table.get {} w.monitors i) ∧
        t = { s with host := t.host, power := { w with measuredAt := some now, monitors := t.power.monitors } })) ∧
    (let due : Prop := w.replanAt + w.replanHours * 3600000000000 ≤ now ∧ w.replan = none ∧ w.testFrom = none ∧ avsIdle s = true ∧ s.boot.stage = .ready
     let u := put { w with replanAt := now }
     (¬ due → exec .autoReplan s = .next s) ∧
     (due → replanSteps s = 0 → exec .autoReplan s = .next (if 300 < replanEff s then ageing 2 0 w.setpoint u else u)) ∧
     (due → replanSteps s ≠ 0 → 650 ≤ w.setpoint → w.minMv ≤ w.setpoint → w.setpoint + 5 ≤ 900 → exec .autoReplan s = .next (put { w with
        replanAt := now, goal := w.setpoint + 5, avs := some { target := w.setpoint + 5, at_ := now }
        replan := some { left := replanSteps s, steps := replanSteps s, eff := replanEff s, flight := none } }))) ∧
    (w.avs = none → exec .avsAck s = .next s ∧ exec .avsRetry s = .next s) ∧
    (∀ a, w.avs = some a →
      (now < a.at_ + 10000 → exec .avsRetry s = .next s) ∧
      (a.at_ + 10000 ≤ now → exec .avsRetry s = .next (put { w with avs := some { a with at_ := now } })) ∧
      (∃ t, exec .avsAck s = .next t ∧ t.power.setpoint = a.target) ∧
      (w.replan = none ∨ w.goal ≠ a.target →
        (w.goal = a.target → exec .avsAck s = .next (put { w with setpoint := a.target, avs := none })) ∧
        (w.goal ≠ a.target → exec .avsAck s = .next (put { w with setpoint := a.target, avs := some {
          target := if a.target < w.goal then min w.goal (a.target + 5) else max w.goal (a.target - 5), at_ := now } })))) ∧
    (∀ b n, b < 20 → s.host.flights = [] →
      (s.boot.stage ≠ .ready ∨ bayFree s b = false → exec (.graftApply ⟨b, n⟩) s = .next s ∧ exec (.bayRetire b) s = .next s) ∧
      (s.boot.stage = .ready → bayFree s b = true →
        (∀ col, Table.get none w.pendGraft b = some col →
          let steps := graftDone s b col + n
          let kept (t : State) : Prop := t = { s with
            host := t.host, vaults := t.vaults, canopy := { s.canopy with grafts := t.canopy.grafts },
            flash := { s.flash with grafts := t.flash.grafts, grafting := t.flash.grafting },
            power := { w with noSpare := t.power.noSpare, pendGraft := t.power.pendGraft } }
          (steps < 32 - col % 33 → ∃ t, exec (.graftApply ⟨b, n⟩) s = .next t ∧ kept t ∧ Table.get none t.flash.grafting b = some (col, steps) ∧
            t.power.pendGraft = w.pendGraft ∧ t.canopy.grafts = s.canopy.grafts ∧ t.flash.grafts = s.flash.grafts) ∧
          (32 - col % 33 ≤ steps → ∃ t, exec (.graftApply ⟨b, n⟩) s = .next t ∧ kept t ∧ Table.get none t.flash.grafting b = none ∧
            graftOf t b = { graftOf s b with failedPos := col % 33 } ∧ Table.get {} t.flash.grafts b = { Table.get {} s.flash.grafts b with failedPos := col % 33 } ∧
            (∀ c, c ≠ b → graftOf t c = graftOf s c) ∧ Table.get none t.power.pendGraft b = none ∧ t.power.noSpare = w.noSpare ||| (1#20 <<< b))) ∧
        (∀ col, Table.get none w.pendRetire b = some col → ∃ t, exec (.bayRetire b) s = .next t ∧
          graftOf t b = { graftOf s b with retired := true } ∧ Table.get {} t.flash.grafts b = { Table.get {} s.flash.grafts b with retired := true } ∧
          (∀ c, c ≠ b → graftOf t c = graftOf s c) ∧ Table.get none t.power.pendRetire b = none ∧ Table.get none t.power.pendGraft b = none ∧
          Table.get none t.flash.grafting b = none ∧
          (∀ q, q < 8 → (getPart s q).firstBay + (getPart s q).bays ≤ min 20 (liveBays t).length → getPart t q = getPart s q) ∧
          t = { s with host := t.host, canopy := { s.canopy with grafts := t.canopy.grafts, parts := t.canopy.parts }
                       flash := { s.flash with grafts := t.flash.grafts, grafting := t.flash.grafting }
                       power := { w with pendGraft := t.power.pendGraft, pendRetire := t.power.pendRetire } }) ∧
        (Table.get none w.pendGraft b = none → exec (.graftApply ⟨b, n⟩) s = .next s) ∧
        (Table.get none w.pendRetire b = none → exec (.bayRetire b) s = .next s)))

/-! ### Resets and boot (R371, R382 to R386, R398, R416, R417) -/

/-- A reset by RESET_N ramps the current down and then takes effect; PWR_GOOD and the supplies reset the device at once. A reset keeps flash,
pins and test logic and what the block has sent; only a thermal trip outlives the resets of the supplies. Boot checks the firmware, loads the
profile, forms the identity key and holds its public key against the certificate's, reads the tables of flash, trains the vaults and tests itself
at 25 mV less, or ends in recovery with its cause. What the ramp, the hold and the trip do is log entry 25, ports in recovery log entry 27, the
first lock of TCLK log entry 10, the code of the PUF and the contents of the certificate log entry 7. -/
def Obligations.ResetAndBootActs : Prop :=
  ∀ s : State,
    let after (cause : Nat) (trip : Bool) (phase : ResetPhase) (pins : Pins) : State := { State.reset with
      pending := s.pending, part := s.part, fresh := s.fresh, flash := s.flash, pins := pins
      mgmt := { jtag := s.mgmt.jtag, pmbus := { status := if trip then 4 else 0 } }, host := { sent := s.host.sent }, trig := { pins := s.trig.pins }, arbor := { stopped := trip }
      power := { resetCause := cause, trip := trip, estop := if trip then some .thermal else none }
      boot := { phase := phase } }
    let low : Pins := { s.pins with resetN := false }
    (s.boot.phase = .running → ∃ t, exec .resetNAssert s = .next t ∧ t.boot.phase = .ramping ∧ t.canopy.paused = true ∧
      t = { s with pins := low, boot := { s.boot with phase := .ramping }, canopy := t.canopy
                   power := { s.power with ramp := max s.power.ramp (vcoreMa s), fill := [], fillOn := 0 } }) ∧
    (s.boot.phase = .ramping → exec .resetNAssert s = .next { s with pins := low }) ∧
    (s.boot.phase = .inReset → exec .resetNAssert s = .next (after 0 false .inReset low)) ∧
    (s.boot.phase = .supplyHold → exec .resetNAssert s = .next (after 0 false .supplyHold low)) ∧
    (s.boot.phase ≠ .ramping ∨ s.power.ramp ≠ 0 → exec .resetTakesEffect s = .next s) ∧
    (s.boot.phase = .ramping → s.power.ramp = 0 →
      (s.pins.resetN = false ∨ s.pins.pwrGood = false → exec .resetTakesEffect s = .next (after 0 false .inReset s.pins)) ∧
      (s.pins.resetN = true → s.pins.pwrGood = true →
        exec .resetTakesEffect s = .next { after 0 false .inReset s.pins with boot := { phase := .running, stage := .rom } })) ∧
    (∀ sel addr good, let high : Pins := { resetN := true, pwrGood := good, profileSel := sel, pmbAddr := addr }
      (s.pins.resetN = true → exec (.resetNRelease sel addr good) s = .next s) ∧
      (s.pins.resetN = false → exec (.resetNRelease sel addr good) s = .next (if s.boot.phase = .inReset ∧ good = true
        then { s with pins := high, boot := { s.boot with phase := .running, stage := .rom } } else { s with pins := high }))) ∧
    (exec .pwrGoodLow s = .next (after 0 false (if s.boot.phase = .supplyHold then .supplyHold else .inReset) { s.pins with pwrGood := false })) ∧
    (∀ rail mv, rail < 9 → exec (.supplyReset rail mv) s = .next (if resetLevel s rail ≤ 100 * mv then s
      else if s.boot.phase = .ramping then after 0 false .supplyHold s.pins
      else after (if rail = 0 then 1 else 2) s.power.trip .supplyHold s.pins)) ∧
    (exec .supplyResetHoldEnd s = .next (if s.boot.phase ≠ .supplyHold then s
      else if s.pins.resetN = true ∧ s.pins.pwrGood = true then { s with boot := { s.boot with phase := .running, stage := .rom } }
      else { s with boot := { s.boot with phase := .inReset } })) ∧
    (∀ r : BootReport, s.host.flights = [] →
      (s.boot.phase ≠ .running ∨ s.boot.stage = .ready ∨ s.boot.stage = .recovery ∨ s.boot.stage = .tested → exec (.bootStep r) s = .next s) ∧
      (s.boot.phase = .running →
        (s.boot.stage = .rom → ∃ t, exec (.bootStep r) s = .next t ∧
          (fwCheck s.flash.firmware s.flash.floor = .valid → t = { s with boot := { s.boot with
            stage := .profile, floor := s.flash.floor, fwVersion := BitVec.ofNat 32 (leAt s.flash.firmware 8 4)
            fwSecurity := BitVec.ofNat 16 (fwSecVersion s.flash.firmware), fwDigest := slice s.flash.firmware 24 48 } }) ∧
          (fwCheck s.flash.firmware s.flash.floor ≠ .valid →
            t.boot.stage = .recovery ∧ t.boot.cause = 1 ∧ t.boot.fwVersion = 0 ∧ t.boot.floor = s.flash.floor ∧ t.flash = s.flash ∧
            t.time.pllLocked = !s.time.refLost ∧ (∀ i, i < 8 → (getPort t (32 + i)).role = 3 ∧ (getPort t (32 + i)).eqTable = 0))) ∧
        (s.boot.stage = .profile → ∃ t, exec (.bootStep r) s = .next t ∧ t.boot.stage = .identity ∧
          (slotValid (getSlot s s.pins.profileSel.toNat) = true →
            t.boot.slot = s.pins.profileSel.toNat ∧ t.boot.fallback = false ∧ t.boot.builtIn = false) ∧
          ((∀ n, n < 4 → slotValid (getSlot s n) = false) → t.boot.slot = 0 ∧ t.boot.fallback = true ∧ t.boot.builtIn = true)) ∧
        (s.boot.stage = .identity → avsIdle s = false → exec (.bootStep r) s = .next s) ∧
        (∀ d, bootKey r.puf s = some d ↔ ∃ z : BitVec 384, Config.pufCorrect r.puf s.flash.helper = some z ∧ d = z.toNat % (ecN - 1) + 1 ∧
          ecPublic d = slice (certificate s) 40 96) ∧
        (∀ d, s.boot.stage = .identity → avsIdle s = true → bootKey r.puf s = some d →
          exec (.bootStep r) s = .next { s with boot := { s.boot with stage := .tables, identityOk := true, identityKey := d } }) ∧
        (s.boot.stage = .identity → avsIdle s = true → bootKey r.puf s = none → exec (.bootStep r) s =
          .next { s with boot := { s.boot with stage := .recovery, cause := 2, claim := none, received := 0, restart := false } }) ∧
        (s.boot.stage = .tables → ∃ t, exec (.bootStep r) s = .next t ∧ t.boot.stage = .training ∧ t.canopy.grafts = s.flash.grafts ∧
          t.vaults = { s.vaults with redirects := s.flash.redirects, unrepaired := s.flash.unrepaired, repairs := s.flash.repairs } ∧
          t.time = { s.time with trims := s.flash.trims, pllLocked := !s.time.refLost } ∧ t.flash = s.flash) ∧
        (s.boot.stage = .training → ∃ t, exec (.bootStep r) s = .next t ∧ t.boot.stage = .selfTest ∧ t.vaults = { s.vaults with mem := [] } ∧
          t.power.testFrom = some s.power.setpoint ∧ t.power.goal = clampMv s (s.power.setpoint - 25) ∧
          t = { s with boot := t.boot, vaults := t.vaults, power := { s.power with testFrom := t.power.testFrom, goal := t.power.goal, avs := t.power.avs }, arbor := { s.arbor with engines := t.arbor.engines } }) ∧
        (s.boot.stage = .selfTest → avsIdle s = false → exec (.bootStep r) s = .next s) ∧
        (s.boot.stage = .selfTest → avsIdle s = true → ∃ t, exec (.bootStep r) s = .next t ∧ t.vaults = s.vaults ∧ t.flash = s.flash ∧
          t.power.testFrom = none ∧ (∀ mv, s.power.testFrom = some mv → t.power.goal = clampMv s mv) ∧
          (r.fatal = true ∨ s.time.pllLocked = false →
            t.boot = { s.boot with stage := .recovery, cause := 3, claim := none, received := 0, restart := false }) ∧
          (r.fatal = false → s.time.pllLocked = true → t.boot = { s.boot with stage := .tested })))) ∧
    (s.host.flights = [] → s.boot.stage ≠ .tested → exec .bootReady s = .next s) ∧
    (s.host.flights = [] → s.boot.stage = .tested → (∀ b, b < 20 → Table.get none s.power.pendGraft b = none ∧ Table.get none s.power.pendRetire b = none) →
      exec .bootReady s = .next { s with boot := { s.boot with stage := .ready } })

/-! ### The management interfaces (R425, R427, R428) -/

/-- PMBus: in reset no transaction is acknowledged; out of it PAGE is read and written, CLEAR_FAULTS clears the latched bits but those whose
condition holds, STATUS_WORD reports, the sensors answer a word, and what is not served latches CML. JTAG: each public instruction selects and
captures its register, EXTEST drives the outputs from the boundary register, and every other code is BYPASS. Roundings that the spec leaves open are free values.
Every row completes in every state; one whose operands name another row's command or instruction changes nothing.
Pages, checksums, the order of the cells and EXTEST are log entry 23. -/
def Obligations.ManagementActs : Prop :=
  ∀ s : State, let x := s.mgmt.pmbus
    let ends (y : Pmbus) : State := { s with mgmt := { s.mgmt with pmbus := y } }
    let failed (acked : Bool) : State := ends { x with status := x.status ||| (1#16 <<< 1), acked := acked, answer := [] }
    let word (v : Nat) : State := { ends { x with acked := true, answer := leBytes 2 v } with fresh := s.fresh + 1 }
    let free := Config.freeNat s.fresh
    let rail : Rail := Table.get {} s.power.rails x.page.toNat
    let j := s.mgmt.jtag
    let tests (y : Jtag) : State := { s with mgmt := { s.mgmt with jtag := y } }
    (inReset s = true → ∀ i : Instr, (i = .statusWord ∨ i = .voutMode ∨ i = .readVout ∨ i = .readIout ∨ i = .readTemperature1 ∨ i = .readPout ∨
        i = .pmbusRevision ∨ (∃ w ok, i = .page w ok) ∨ (∃ ok, i = .clearFaults ok) ∨ (∃ c w, i = .pmbusOtherCommand c w)) →
      exec i s = .next (ends { x with acked := false, answer := [] })) ∧
    (inReset s = false →
      (∀ ok, exec (.page none ok) s = .next (ends { x with acked := true, answer := [x.page] })) ∧
      (∀ b : Byte, (b.toNat ≤ 8 ∨ b = 0xFF) → exec (.page (some b) true) s = .next (ends { x with page := b, acked := true, answer := [] })) ∧
      (∀ (b : Byte) ok, ok = false ∨ (8 < b.toNat ∧ b ≠ 0xFF) → exec (.page (some b) ok) s = .next (failed ok)) ∧
      (exec (.clearFaults true) s = .next (ends { x with
        status := x.status &&& (if s.power.limitC < s.power.maxC ∨ s.power.trip = true then 4 else 0), acked := true, answer := [] })) ∧
      (exec (.clearFaults false) s = .next (failed false)) ∧
      (exec .voutMode s = .next (ends { x with acked := true, answer := [0x14] })) ∧
      (exec .statusWord s = .next (ends { x with acked := true, answer := leBytes 2 x.status.toNat })) ∧
      (exec .pmbusRevision s = .next (ends { x with acked := true, answer := [0x33] })) ∧
      (exec .readVout s = .next (word (if x.page = 0xFF then free else roundFree (rail.mv * 4096) 1000 free))) ∧
      (exec .readIout s = .next (word (if x.page = 0xFF then free else linear11 rail.ma 1000 free))) ∧
      (exec .readTemperature1 s = .next (word (linear11 s.power.maxC 1 free))) ∧
      (exec .readPout s = .next (word (if x.page = 0xFF then linear11 (powerAvg s) 1000000 free else linear11 (rail.mv * rail.ma) 1000000 free))) ∧
      (∀ (c : Byte) (wr : Bool), let served := (if wr then [0x00, 0x03] else [0x00, 0x20, 0x79, 0x8B, 0x8C, 0x8D, 0x96, 0x98]).contains c.toNat
        exec (.pmbusOtherCommand c wr) s = .next (if served then s else failed false))) ∧
    pmbusAddress s = (if inReset s then none else some (0x40 + s.pins.pmbAddr.setWidth 7)) ∧
    (boundaryCells.length = 42 ∧ ∀ pins : BitVec 42, ∀ i b k, boundaryCells[i]? = some (b, k) → (captureCells pins s).getLsbD i =
      match k with
      | .input => pins.getLsbD i
      | .data => (outLevel s b).getD (pins.getLsbD i)
      | .enable => (outDriven s b).getD (pins.getLsbD i)) ∧
    (let id : BitVec 42 := if s.part.b0 then 0x19400A6B else 0x09400A6B
     exec .idcode s = .next (tests { j with ir := 1, captured := id }) ∧ exec .testLogicReset s = .next (tests { j with ir := 1, captured := id })) ∧
    (∀ pins preload, exec (.samplePreload pins preload) s = .next (tests { ir := 2, captured := captureCells pins s, boundary := preload })) ∧
    (∀ scan : BoundaryScan, let b := scan.load
      (s.pins.resetN = true → exec (.extest scan) s = .next (tests { j with ir := 3, captured := 0 })) ∧
      (s.pins.resetN = false → ∃ t, exec (.extest scan) s = .next t ∧ t = tests { ir := 3, captured := captureCells scan.pins s, boundary := b } ∧
        (supplyWarnN t = if b.getLsbD 34 then b.getLsbD 33 else true) ∧ (alertN t = if b.getLsbD 36 then b.getLsbD 35 else true) ∧
        (thermTripN t = if b.getLsbD 38 then b.getLsbD 37 else true) ∧ uartTxPin t = some (if b.getLsbD 41 then b.getLsbD 40 else true) ∧
        (ppsOutPin t = if b.getLsbD 22 then b.getLsbD 21 else false) ∧
        ∀ o < 4, trigOutPin t o = if b.getLsbD (9 + 2 * o) then b.getLsbD (8 + 2 * o) else false)) ∧
    (∀ code : Byte, code.toNat ≠ 1 → code.toNat ≠ 2 → code.toNat ≠ 3 → exec (.bypass code) s = .next (tests { j with ir := code, captured := 0 })) ∧
    (∀ code : Byte, (code.toNat = 1 ∨ code.toNat = 2 ∨ code.toNat = 3) → exec (.bypass code) s = .next s)
end

