-- ==== Sys2Proof/Laws/Arrival.lean ====
section
/-! SUPPORT. The arrival of a command that is served at once, and its answer: what every statement about a host command starts from. -/

namespace Sys2Proof.Laws

open Sys2Proof Sys2Proof.Machine Sys2Proof.Safety

@[simp] theorem noteCommand_flights (p : Packet) (s : State) : (noteCommand p s).host.flights = s.host.flights := by
  unfold noteCommand updSession; split <;> rfl

@[simp] theorem noteCommand_nextId (p : Packet) (s : State) : (noteCommand p s).host.nextId = s.host.nextId := by
  unfold noteCommand updSession; split <;> rfl

@[simp] theorem noteCommand_steps (p : Packet) (s : State) : (noteCommand p s).host.steps = s.host.steps := by
  unfold noteCommand updSession; split <;> rfl

@[simp] theorem noteCommand_power (p : Packet) (s : State) : (noteCommand p s).power = s.power := by
  unfold noteCommand updSession; split <;> rfl

@[simp] theorem noteCommand_boot (p : Packet) (s : State) : (noteCommand p s).boot = s.boot := by
  unfold noteCommand updSession; split <;> rfl

/-- The serial number of the newest command finds it. -/
theorem find_last (l : List Flight) (f : Flight) (h : l.all (fun g => decide (g.id < f.id)) = true) :
    (l ++ [f]).find? (fun g => g.id == f.id) = some f := by
  induction l with
  | nil => simp
  | cons g l ih =>
    simp only [List.all_cons, Bool.and_eq_true, decide_eq_true_eq] at h
    have hne : (g.id == f.id) = false := by simpa using Nat.ne_of_lt h.1
    simp [List.find?, hne]
    simpa using ih h.2

/-- Changing the newest command changes no other. -/
theorem map_last (l : List Flight) (f : Flight) (k : Flight → Flight) (h : l.all (fun g => decide (g.id < f.id)) = true) :
    (l ++ [f]).map (fun g => if g.id == f.id then k g else g) = l ++ [k f] := by
  induction l with
  | nil => simp
  | cons g l ih =>
    simp only [List.all_cons, Bool.and_eq_true, decide_eq_true_eq] at h
    have hne : (g.id == f.id) = false := by simpa using Nat.ne_of_lt h.1
    rw [List.cons_append, List.map_cons, ih h.2]
    simp [hne]

/-- A command in flight whose serial number is the newest is found. -/
theorem findFlight_withFlight (f : Flight) (s : State) (hid : f.id = s.host.nextId) (h : serialsBelow s = true) :
    findFlight (withFlight f s) f.id = some f := by
  unfold findFlight withFlight
  simp only
  exact find_last _ _ (by simpa [serialsBelow, hid] using h)

/-- Changing it changes that command alone. -/
theorem updFlight_withFlight (f : Flight) (k : Flight → Flight) (s : State) (hp : (k f).pkt = f.pkt)
    (hid : f.id = s.host.nextId) (h : serialsBelow s = true) :
    updFlight f.id k (withFlight f s) = withFlight (k f) s := by
  unfold updFlight withFlight
  simp only [hp]
  rw [map_last _ _ _ (by simpa [serialsBelow, hid] using h)]

/-- A command that is served at once is served by its own rule. -/
theorem arrive_served (op : Op) (p : Packet) (s : State) (h : servedAtOnce op p s = true) :
    arrive op p s = serveOp (taken op p s) (inService op p s) := by
  simp only [servedAtOnce, Bool.and_eq_true, Bool.not_eq_true', beq_iff_eq] at h
  obtain ⟨⟨⟨⟨⟨⟨⟨⟨hd, hl⟩, hb⟩, hr⟩, hs⟩, hi⟩, hk⟩, hf⟩, hend⟩ := h
  have hid : (arriving op p s).id = s.host.nextId := rfl
  have hfind := findFlight_withFlight (arriving op p s) s hid hs
  have hupd := updFlight_withFlight (arriving op p s) (fun g => { g with phase := .active, lastStep := s.host.steps }) s rfl hid hs
  unfold arrive
  simp only [hd, hl, hb, hr, bne_self_eq_false, Bool.false_eq_true, if_false]
  unfold take
  have e1 : ({ noteCommand p s with host := { (noteCommand p s).host with
      flights := (noteCommand p s).host.flights ++ [{ ({ id := (noteCommand p s).host.nextId, op := op, pkt := p, phase := .waiting } : Flight) with
        names := allNames { id := (noteCommand p s).host.nextId, op := op, pkt := p, phase := .waiting } (noteCommand p s) }]
      nextId := (noteCommand p s).host.nextId + 1 } } : State) = withFlight (arriving op p s) s := by
    simp [withFlight, arriving]
  simp only [e1]
  have e0 (a b : State) : (if (endings (Flight.sess
      { id := (noteCommand p s).host.nextId, op := op, pkt := p, phase := .waiting, names := allNames { id := (noteCommand p s).host.nextId, op := op, pkt := p, phase := .waiting } (noteCommand p s) })
      (withFlight (arriving op p s) s)).isEmpty then a else b) = a := if_pos hend
  rw [e0]
  unfold tryServe
  have e2 : (noteCommand p s).host.nextId = (arriving op p s).id := by simp [arriving]
  rw [e2, hfind]
  simp only [hk, hf, show ((arriving op p s).phase != .waiting) = false from rfl, Bool.not_false, Bool.true_and, Bool.or_false,
    Bool.false_eq_true, if_false]
  unfold serve
  have e3 : (withFlight (arriving op p s) s).host.steps = s.host.steps := by simp [withFlight, arriving]
  have e4 : ((withFlight (taken op p s) s).power.trip && !op.servedAlways
      || (withFlight (taken op p s) s).boot.stage == .recovery && !op.servedAlways && op != .fwRecover) = false := by
    simpa [withFlight, taken, arriving, endsInternal] using hi
  simp only [e3]
  rw [hupd]
  have hc : ∀ (c : Bool) (x y : State), c = false → (if c = true then x else y) = y := by
    intro c x y h; simp [h]
  exact hc _ _ _ e4

/-- Serving changes nothing but the command engine before the command's own meaning begins. -/
theorem inService_eq (op : Op) (p : Packet) (s : State) : inService op p s = { s with host := (inService op p s).host } := by
  unfold inService withFlight noteCommand updSession
  simp only
  split <;> rfl

/-- The command engine and the clock are all that a completion reads, and the command engine all that it changes. -/
theorem complete_congr (id : Nat) (r : Reply) (u v : State) (hh : u.host = v.host) (hc : u.clk.cclk = v.clk.cclk) :
    complete id r u = { u with host := (complete id r v).host } := by
  have hf : findFlight u id = findFlight v id := by unfold findFlight; rw [hh]
  unfold complete
  rw [hf]
  cases findFlight v id with
  | none => simp only [← hh]
  | some f =>
    simp only
    split
    · simp only [← hh]
    · rw [hc, hh]
      split
      · unfold updSession updFlight abortsLate
        simp only [hh, hc]
      · unfold updSession updFlight
        simp only [hh, hc]

/-- Recording the completion of the command being served: whatever else its meaning has changed, the command engine is as
`answeredHost` says. -/
theorem complete_served (op : Op) (p : Packet) (r : Reply) (s u : State) (hs : serialsBelow s = true) (ha : r.abortLate = false)
    (hh : u.host = (inService op p s).host) (hc : u.clk.cclk = s.clk.cclk) :
    complete s.host.nextId r u = { u with host := answeredHost op p r s } := by
  have hid : (taken op p s).id = s.host.nextId := rfl
  have hfind : findFlight (inService op p s) s.host.nextId = some (taken op p s) := findFlight_withFlight (taken op p s) s hid hs
  have hupd : updFlight s.host.nextId (fun f => { f with phase := .done s.clk.cclk r }) (inService op p s) = _ :=
    updFlight_withFlight (taken op p s) (fun f => { f with phase := .done s.clk.cclk r }) s rfl hid hs
  have hc' : (inService op p s).clk = s.clk := by unfold inService withFlight noteCommand updSession; simp only; split <;> rfl
  rw [complete_congr s.host.nextId r u (inService op p s) hh (by rw [hc, hc'])]
  have : (complete s.host.nextId r (inService op p s)).host = answeredHost op p r s := by
    unfold complete
    simp only [hfind, hc', show (taken op p s).phase.isDone = false from rfl, Bool.false_eq_true, if_false,
      show ∀ b, (taken op p s).settled s.clk.cclk b r = r from fun _ => rfl, ha]
    rw [hupd]
    rfl
  rw [this]

end Sys2Proof.Laws
end

