-- ==== Sys2Proof/Laws/Table.lean ====
section
/-! SUPPORT. Sparse tables: reading after writing, and the canonical form. -/

namespace Sys2Proof.Laws

open Sys2Proof Sys2Proof.Machine

variable {α : Type}

/-- An erased index reads the default; another reads as before. -/
theorem table_get_erase (d : α) (t : Table α) (i j : Nat) :
    Table.get d (Table.erase t i) j = if j = i then d else Table.get d t j := by
  induction t with
  | nil => simp [Table.erase, Table.get]
  | cons kv t ih =>
    obtain ⟨k, v⟩ := kv
    by_cases hik : i = k
    · subst hik
      by_cases hj : j = i
      · subst hj; simpa [Table.erase] using ih
      · simp [Table.erase, Table.get, ih, hj]
    · by_cases hj : j = k
      · subst hj
        have : j ≠ i := fun h => hik h.symm
        simp [Table.erase, Table.get, hik, this]
      · simp [Table.erase, Table.get, hik, hj, ih]

/-- A put index reads what was put; another reads as before. -/
theorem table_get_put (d : α) (t : Table α) (i j : Nat) (x : α) :
    Table.get d (Table.put t i x) j = if j = i then x else Table.get d t j := by
  induction t with
  | nil => simp [Table.put, Table.get]
  | cons kv t ih =>
    obtain ⟨k, v⟩ := kv
    unfold Table.put
    split
    · simp [Table.get]
    · split
      · rename_i h
        have hk : i = k := by simpa using h
        subst hk
        by_cases hj : j = i <;> simp [Table.get, hj]
      · rename_i h
        have hk : ¬ i = k := by simpa using h
        by_cases hj : j = k
        · subst hj
          have : ¬ j = i := fun e => hk e.symm
          simp [Table.get, this]
        · simp [Table.get, hj, ih]

variable [DecidableEq α]

/-- A set index reads what was set; another reads as before. -/
@[simp] theorem table_get_set (d : α) (t : Table α) (i j : Nat) (x : α) :
    Table.get d (Table.set d t i x) j = if j = i then x else Table.get d t j := by
  unfold Table.set
  split
  · rename_i h; subst h; exact table_get_erase x t i j
  · exact table_get_put d t i j x

/-- An updated index reads the function of what it read; another reads as before. -/
@[simp] theorem table_get_upd (d : α) (t : Table α) (i j : Nat) (f : α → α) :
    Table.get d (Table.upd d t i f) j = if j = i then f (Table.get d t i) else Table.get d t j := by
  simp [Table.upd]

theorem table_get_set_self (d : α) (t : Table α) (i : Nat) (x : α) : Table.get d (Table.set d t i x) i = x := by simp

theorem table_get_set_ne (d : α) (t : Table α) {i j : Nat} (x : α) (h : j ≠ i) :
    Table.get d (Table.set d t i x) j = Table.get d t j := by simp [h]

/-- The canonical form, head and rest. -/
theorem table_wf_cons (d : α) (k : Nat) (v : α) (t : Table α) :
    Table.wf d ((k, v) :: t) = true ↔ v ≠ d ∧ (∀ kv ∈ t.head?, k < kv.1) ∧ Table.wf d t = true := by
  cases t with
  | nil => simp [Table.wf]
  | cons kv t => obtain ⟨k', v'⟩ := kv; simp [Table.wf, and_assoc]

/-- In a canonical table every index of the rest lies above the head's. -/
theorem table_wf_lt (d : α) (k : Nat) (v : α) (t : Table α) (h : Table.wf d ((k, v) :: t) = true) :
    ∀ kv ∈ t, k < kv.1 := by
  induction t generalizing k v with
  | nil => simp
  | cons kv t ih =>
    obtain ⟨k', v'⟩ := kv
    rw [table_wf_cons] at h
    obtain ⟨-, hlt, hw⟩ := h
    have h1 : k < k' := hlt (k', v') (by simp)
    intro x hx
    rcases List.mem_cons.mp hx with rfl | hx
    · exact h1
    · exact Nat.lt_trans h1 (ih k' v' hw x hx)

omit [DecidableEq α] in
theorem table_mem_erase (t : Table α) (i : Nat) : ∀ kv ∈ Table.erase t i, kv ∈ t := by
  induction t with
  | nil => simp [Table.erase]
  | cons kv t ih =>
    obtain ⟨k, v⟩ := kv
    intro x hx
    unfold Table.erase at hx
    split at hx
    · exact List.mem_cons_of_mem _ (ih x hx)
    · rcases List.mem_cons.mp hx with rfl | hx
      · simp
      · exact List.mem_cons_of_mem _ (ih x hx)

/-- A canonical table from its head and rest. -/
theorem table_wf_mk (d : α) (k : Nat) (v : α) (t : Table α) (hv : v ≠ d) (hk : ∀ kv ∈ t, k < kv.1) (ht : Table.wf d t = true) :
    Table.wf d ((k, v) :: t) = true := by
  rw [table_wf_cons]
  refine ⟨hv, ?_, ht⟩
  cases t with
  | nil => simp
  | cons kv t => intro x hx; simp at hx; subst hx; exact hk _ (by simp)

theorem table_wf_erase (d : α) (t : Table α) (i : Nat) (h : Table.wf d t = true) : Table.wf d (Table.erase t i) = true := by
  induction t with
  | nil => simpa [Table.erase] using h
  | cons kv t ih =>
    obtain ⟨k, v⟩ := kv
    have hw := (table_wf_cons d k v t).mp h
    unfold Table.erase
    split
    · exact ih hw.2.2
    · exact table_wf_mk d k v _ hw.1 (fun x hx => table_wf_lt d k v t h x (table_mem_erase t i x hx)) (ih hw.2.2)

omit [DecidableEq α] in
theorem table_mem_put (t : Table α) (i : Nat) (x : α) : ∀ kv ∈ Table.put t i x, kv = (i, x) ∨ kv ∈ t := by
  induction t with
  | nil => simp [Table.put]
  | cons kv t ih =>
    obtain ⟨k, v⟩ := kv
    intro y hy
    unfold Table.put at hy
    split at hy
    · simpa using hy
    · split at hy
      · rcases List.mem_cons.mp hy with rfl | hy
        · simp
        · exact .inr (List.mem_cons_of_mem _ hy)
      · rcases List.mem_cons.mp hy with rfl | hy
        · simp
        · rcases ih y hy with rfl | hy
          · simp
          · exact .inr (List.mem_cons_of_mem _ hy)

theorem table_wf_put (d : α) (t : Table α) (i : Nat) (x : α) (hx : x ≠ d) (h : Table.wf d t = true) :
    Table.wf d (Table.put t i x) = true := by
  induction t with
  | nil => simpa [Table.put, Table.wf] using hx
  | cons kv t ih =>
    obtain ⟨k, v⟩ := kv
    have hw := (table_wf_cons d k v t).mp h
    unfold Table.put
    split
    · rename_i hlt
      exact table_wf_mk d i x _ hx (fun y hy => by
        rcases List.mem_cons.mp hy with rfl | hy
        · exact hlt
        · exact Nat.lt_trans hlt (table_wf_lt d k v t h y hy)) h
    · split
      · rename_i hnlt he
        have he : i = k := by simpa using he
        subst he
        exact table_wf_mk d i x _ hx (table_wf_lt d i v t h) hw.2.2
      · rename_i hnlt hne
        have hne : ¬ i = k := by simpa using hne
        exact table_wf_mk d k v _ hw.1 (fun y hy => by
          rcases table_mem_put t i x y hy with rfl | hy
          · simp only; omega
          · exact table_wf_lt d k v t h y hy) (ih hw.2.2)

/-- Setting keeps the canonical form. -/
theorem table_wf_set (d : α) (t : Table α) (i : Nat) (x : α) (h : Table.wf d t = true) : Table.wf d (Table.set d t i x) = true := by
  unfold Table.set
  split
  · exact table_wf_erase d t i h
  · exact table_wf_put d t i x ‹_› h

theorem table_wf_upd (d : α) (t : Table α) (i : Nat) (f : α → α) (h : Table.wf d t = true) : Table.wf d (Table.upd d t i f) = true :=
  table_wf_set d t i _ h

theorem table_wf_foldl_set {β : Type} (d : α) (g : β → Nat) (f : β → α) (l : List β) (t : Table α) (h : Table.wf d t = true) :
    Table.wf d (l.foldl (fun acc b => Table.set d acc (g b) (f b)) t) = true := by
  induction l generalizing t with
  | nil => exact h
  | cons b l ih => exact ih _ (table_wf_set d t _ _ h)

/-- Changing every element keeps the canonical form. -/
theorem table_wf_mapAll (d : α) (f : Nat → α → α) (t : Table α) : Table.wf d (Table.mapAll d f t) = true :=
  table_wf_foldl_set d (fun kv : Nat × α => kv.1) (fun kv => f kv.1 kv.2) t [] rfl

omit [DecidableEq α] in
/-- An index below every listed one reads the default. -/
theorem table_get_of_lt (d : α) (t : Table α) (j : Nat) (h : ∀ kv ∈ t, j < kv.1) : Table.get d t j = d := by
  induction t with
  | nil => rfl
  | cons kv t ih =>
    obtain ⟨k, v⟩ := kv
    have h1 : j < k := h (k, v) (by simp)
    have : ¬ j = k := by omega
    simp [Table.get, this, ih (fun x hx => h x (List.mem_cons_of_mem _ hx))]

/-- Two canonical tables that read alike are equal: equal arrays are equal data. -/
theorem table_ext (d : α) (t u : Table α) (ht : Table.wf d t = true) (hu : Table.wf d u = true)
    (h : ∀ i, Table.get d t i = Table.get d u i) : t = u := by
  induction t generalizing u with
  | nil =>
    cases u with
    | nil => rfl
    | cons kv u =>
      obtain ⟨k, v⟩ := kv
      exact absurd (by simpa [Table.get] using (h k).symm) ((table_wf_cons d k v u).mp hu).1
  | cons kv t ih =>
    obtain ⟨k, v⟩ := kv
    have h1 := (table_wf_cons d k v t).mp ht
    cases u with
    | nil => exact absurd (by simpa [Table.get] using h k) h1.1
    | cons kv' u =>
      obtain ⟨k', v'⟩ := kv'
      have h2 := (table_wf_cons d k' v' u).mp hu
      have hk : k = k' := by
        rcases Nat.lt_trichotomy k k' with hlt | he | hlt
        · refine absurd ?_ h1.1
          have e := h k
          rw [table_get_of_lt d ((k', v') :: u) k (fun x hx => by
            rcases List.mem_cons.mp hx with rfl | hx
            · exact hlt
            · exact Nat.lt_trans hlt (table_wf_lt d k' v' u hu x hx))] at e
          simpa [Table.get] using e
        · exact he
        · refine absurd ?_ h2.1
          have e := h k'
          rw [table_get_of_lt d ((k, v) :: t) k' (fun x hx => by
            rcases List.mem_cons.mp hx with rfl | hx
            · exact hlt
            · exact Nat.lt_trans hlt (table_wf_lt d k v t ht x hx))] at e
          simpa [Table.get] using e.symm
      subst hk
      have hv : v = v' := by simpa [Table.get] using h k
      subst hv
      have : t = u := ih u h1.2.2 h2.2.2 (fun i => by
        by_cases hi : i = k
        · subst hi
          rw [table_get_of_lt d t i (table_wf_lt d i v t ht), table_get_of_lt d u i (table_wf_lt d i v u hu)]
        · simpa [Table.get, hi] using h i)
      rw [this]

end Sys2Proof.Laws
end

