-- ==== Sys2Proof/Laws/Memory.lean ====
section
/-! SUPPORT. Vault memory: what a write of a word stores, that it leaves every other word, and that the canonical form is kept. -/

namespace Sys2Proof.Laws

open Sys2Proof Sys2Proof.Machine

/-- Leaving out entries keeps the canonical form. -/
theorem table_wf_filter {α : Type} [DecidableEq α] (d : α) (p : Nat × α → Bool) (t : Table α) (h : Table.wf d t = true) :
    Table.wf d (t.filter p) = true := by
  induction t with
  | nil => exact h
  | cons kv t ih =>
    obtain ⟨k, v⟩ := kv
    have hw := (table_wf_cons d k v t).mp h
    rw [List.filter_cons]
    split
    · exact table_wf_mk d k v _ hw.1 (fun x hx => table_wf_lt d k v t h x (List.mem_filter.mp hx).1) (ih hw.2.2)
    · exact ih hw.2.2

/-- Writing the stored bytes of a location keeps the canonical form. -/
theorem memory_wf_setStored (loc : Nat) (c : List Byte) (mem : List Host.Cell) (h : Memory.wf mem = true) :
    Memory.wf (setStored loc c mem) = true :=
  table_wf_foldl_set 0 (fun i => 64 * loc + i) (fun i => c.getD i 0) (List.range 36) mem h

/-- What a table reads after many writes to different places: the latest write to the place, else what it read before. -/
theorem table_get_foldl_set {α : Type} [DecidableEq α] (d : α) (g : Nat → Nat) (f : Nat → α) (hg : ∀ i j, g i = g j → i = j)
    (n : Nat) (t : Table α) (j : Nat) :
    Table.get d ((List.range n).foldl (fun m i => Table.set d m (g i) (f i)) t) (g j) =
      if j < n then f j else Table.get d t (g j) := by
  induction n with
  | zero => simp
  | succ n ih =>
    rw [List.range_succ, List.foldl_append, List.foldl_cons, List.foldl_nil, table_get_set, ih]
    by_cases h : j = n
    · subst h; simp
    · have : g j ≠ g n := fun e => h (hg _ _ e)
      simp only [this, if_false]
      by_cases h2 : j < n
      · simp [h2, Nat.lt_succ_of_lt h2]
      · have : ¬ j < n + 1 := by omega
        simp [h2, this]

/-- What a table reads at a place that none of many writes goes to. -/
theorem table_get_foldl_set_ne {α : Type} [DecidableEq α] (d : α) (g : Nat → Nat) (f : Nat → α) (n : Nat) (t : Table α) (a : Nat)
    (h : ∀ i, i < n → a ≠ g i) : Table.get d ((List.range n).foldl (fun m i => Table.set d m (g i) (f i)) t) a = Table.get d t a := by
  induction n with
  | zero => simp
  | succ n ih =>
    rw [List.range_succ, List.foldl_append, List.foldl_cons, List.foldl_nil, table_get_set, if_neg (h n (Nat.lt_succ_self n))]
    exact ih (fun i hi => h i (Nat.lt_succ_of_lt hi))

/-- A byte of memory after a write of a location: one of the 36 written, or what it was. -/
theorem get_setStored (loc : Nat) (c : List Byte) (mem : List Host.Cell) (i : Nat) (hi : i < 36) :
    Table.get 0 (setStored loc c mem) (64 * loc + i) = c.getD i 0 := by
  have := table_get_foldl_set (0 : Byte) (fun i => 64 * loc + i) (fun i => c.getD i 0) (fun i j e => by omega) 36 mem i
  rw [if_pos hi] at this
  exact this

theorem get_setStored_ne (loc : Nat) (c : List Byte) (mem : List Host.Cell) (a : Nat) (h : a < 64 * loc ∨ 64 * loc + 36 ≤ a) :
    Table.get 0 (setStored loc c mem) a = Table.get 0 mem a :=
  table_get_foldl_set_ne 0 (fun i => 64 * loc + i) (fun i => c.getD i 0) 36 mem a (fun i hi => by omega)

/-- A written word reads as its 36 bytes. -/
theorem storedWord_writeWord (v word : Nat) (data : List Byte) (poison : Bool) (s : State) :
    storedWord (writeWord v word data poison s) (wordLoc s v word) = (List.range 36).map (fun i => (encodeWord data poison).getD i 0) := by
  unfold storedWord writeWord
  exact List.map_congr_left (fun i hi => get_setStored _ _ _ i (List.mem_range.mp hi))

/-- Every other location reads as before. -/
theorem storedWord_writeWord_ne (v word : Nat) (data : List Byte) (poison : Bool) (s : State) (loc : Nat) (h : loc ≠ wordLoc s v word) :
    storedWord (writeWord v word data poison s) loc = storedWord s loc := by
  unfold storedWord writeWord
  refine List.map_congr_left (fun i hi => get_setStored_ne _ _ _ _ ?_)
  have := List.mem_range.mp hi
  omega

/-- Writing a word keeps the canonical form. -/
theorem memory_wf_writeWord (v word : Nat) (data : List Byte) (poison : Bool) (s : State) (h : Memory.wf s.vaults.mem = true) :
    Memory.wf (writeWord v word data poison s).vaults.mem = true :=
  memory_wf_setStored _ _ _ h

/-- Reading a word leaves memory as it is: a read counts and queues, and rewrites nothing. -/
@[simp] theorem readWord_mem (v word source : Nat) (s : State) : (readWord v word source s).2.vaults.mem = s.vaults.mem := by
  unfold readWord queueRepair queueVisit
  dsimp only
  repeat' first
    | rfl
    | split

end Sys2Proof.Laws
end

