-- ==== Sys2Proof/Laws/Keeps.lean ====
section
/-! SUPPORT. What the shared operations keep: the commands waiting, which part it is, and the invariant. -/

namespace Sys2Proof.Laws

set_option Elab.async false

open Sys2Proof Sys2Proof.Machine Sys2Proof.Safety

/-- From `o` to `t`: the queue and the part are as they were, and the invariant goes on holding. -/
structure Keeps (o t : State) : Prop where
  pending : t.pending = o.pending
  part : t.part = o.part
  inv : Inv o → Inv t

theorem Keeps.refl (s : State) : Keeps s s := ⟨rfl, rfl, id⟩

theorem Keeps.trans {o s t : State} (h : Keeps o s) (g : Keeps s t) : Keeps o t :=
  ⟨g.pending.trans h.pending, g.part.trans h.part, g.inv ∘ h.inv⟩

/-- Events in a session's output. -/
abbrev nev (x : Session) : Nat := (x.outbox.filter OutItem.isEvent).length

/-- A state built from one that keeps, with the invariant's parts kept one by one, keeps. -/
theorem keeps_mk {o s : State} {fresh clk time host canopy vaults queues ring fabric arbor trig eth power flash boot pins mgmt}
    (h : Keeps o s) (hm : Memory.wf s.vaults.mem = true → Memory.wf vaults.mem = true) (hq : Table.wf {} s.queues = true → Table.wf {} queues = true)
    (he : Table.wf {} s.arbor.engines = true → Table.wf {} arbor.engines = true)
    (hc : Table.wf {} s.fabric.channels = true → Table.wf {} fabric.channels = true)
    (hf : s.host.flights.all (fun g => decide (g.id < s.host.nextId)) = true → host.flights.all (fun g => decide (g.id < host.nextId)) = true)
    (hs : (∀ i, nev (Table.get {} s.host.sessions i) ≤ 256) → ∀ i, nev (Table.get {} host.sessions i) ≤ 256)
    (hl : s.time.log.length ≤ 8 → time.log.length ≤ 8) (hr : s.ring.records.length ≤ 4096 → ring.records.length ≤ 4096)
    (hse : s.ring.seals.length ≤ 64 → ring.seals.length ≤ 64) :
    Keeps o { pending := s.pending, part := s.part, fresh := fresh, clk := clk, time := time, host := host, canopy := canopy, vaults := vaults
              queues := queues, ring := ring, fabric := fabric, arbor := arbor, trig := trig, eth := eth, power := power, flash := flash
              boot := boot, pins := pins, mgmt := mgmt } :=
  ⟨h.pending, h.part, fun i =>
    let k := h.inv i
    ⟨hm k.memory, hq k.queues, he k.engines, hc k.channels, hf k.serials, hs k.events, hl k.changes, hr k.records, hse k.seals⟩⟩

theorem keeps_power {o s : State} {p : Power} (h : Keeps o s) : Keeps o { s with power := p } :=
  keeps_mk h id id id id id id id id id

theorem keeps_ite {o s t : State} {c : Prop} [Decidable c] (hs : Keeps o s) (ht : Keeps o t) : Keeps o (if c then s else t) := by
  split <;> assumption

theorem keeps_ite_snd {α : Type} {o : State} {a b : α × State} {c : Prop} [Decidable c] (ha : Keeps o a.2) (hb : Keeps o b.2) :
    Keeps o (if c then a else b).2 := by split <;> assumption

theorem keeps_ite_same {o s t : State} {c : Prop} [Decidable c] (ht : Keeps o t) (hs : Keeps o t → Keeps o s) :
    Keeps o (if c then s else t) :=
  keeps_ite (hs ht) ht

theorem keeps_foldl {α : Type} {o s : State} {f : State → α → State} {l : List α} (h : Keeps o s)
    (hf : ∀ s x, Keeps o s → Keeps o (f s x)) : Keeps o (l.foldl f s) := by
  induction l generalizing s with
  | nil => exact h
  | cons x l ih => exact ih (hf s x h)

theorem keeps_snd {α : Type} {o s : State} {x : α × State} {a : α} (e : x = (a, s)) (h : Keeps o x.2) : Keeps o s := by
  subst e; exact h

theorem keeps_foldl_snd {α β : Type} {o : State} {f : β × State → α → β × State} {l : List α} {b : β × State} (h : Keeps o b.2)
    (hf : ∀ b x, Keeps o b.2 → Keeps o (f b x).2) : Keeps o (l.foldl f b).2 := by
  induction l generalizing b with
  | nil => exact h
  | cons x l ih => exact ih (hf b x h)

/-- Events in a part of a session's output. -/
theorem nev_sublist {l m : List OutItem} {n : Nat} (h : l.Sublist m) (hm : (m.filter OutItem.isEvent).length ≤ n) :
    (l.filter OutItem.isEvent).length ≤ n :=
  Nat.le_trans (h.filter _).length_le hm


/-- What clearing and writing a register word does keeps. -/
structure CsrKeeps (c : Csr) : Prop where
  clear : ∀ {o s f} v, c.onClear = some f → Keeps o s → Keeps o (f v s)
  write : ∀ {o s} v, Keeps o s → Keeps o (c.onWrite v s)

/-- So does every register word a map gives. -/
def CsrsKeep (x : Option Csr) : Prop := ∀ c, x = some c → CsrKeeps c

theorem csrs_none : CsrsKeep none := fun _ e => nomatch e

theorem csrs_ro {v r} : CsrsKeep (some (ro v r)) := fun _ e => Option.some.inj e ▸ { clear := fun _ n => (nomatch n), write := fun _ => id }

theorem csrs_rc {v f r} (hf : ∀ o s w, Keeps o s → Keeps o (f w s)) : CsrsKeep (some (rc v f r)) :=
  fun _ e => Option.some.inj e ▸ { clear := fun w n => Option.some.inj n ▸ hf _ _ w, write := fun _ => id }

theorem csrs_rw {v f r} (hf : ∀ o s w, Keeps o s → Keeps o (f w s)) : CsrsKeep (some (rw v f r)) :=
  fun _ e => Option.some.inj e ▸ { clear := fun _ n => (nomatch n), write := fun w => hf _ _ w }

/-! ### Shared operations -/

theorem keeps_updPart {o s : State} {p f} (h : Keeps o s) : Keeps o (updPart p f s) := by
  unfold updPart
  dsimp only
  repeat' first | with_reducible assumption | with_reducible exact id | with_reducible apply keeps_mk

theorem keeps_abortsLate {o s : State} {id0} (h : Keeps o s) : Keeps o (abortsLate id0 s) := by
  refine keeps_mk h id id id id (fun e => ?_) id id id id
  rw [List.all_eq_true] at e ⊢
  intro g m
  obtain ⟨f, mf, rfl⟩ := List.mem_map.mp m
  have := e f mf
  split <;> exact this

theorem keeps_updSession {o s : State} {i f} (h : Keeps o s)
    (hf : nev (getSession s i) ≤ 256 → nev (f (getSession s i)) ≤ 256) : Keeps o (updSession i f s) := by
  refine keeps_mk h id id id id id (fun g j => ?_) id id id
  simp only [table_get_upd]
  split
  · exact hf (g i)
  · exact g j

theorem keeps_updFlight {o s : State} {n g} (h : Keeps o s) (hg : ∀ f : Flight, (g f).id = f.id) : Keeps o (updFlight n g s) := by
  refine keeps_mk h id id id id (fun k => ?_) id id id id
  simp only [List.all_eq_true, List.mem_map, decide_eq_true_eq] at k ⊢
  rintro _ ⟨f, hf, rfl⟩
  split
  · exact hg f ▸ k f hf
  · exact k f hf

theorem keeps_complete {o s : State} {id0 r} (h : Keeps o s) : Keeps o (complete id0 r s) := by
  unfold complete
  dsimp only
  repeat' first
    | with_reducible assumption
    | (simpa [nev, OutItem.isEvent] using ‹nev _ ≤ 256›)
    | intro _
    | with_reducible apply keeps_abortsLate
    | with_reducible apply keeps_updSession
    | with_reducible apply keeps_updFlight
    | with_reducible apply keeps_ite_same
    | split

theorem keeps_avsNext {o s : State} (h : Keeps o s) : Keeps o (avsNext s) := by
  unfold avsNext
  dsimp only
  repeat' first
    | with_reducible assumption
    | with_reducible exact id
    | intro _
    | with_reducible apply keeps_ite_same
    | split
    | with_reducible apply keeps_mk

theorem keeps_avsMove {o s : State} {mv} (h : Keeps o s) : Keeps o (avsMove mv s) := by
  unfold avsMove
  dsimp only
  repeat' first
    | with_reducible assumption
    | with_reducible exact id
    | intro _
    | with_reducible apply keeps_avsNext
    | with_reducible apply keeps_ite_same
    | with_reducible apply keeps_mk

theorem keeps_testOver {o s : State} (h : Keeps o s) : Keeps o (testOver s) := by
  unfold testOver
  dsimp only
  repeat' first
    | with_reducible assumption
    | with_reducible exact id
    | with_reducible apply keeps_avsMove
    | split
    | with_reducible apply keeps_mk

theorem keeps_closeInputs {o s : State} {p c} (h : Keeps o s) : Keeps o (closeInputs p c s) :=
  keeps_updPart h

theorem keeps_endDrains {o s : State} {p} (h : Keeps o s) : Keeps o (endDrains p s) := by
  unfold endDrains
  dsimp only
  repeat' first
    | with_reducible assumption
    | intro _
    | with_reducible apply keeps_closeInputs
    | with_reducible apply keeps_complete
    | with_reducible apply keeps_ite_same
    | with_reducible apply keeps_foldl

theorem keeps_stopPartition {o s : State} {p} (h : Keeps o s) : Keeps o (stopPartition p s) :=
  keeps_updPart h

theorem keeps_updEdge {o s : State} {unit index f} (h : Keeps o s) : Keeps o (updEdge unit index f s) := by
  unfold updEdge
  dsimp only
  repeat' first | with_reducible assumption | with_reducible exact id | with_reducible apply keeps_mk

theorem keeps_discardTokens {o s : State} {p c} (h : Keeps o s) : Keeps o (discardTokens p c s) := by
  unfold discardTokens
  dsimp only
  repeat' first
    | with_reducible assumption
    | with_reducible exact id
    | intro _
    | with_reducible apply keeps_updEdge
    | with_reducible apply keeps_foldl
    | with_reducible apply keeps_mk

theorem keeps_postEvent {o s : State} {i code data} (h : Keeps o s) : Keeps o (postEvent i code data s) := by
  unfold postEvent
  refine keeps_ite_same h (fun _ => keeps_updSession h (fun g => ?_))
  split
  · rename_i k
    simp only [nev, List.filter_append, List.length_append, List.filter_cons, List.filter_nil, OutItem.isEvent, if_true, List.length_singleton]
    exact k
  · exact g

theorem keeps_postOwner {o s : State} {o0 code data} (h : Keeps o s) : Keeps o (postOwner o0 code data s) := by
  unfold postOwner
  repeat' first | with_reducible assumption | with_reducible apply keeps_postEvent | split

theorem keeps_postAll {o s : State} {code data} (h : Keeps o s) : Keeps o (postAll code data s) := by
  unfold postAll
  repeat' first | with_reducible assumption | intro _ | with_reducible apply keeps_postEvent | with_reducible apply keeps_foldl

theorem keeps_updTile {o s : State} {col row f} (h : Keeps o s) : Keeps o (updTile col row f s) := by
  unfold updTile
  dsimp only
  repeat' first | with_reducible assumption | with_reducible exact id | with_reducible apply keeps_mk

theorem keeps_takeFree {o s : State} (h : Keeps o s) : Keeps o (takeFree s).2 := by
  unfold takeFree
  dsimp only
  repeat' first | with_reducible assumption | with_reducible exact id | with_reducible apply keeps_mk

theorem keeps_raiseFault {o s : State} {p code col row rc index detail others count} (h : Keeps o s) :
    Keeps o (raiseFault p code col row rc index detail others count s) := by
  unfold raiseFault
  dsimp only
  repeat' first
    | with_reducible assumption
    | intro _
    | with_reducible apply keeps_stopPartition
    | with_reducible apply keeps_updPart
    | with_reducible apply keeps_endDrains
    | with_reducible apply keeps_ite_same

/-! ### Folds -/

theorem keeps_foldStore {o s : State} {p v r word mask data} (h : Keeps o s) : Keeps o (foldStore p v r word mask data s) := by
  unfold foldStore
  dsimp only
  repeat' first
    | with_reducible assumption
    | with_reducible exact id
    | intro _
    | with_reducible apply keeps_ite_same
    | with_reducible apply keeps_mk

theorem keeps_stepDone {o s : State} {p} (h : Keeps o s) : Keeps o (stepDone p s) := by
  unfold stepDone
  dsimp only
  repeat' first | with_reducible assumption | with_reducible exact id | split | with_reducible apply keeps_mk

theorem keeps_foldCut {o s : State} {p v k} (h : Keeps o s) : Keeps o (foldCut p v k s) := by
  unfold foldCut
  dsimp only
  repeat' first
    | with_reducible assumption
    | with_reducible exact id
    | intro _
    | with_reducible apply keeps_stepDone
    | with_reducible apply keeps_ite_same
    | split
    | with_reducible apply keeps_mk

/-! ### Vault words -/

theorem keeps_queueVisit {o s : State} {r} (h : Keeps o s) : Keeps o (queueVisit r s) := by
  unfold queueVisit
  dsimp only
  repeat' first
    | with_reducible assumption
    | with_reducible exact id
    | intro _
    | with_reducible apply keeps_ite_same
    | with_reducible apply keeps_mk

theorem keeps_queueRepair {o s : State} {r} (h : Keeps o s) : Keeps o (queueRepair r s) := by
  unfold queueRepair
  dsimp only
  repeat' first
    | with_reducible assumption
    | with_reducible exact id
    | intro _
    | with_reducible apply keeps_ite_same
    | with_reducible apply keeps_mk

theorem keeps_readWord {o s : State} {v word source} (h : Keeps o s) : Keeps o (readWord v word source s).2 := by
  unfold readWord
  dsimp only
  repeat' first
    | with_reducible assumption
    | with_reducible exact id
    | intro _
    | with_reducible apply keeps_queueVisit
    | with_reducible apply keeps_queueRepair
    | with_reducible apply keeps_ite_same
    | split
    | with_reducible apply keeps_mk

theorem keeps_writeWord {o s : State} {v word data poison} (h : Keeps o s) : Keeps o (writeWord v word data poison s) :=
  keeps_mk h (memory_wf_setStored _ _ _) id id id id id id id id

theorem keeps_scrubWord {o s : State} {v word} (h : Keeps o s) : Keeps o (scrubWord v word s) := by
  unfold scrubWord
  dsimp only
  repeat' first
    | with_reducible assumption
    | with_reducible exact id
    | intro _
    | with_reducible apply keeps_readWord
    | with_reducible apply keeps_writeWord
    | with_reducible apply keeps_queueRepair
    | with_reducible apply keeps_ite_same
    | with_reducible apply keeps_mk

/-! ### Accesses of vault banks -/

theorem keeps_markServed {o s : State} {pv} (h : Keeps o s) : Keeps o (markServed pv s) := by
  unfold markServed
  dsimp only
  repeat' first | with_reducible assumption | with_reducible exact id | with_reducible apply keeps_mk

theorem keeps_occupyBank {o s : State} {pv bank} (h : Keeps o s) : Keeps o (occupyBank pv bank s) := by
  unfold occupyBank
  dsimp only
  repeat' first | with_reducible assumption | with_reducible exact id | with_reducible apply keeps_mk

theorem keeps_served {o s : State} {k pv bank} (h : Keeps o s) : Keeps o (served k pv bank s) := by
  unfold served
  dsimp only
  repeat' first
    | with_reducible assumption
    | with_reducible exact id
    | with_reducible apply keeps_markServed
    | with_reducible apply keeps_occupyBank
    | with_reducible apply keeps_mk

theorem keeps_noteWait {o s : State} {k pv bank} (h : Keeps o s) : Keeps o (noteWait k pv bank s) := by
  unfold noteWait
  dsimp only
  repeat' first
    | with_reducible assumption
    | with_reducible exact id
    | intro _
    | with_reducible apply keeps_ite_same
    | with_reducible apply keeps_mk

theorem keeps_auxAccess {o s : State} {k pv bank effect} (h : Keeps o s) (he : ∀ u, Keeps o u → Keeps o (effect u)) :
    Keeps o (auxAccess k pv bank effect s) := keeps_ite (he _ (keeps_served h)) (keeps_noteWait h)

theorem keeps_wordAccess {o s : State} {k a effect} (h : Keeps o s) (he : ∀ u, Keeps o u → Keeps o (effect u)) :
    Keeps o (wordAccess k a effect s) := keeps_auxAccess h he

theorem keeps_accessNext {o s : State} {f effect} (h : Keeps o s) (he : ∀ a u, Keeps o u → Keeps o (effect a u)) :
    Keeps o (accessNext f effect s) := by
  unfold accessNext
  split
  · exact keeps_wordAccess h (he _)
  · exact h

theorem keeps_updQueue {o s : State} {q f} (h : Keeps o s) : Keeps o (updQueue q f s) :=
  keeps_mk h id (table_wf_upd _ _ _ _) id id id id id id id

theorem keeps_readImage {o s : State} {f} (h : Keeps o s) : Keeps o (readImage f s) :=
  keeps_accessNext h (fun _ _ k => keeps_updFlight (keeps_readWord k) (fun _ => rfl))

theorem keeps_occupy {o s : State} {pv bank until_} (h : Keeps o s) : Keeps o (occupy pv bank until_ s) := by
  unfold occupy
  dsimp only
  repeat' first | with_reducible assumption | with_reducible exact id | with_reducible apply keeps_mk

end Sys2Proof.Laws
end

