-- ==== Sys2Proof/Laws/KeepsUnits.lean ====
section
/-! SUPPORT. What the operations of tiles, links, spill queues, sessions and the Arbor keep. -/

namespace Sys2Proof.Laws

set_option Elab.async false

open Sys2Proof Sys2Proof.Machine Sys2Proof.Safety

/-! ### Tiles -/

theorem keeps_faultAt {o s : State} {a code detail} (h : Keeps o s) : Keeps o (faultAt a code detail s) :=
  keeps_raiseFault h

theorem keeps_bankConflict {o s : State} {a bank write user o4} (h : Keeps o s) : Keeps o (bankConflict a bank write user o4 s) :=
  keeps_raiseFault (keeps_updTile h)

theorem keeps_writeScratch {o s : State} {a user w v} (h : Keeps o s) : Keeps o (writeScratch a user w v s) := by
  unfold writeScratch
  dsimp only
  repeat' first
    | with_reducible assumption
    | intro _
    | with_reducible apply keeps_faultAt
    | with_reducible apply keeps_bankConflict
    | with_reducible apply keeps_updTile
    | with_reducible apply keeps_ite_same
    | split

theorem keeps_writeDst {o s : State} {a d v} (h : Keeps o s) : Keeps o (writeDst a d v s) := by
  unfold writeDst
  repeat' first | with_reducible assumption | with_reducible apply keeps_writeScratch | with_reducible apply keeps_updTile | split

theorem keeps_readScratch {o s : State} {a user w} (h : Keeps o s) : Keeps o (readScratch a user w s).2 := by
  unfold readScratch
  dsimp only
  repeat' first
    | with_reducible assumption
    | intro _
    | with_reducible apply keeps_faultAt
    | with_reducible apply keeps_bankConflict
    | with_reducible apply keeps_updTile
    | with_reducible apply keeps_updPart
    | with_reducible apply keeps_ite_same
    | split

theorem keeps_finishCvt {o s : State} {a k} (h : Keeps o s) : Keeps o (finishCvt a k s) :=
  keeps_updTile (keeps_updPart h)

theorem keeps_doCvtRead {o s : State} {a i} (h : Keeps o s) : Keeps o (doCvtRead a i s) := by
  unfold doCvtRead
  dsimp only
  repeat' first
    | with_reducible assumption
    | intro _
    | with_reducible apply keeps_updTile
    | with_reducible apply keeps_readScratch
    | with_reducible apply keeps_faultAt
    | with_reducible apply keeps_finishCvt
    | with_reducible apply keeps_ite_same
    | with_reducible apply keeps_foldl_snd
    | split
    | refine keeps_snd (by with_reducible assumption) ?_

theorem keeps_doStoreRead {o s : State} {a issued} (h : Keeps o s) : Keeps o (doStoreRead a issued s) := by
  unfold doStoreRead
  dsimp only
  repeat' first
    | with_reducible assumption
    | intro _
    | with_reducible apply keeps_readScratch
    | with_reducible apply keeps_updTile
    | with_reducible apply keeps_foldl_snd
    | split
    | refine keeps_snd (by with_reducible assumption) ?_

theorem keeps_stopDot {o s : State} {a} (h : Keeps o s) : Keeps o (stopDot a s) :=
  keeps_updTile h

theorem keeps_updSender {o s : State} {col row i g} (h : Keeps o s) : Keeps o (updSender col row i g s) := by
  unfold updSender
  repeat' first | with_reducible assumption | intro _ | with_reducible apply keeps_updTile | with_reducible apply keeps_ite_same | split

theorem keeps_freeCredit {o s : State} {col row i c} (h : Keeps o s) : Keeps o (freeCredit col row i c s) :=
  keeps_updSender h

theorem keeps_popToken {o s : State} {col row i c} (h : Keeps o s) : Keeps o (popToken col row i c s) :=
  keeps_freeCredit (keeps_updTile h)

theorem keeps_dotOperand {o s : State} {a d link base sel user word} (h : Keeps o s) :
    Keeps o (dotOperand a d link base sel user word s).2 := by
  unfold dotOperand
  dsimp only
  repeat' first
    | with_reducible assumption
    | with_reducible apply keeps_popToken
    | with_reducible apply keeps_faultAt
    | with_reducible apply keeps_readScratch
    | split
    | refine keeps_snd (by with_reducible assumption) ?_

theorem keeps_finishBlock {o s : State} {a j d} (h : Keeps o s) : Keeps o (finishBlock a j d s) := by
  unfold finishBlock
  dsimp only
  repeat' first | with_reducible assumption | intro _ | with_reducible apply keeps_updTile | with_reducible apply keeps_ite_same

theorem keeps_doDotWord {o s : State} {a j k} (h : Keeps o s) : Keeps o (doDotWord a j k s) := by
  unfold doDotWord
  dsimp only
  repeat' first
    | with_reducible assumption
    | intro _
    | with_reducible apply keeps_stopDot
    | with_reducible apply keeps_faultAt
    | with_reducible apply keeps_raiseFault
    | with_reducible apply keeps_dotOperand
    | with_reducible apply keeps_updTile
    | with_reducible apply keeps_finishBlock
    | with_reducible apply keeps_ite_same
    | split
    | refine keeps_snd (by with_reducible assumption) ?_

theorem keeps_doLoadReturn {o s : State} {a issued} (h : Keeps o s) : Keeps o (doLoadReturn a issued s) := by
  unfold doLoadReturn
  dsimp only
  repeat' first
    | with_reducible assumption
    | intro _
    | with_reducible apply keeps_writeScratch
    | with_reducible apply keeps_updTile
    | with_reducible apply keeps_foldl
    | split

theorem keeps_doDue {o s : State} {col row d} (h : Keeps o s) : Keeps o (doDue col row d s) := by
  unfold doDue
  dsimp only
  repeat' first
    | with_reducible assumption
    | with_reducible apply keeps_writeDst
    | with_reducible apply keeps_doCvtRead
    | with_reducible apply keeps_doStoreRead
    | with_reducible apply keeps_doDotWord
    | with_reducible apply keeps_doLoadReturn
    | with_reducible apply keeps_updTile
    | split

theorem keeps_runDues {o s : State} {col row sel} (h : Keeps o s) : Keeps o (runDues col row sel s) := by
  unfold runDues
  dsimp only
  repeat' first
    | with_reducible assumption
    | intro _
    | with_reducible apply keeps_doDue
    | with_reducible apply keeps_updTile
    | with_reducible apply keeps_ite_same
    | with_reducible apply keeps_foldl

theorem keeps_dueReads {o s : State} {col row} (h : Keeps o s) : Keeps o (dueReads col row s) :=
  keeps_runDues h

theorem keeps_runReads {o s : State} {col row} (h : Keeps o s) : Keeps o (runReads col row s) := by
  unfold runReads
  dsimp only
  repeat' first
    | with_reducible assumption
    | intro _
    | with_reducible apply keeps_dueReads
    | with_reducible apply keeps_updTile
    | with_reducible apply keeps_ite_same
    | split

theorem keeps_atIssue {o s : State} {a} (h : Keeps o s) : Keeps o (atIssue a s) :=
  keeps_updTile (keeps_runReads h)

theorem keeps_expireWait {o s : State} {p col row c index} (h : Keeps o s) : Keeps o (expireWait p col row c index s) :=
  keeps_faultAt (keeps_updTile h)

theorem keeps_enterRequest {o s : State} {a kind word scr} (h : Keeps o s) : Keeps o (enterRequest a kind word scr s) :=
  keeps_updTile h

theorem keeps_faultIssue {o s : State} {a code detail} (h : Keeps o s) : Keeps o (faultIssue a code detail s) :=
  keeps_faultAt (keeps_updTile h)

theorem keeps_holdAt {o s : State} {a} (h : Keeps o s) : Keeps o (holdAt a s) :=
  keeps_updTile h

theorem keeps_issued {o s : State} {a pc} (h : Keeps o s) : Keeps o (issued a pc s) :=
  keeps_updPart (keeps_updTile h)

theorem keeps_useLinks {o s : State} {col row ls} (h : Keeps o s) : Keeps o (useLinks col row ls s) :=
  keeps_updTile h

theorem keeps_gateFault {o s : State} {a code detail others links} (h : Keeps o s) : Keeps o (gateFault a code detail others links s) :=
  keeps_raiseFault (keeps_updTile (keeps_useLinks h))

/-- A state that an operation may answer keeps. -/
def KeepsSome (o : State) (x : Option State) : Prop := ∀ t, x = some t → Keeps o t

theorem keepsSome_some {o s : State} (h : Keeps o s) : KeepsSome o (some s) := fun _ e => Option.some.inj e ▸ h

theorem keepsSome_ite {o : State} {x y : Option State} {c : Prop} [Decidable c] (hx : KeepsSome o x) (hy : KeepsSome o y) :
    KeepsSome o (if c then x else y) := by
  split <;> assumption

theorem keepsSome_issueStop {o s : State} {a f} (h : Keeps o s) : KeepsSome o (issueStop a f s) := by
  have k {code detail} : Keeps o (faultIssue a code detail s) := keeps_faultIssue h
  have g : Keeps o (holdAt a s) := keeps_holdAt h
  unfold issueStop
  extract_lets now x t queueMode word
  clear_value now x t queueMode word
  split
  · exact keepsSome_some k
  · refine keepsSome_ite (keepsSome_some (keeps_ite k g)) (keepsSome_ite (keepsSome_some (keeps_ite k k)) ?_)
    split
    · exact keepsSome_some (keeps_updTile g)
    · exact keepsSome_some (keeps_gateFault h)
    · refine keepsSome_ite (keepsSome_some (keeps_ite k g)) (keepsSome_ite (keepsSome_some (keeps_ite g k)) ?_)
      split
      · exact keepsSome_some k
      · exact keepsSome_ite (keepsSome_some k) (keepsSome_ite (keepsSome_some k) fun _ e => nomatch e)

theorem keeps_issueStop {o s : State} {a f} {t : State} (h : Keeps o s) (e : issueStop a f s = some t) : Keeps o t :=
  keepsSome_issueStop h t e

theorem keeps_scratchOperand {o s : State} {a f} (h : Keeps o s) : Keeps o (scratchOperand a f s).2 := by
  unfold scratchOperand
  repeat' first | with_reducible assumption | with_reducible apply keeps_readScratch | split

theorem keeps_placeToken {o s : State} {p col row d k} (h : Keeps o s) : Keeps o (placeToken p col row d k s) := by
  unfold placeToken
  dsimp only
  repeat' first
    | with_reducible assumption
    | with_reducible apply keeps_updTile
    | with_reducible apply keeps_updPart
    | with_reducible apply keeps_updEdge
    | split

theorem keeps_startDot {o s : State} {a f scaleA scaleB} (h : Keeps o s) : Keeps o (startDot a f scaleA scaleB s) :=
  keeps_updTile h

theorem keeps_startCvt {o s : State} {a f} (h : Keeps o s) : Keeps o (startCvt a f s) :=
  keeps_updTile h

theorem keeps_execute {o s : State} {at_ f va vb vc vd mask} (h : Keeps o s) : Keeps o (execute at_ f va vb vc vd mask s) := by
  unfold execute
  dsimp only
  repeat' first
    | with_reducible assumption
    | intro _
    | with_reducible apply keeps_issued
    | with_reducible apply keeps_writeDst
    | with_reducible apply keeps_updTile
    | with_reducible apply keeps_faultIssue
    | with_reducible apply keeps_enterRequest
    | with_reducible apply keeps_placeToken
    | with_reducible apply keeps_startDot
    | with_reducible apply keeps_startCvt
    | with_reducible apply keeps_ite_same
    | with_reducible apply keeps_foldl
    | split

theorem keeps_takeTokens {o s : State} {a f} (h : Keeps o s) : Keeps o (takeTokens a f s) := by
  unfold takeTokens
  repeat' first | with_reducible assumption | intro _ | with_reducible apply keeps_popToken | with_reducible apply keeps_foldl

theorem keeps_issueCases {o s : State} {a f} (h : Keeps o s) : Keeps o (issueCases a f s) := by
  unfold issueCases
  dsimp only
  repeat' first
    | with_reducible assumption
    | refine keeps_issueStop ?_ (by assumption)
    | with_reducible apply keeps_scratchOperand
    | with_reducible apply keeps_updTile
    | with_reducible apply keeps_faultIssue
    | with_reducible apply keeps_execute
    | with_reducible apply keeps_takeTokens
    | split
    | refine keeps_snd (by with_reducible assumption) ?_

theorem keeps_issueWord {o s : State} {a f} (h : Keeps o s) : Keeps o (issueWord a f s) := by
  unfold issueWord
  repeat' first
    | with_reducible assumption
    | intro _
    | with_reducible apply keeps_faultIssue
    | with_reducible apply keeps_holdAt
    | with_reducible apply keeps_issued
    | with_reducible apply keeps_issueCases
    | with_reducible apply keeps_ite_same

theorem keeps_issueTile {o s : State} {sel col row} (h : Keeps o s) : Keeps o (issueTile sel col row s) := by
  unfold issueTile
  dsimp only
  repeat' first
    | with_reducible assumption
    | intro _
    | with_reducible apply keeps_issueWord
    | with_reducible apply keeps_atIssue
    | with_reducible apply keeps_ite_same
    | split

/-! ### Edges and links -/

theorem keeps_waitMet {o s : State} {col row} (h : Keeps o s) : Keeps o (waitMet col row s) :=
  keeps_updTile (keeps_runReads h)

theorem keeps_waitExpiry {o s : State} {col row} (h : Keeps o s) : Keeps o (waitExpiry col row s) := by
  unfold waitExpiry
  dsimp only
  repeat' first
    | with_reducible assumption
    | intro _
    | with_reducible apply keeps_waitMet
    | with_reducible apply keeps_expireWait
    | with_reducible apply keeps_foldl
    | split

theorem keeps_tileCycleEnd {o s : State} {col row} (h : Keeps o s) : Keeps o (tileCycleEnd col row s) :=
  keeps_updTile (keeps_runDues (keeps_waitExpiry h))

theorem keeps_creditReturn {o s : State} {col row d} (h : Keeps o s) : Keeps o (creditReturn col row d s) :=
  keeps_updTile h

theorem keeps_dotBlock {o s : State} {col row} (h : Keeps o s) : Keeps o (dotBlock col row s) :=
  keeps_runDues h

theorem keeps_dropRequest {o s : State} {col row issued} (h : Keeps o s) : Keeps o (dropRequest col row issued s) :=
  keeps_updTile h

theorem keeps_endCycle {o s : State} {col row} (h : Keeps o s) : Keeps o (endCycle col row s) := by
  unfold endCycle
  repeat' first
    | with_reducible assumption
    | intro _
    | with_reducible apply keeps_updTile
    | with_reducible apply keeps_waitMet
    | with_reducible apply keeps_ite_same

theorem keeps_runWrites {o s : State} {col row sel} (h : Keeps o s) : Keeps o (runWrites col row sel s) := by
  unfold runWrites
  dsimp only
  repeat' first
    | with_reducible assumption
    | intro _
    | with_reducible apply keeps_runReads
    | with_reducible apply keeps_runDues
    | with_reducible apply keeps_endCycle
    | with_reducible apply keeps_ite_same

theorem keeps_lateResult {o s : State} {col row} (h : Keeps o s) : Keeps o (lateResult col row s) :=
  keeps_runWrites h

theorem keeps_loseSampleWord {o s : State} {p col row d at_} (h : Keeps o s) : Keeps o (loseSampleWord p col row d at_ s) := by
  unfold loseSampleWord
  dsimp only
  repeat' first
    | with_reducible assumption
    | with_reducible exact id
    | intro _
    | with_reducible apply keeps_ite_same
    | split
    | with_reducible apply keeps_mk

theorem keeps_tokenArrival {o s : State} {col row d parityOk} (h : Keeps o s) : Keeps o (tokenArrival col row d parityOk s) := by
  unfold tokenArrival
  dsimp only
  repeat' first
    | with_reducible assumption
    | intro _
    | with_reducible apply keeps_updTile
    | with_reducible apply keeps_updPart
    | with_reducible apply keeps_freeCredit
    | with_reducible apply keeps_raiseFault
    | with_reducible apply keeps_loseSampleWord
    | with_reducible apply keeps_ite_same
    | split

theorem keeps_passDepart {o s : State} {col row d c} (h : Keeps o s) : Keeps o (passDepart col row d c s) := by
  unfold passDepart
  dsimp only
  repeat' first
    | with_reducible assumption
    | intro _
    | with_reducible apply keeps_raiseFault
    | with_reducible apply keeps_useLinks
    | with_reducible apply keeps_placeToken
    | with_reducible apply keeps_updTile
    | with_reducible apply keeps_freeCredit
    | with_reducible apply keeps_ite_same
    | with_reducible apply keeps_foldl
    | split

theorem keeps_vaultConflict {o s : State} {p col row r port} (h : Keeps o s) : Keeps o (vaultConflict p col row r port s) :=
  keeps_faultAt (keeps_dropRequest h)

theorem keeps_serveRequest {o s : State} {p col row r padded} (h : Keeps o s) : Keeps o (serveRequest p col row r padded s) := by
  unfold serveRequest
  dsimp only
  repeat' first
    | with_reducible assumption
    | intro _
    | with_reducible apply keeps_updTile
    | with_reducible apply keeps_readWord
    | with_reducible apply keeps_writeWord
    | with_reducible apply keeps_foldStore
    | with_reducible apply keeps_foldCut
    | with_reducible apply keeps_ite_same
    | split

theorem keeps_vaultService {o s : State} {col row} (h : Keeps o s) : Keeps o (vaultService col row s) := by
  unfold vaultService
  dsimp only
  repeat' first
    | with_reducible assumption
    | with_reducible exact id
    | intro _
    | with_reducible apply keeps_vaultConflict
    | with_reducible apply keeps_occupy
    | with_reducible apply keeps_serveRequest
    | with_reducible apply keeps_markServed
    | with_reducible apply keeps_occupyBank
    | with_reducible apply keeps_ite_same
    | with_reducible apply keeps_foldl
    | split
    | with_reducible apply keeps_mk

theorem keeps_vaultLoadReturn {o s : State} {col row} (h : Keeps o s) : Keeps o (vaultLoadReturn col row s) := by
  unfold vaultLoadReturn
  dsimp only
  repeat' first
    | with_reducible assumption
    | intro _
    | with_reducible apply keeps_runWrites
    | with_reducible apply keeps_runReads
    | with_reducible apply keeps_doLoadReturn
    | with_reducible apply keeps_endCycle
    | with_reducible apply keeps_ite_same
    | split

/-! ### Spill queues -/

theorem keeps_readWords {o s : State} {q n} (h : Keeps o s) : Keeps o (readWords q n s).2 := by
  induction n generalizing s with
  | zero => exact h
  | succ n ih =>
    unfold readWords
    split
    · exact ih (keeps_updQueue h)
    · exact h

theorem keeps_edgeDeliver {o s t : State} {unit index v poison} (h : Keeps o s) (e : edgeDeliver unit index v poison s = some t) :
    Keeps o t := by
  unfold edgeDeliver at e
  dsimp only at e
  repeat' split at e
  all_goals first
    | (simp only [reduceCtorEq] at e; done)
    | (injection e with e; subst e; exact keeps_updPart (keeps_updTile h))

theorem keeps_arriveCell {o s : State} {q a} (h : Keeps o s) : Keeps o (arriveCell q a s) :=
  keeps_updQueue h

theorem keeps_commitCell {o s : State} {q source words} (h : Keeps o s) : Keeps o (commitCell q source words s) :=
  keeps_arriveCell h

theorem keeps_edgeTake {o s t : State} {unit index k} (h : Keeps o s) (e : edgeTake unit index s = some (k, t)) : Keeps o t := by
  unfold edgeTake at e
  split at e
  · split at e
    · cases e
    · cases e
      have u {x : Table Nat} : Keeps o { updEdge unit index (fun ws => ws.drop 1) s with
          canopy := { (updEdge unit index (fun ws => ws.drop 1) s).canopy with taken := x } } := keeps_mk (keeps_updEdge h) id id id id id id id id id
      split
      · exact keeps_ite u (keeps_updTile u)
      · exact u
  · cases e

theorem keeps_queueControl {o s : State} {q f} (h : Keeps o s) : Keeps o (queueControl q f s) :=
  keeps_updQueue h

theorem keeps_sqControlWord {o s : State} {q} (h : Keeps o s) : Keeps o (sqControlWord q s) := by
  unfold sqControlWord
  repeat' first
    | with_reducible assumption
    | intro _
    | refine keeps_edgeTake ?_ (by assumption)
    | with_reducible apply keeps_queueControl
    | with_reducible apply keeps_ite_same
    | split

theorem keeps_settleQueue {o s : State} {q} (h : Keeps o s) : Keeps o (settleQueue q s) := by
  unfold settleQueue
  dsimp only
  repeat' first
    | with_reducible assumption
    | with_reducible rfl
    | intro _
    | with_reducible apply keeps_sqControlWord
    | with_reducible apply keeps_updFlight
    | with_reducible apply keeps_updQueue
    | with_reducible apply keeps_foldl

theorem keeps_readHalf {o s : State} {q a} (h : Keeps o s) : Keeps o (readHalf q a s) :=
  keeps_updQueue (keeps_readWord h)

theorem keeps_cellToHead {o s : State} {q} (h : Keeps o s) : Keeps o (cellToHead q s) := by
  unfold cellToHead
  dsimp only
  split
  · exact keeps_wordAccess h (fun _ k => keeps_readHalf k)
  · refine keeps_ite h ?_
    split
    · exact keeps_updQueue h
    · exact h

theorem keeps_writeHalf {o s : State} {q a} (h : Keeps o s) : Keeps o (writeHalf q a s) := by
  unfold writeHalf
  dsimp only
  repeat' first | with_reducible assumption | with_reducible apply keeps_updQueue | with_reducible apply keeps_writeWord | split

theorem keeps_cellToRegion {o s : State} {q} (h : Keeps o s) : Keeps o (cellToRegion q s) := by
  unfold cellToRegion
  split
  · exact keeps_wordAccess h (fun _ k => keeps_writeHalf k)
  · exact h

theorem keeps_sqDataToken {o s : State} {q} (h : Keeps o s) : Keeps o (sqDataToken q s) := by
  unfold sqDataToken
  dsimp only
  repeat' first
    | with_reducible assumption
    | intro _
    | refine keeps_edgeTake ?_ (by assumption)
    | with_reducible apply keeps_updQueue
    | with_reducible apply keeps_ite_same
    | split

theorem keeps_sqReadDelivery {o s : State} {q parityOk} (h : Keeps o s) : Keeps o (sqReadDelivery q parityOk s) := by
  unfold sqReadDelivery
  dsimp only
  repeat' first
    | with_reducible assumption
    | intro _
    | refine keeps_edgeDeliver ?_ (by assumption)
    | with_reducible apply keeps_updQueue
    | with_reducible apply keeps_ite_same
    | split

theorem keeps_settleQueues {o s : State} (h : Keeps o s) : Keeps o (settleQueues s) :=
  keeps_foldl h (fun _ _ k => keeps_settleQueue k)

/-! ### Sessions -/

theorem keeps_answer {o s : State} {f status} (h : Keeps o s) : Keeps o (answer f status s) :=
  keeps_complete h

theorem keeps_answerOk {o s : State} {f} (h : Keeps o s) : Keeps o (answerOk f s) :=
  keeps_answer h

theorem keeps_answerData {o s : State} {f payload} (h : Keeps o s) : Keeps o (answerData f payload s) :=
  keeps_complete h

theorem keeps_answerResult {o s : State} {f result} (h : Keeps o s) : Keeps o (answerResult f result s) :=
  keeps_complete h

theorem keeps_reportStep {o s : State} {opcode n} (h : Keeps o s) : Keeps o (reportStep opcode n s) := by
  unfold reportStep
  split
  · exact h
  · rename_i g _
    refine keeps_ite h (keeps_updSession h (fun e => Nat.le_trans (Nat.le_of_eq ?_) e))
    have d := congrArg (List.filter OutItem.isEvent) (List.takeWhile_append_dropWhile (p := fun x => x != OutItem.terminal g.id)
      (l := (getSession s g.sess).outbox))
    rw [List.filter_append] at d
    unfold nev
    rw [← d]
    simp [OutItem.isEvent]

theorem keeps_sendMore {o s : State} {f opcode r} (h : Keeps o s) : Keeps o (sendMore f opcode r s) := by
  unfold sendMore
  repeat' first | with_reducible assumption | (simpa [nev, OutItem.isEvent] using ‹nev _ ≤ 256›) | with_reducible apply keeps_updSession

/-! ### The Arbor -/

theorem keeps_updEns {o s : State} {e0 f} (h : Keeps o s) : Keeps o (updEns e0 f s) := by
  unfold updEns
  dsimp only
  repeat' first | with_reducible assumption | with_reducible exact id | with_reducible apply keeps_mk

theorem keeps_arbResult {o s : State} {first} (h : Keeps o s) : Keeps o (arbResult first s) := by
  unfold arbResult
  dsimp only
  repeat' first
    | with_reducible assumption
    | with_reducible exact id
    | intro _
    | with_reducible apply keeps_updEns
    | refine keeps_edgeDeliver ?_ (by assumption)
    | with_reducible apply keeps_complete
    | with_reducible apply keeps_ite_same
    | split
    | with_reducible apply keeps_mk

theorem keeps_loseSample {o s : State} {m} (h : Keeps o s) : Keeps o (loseSample s m) := by
  unfold loseSample
  dsimp only
  repeat' first
    | with_reducible assumption
    | with_reducible exact id
    | with_reducible apply keeps_takeFree
    | split
    | with_reducible apply keeps_mk

theorem keeps_loseSamples {o s : State} {first} (h : Keeps o s) : Keeps o (loseSamples first s) := by
  unfold loseSamples
  repeat' first | with_reducible assumption | intro _ | with_reducible apply keeps_loseSample | with_reducible apply keeps_foldl

theorem keeps_updEngine {o s : State} {e f} (h : Keeps o s) : Keeps o (updEngine e f s) :=
  keeps_mk h id id (table_wf_upd _ _ _ _) id id id id id id

theorem keeps_serveArbLoad {o s : State} {f} (h : Keeps o s) : Keeps o (serveArbLoad f s) := by
  unfold serveArbLoad
  dsimp only
  repeat' first
    | with_reducible assumption
    | with_reducible rfl
    | intro _
    | with_reducible apply keeps_answer
    | with_reducible apply keeps_updFlight
    | with_reducible apply keeps_updEngine
    | with_reducible apply keeps_ite_same

theorem keeps_serveArbRead {o s : State} {f} (h : Keeps o s) : Keeps o (serveArbRead f s) := by
  unfold serveArbRead
  dsimp only
  repeat' first
    | with_reducible assumption
    | intro _
    | with_reducible apply keeps_answer
    | with_reducible apply keeps_answerData
    | with_reducible apply keeps_ite_same

theorem keeps_serveArbVerify {o s : State} {f} (h : Keeps o s) : Keeps o (serveArbVerify f s) := by
  unfold serveArbVerify
  dsimp only
  repeat' first
    | with_reducible assumption
    | with_reducible rfl
    | intro _
    | with_reducible apply keeps_answer
    | with_reducible apply keeps_updFlight
    | with_reducible apply keeps_updEngine
    | with_reducible apply keeps_ite_same
    | split

theorem keeps_serveArbTcamLoad {o s : State} {f} (h : Keeps o s) : Keeps o (serveArbTcamLoad f s) := by
  unfold serveArbTcamLoad
  dsimp only
  repeat' first
    | with_reducible assumption
    | intro _
    | with_reducible apply keeps_answer
    | with_reducible apply keeps_answerOk
    | with_reducible apply keeps_updEngine
    | with_reducible apply keeps_ite_same

theorem keeps_serveArbEnsemble {o s : State} {f} (h : Keeps o s) : Keeps o (serveArbEnsemble f s) := by
  unfold serveArbEnsemble
  dsimp only
  repeat' first
    | with_reducible assumption
    | intro _
    | with_reducible apply keeps_answer
    | with_reducible apply keeps_loseSamples
    | with_reducible apply keeps_updEngine
    | with_reducible apply keeps_answerOk
    | with_reducible apply keeps_updEns
    | with_reducible apply keeps_ite_same
    | with_reducible apply keeps_foldl

theorem keeps_serveArbMode {o s : State} {f} (h : Keeps o s) : Keeps o (serveArbMode f s) := by
  unfold serveArbMode
  dsimp only
  repeat' first
    | with_reducible assumption
    | intro _
    | with_reducible apply keeps_answer
    | with_reducible apply keeps_answerOk
    | with_reducible apply keeps_updEngine
    | with_reducible apply keeps_ite_same

theorem keeps_enterEval {o s : State} {f} (h : Keeps o s) : Keeps o (enterEval f s) :=
  keeps_updEns h

theorem keeps_serveArbEval {o s : State} {f} (h : Keeps o s) : Keeps o (serveArbEval f s) := by
  unfold serveArbEval
  dsimp only
  repeat' first
    | with_reducible assumption
    | with_reducible rfl
    | intro _
    | with_reducible apply keeps_answer
    | with_reducible apply keeps_answerOk
    | with_reducible apply keeps_updEns
    | with_reducible apply keeps_updFlight
    | with_reducible apply keeps_enterEval
    | with_reducible apply keeps_ite_same

theorem keeps_resumeEvals {o s : State} (h : Keeps o s) : Keeps o (resumeEvals s) := by
  unfold resumeEvals
  repeat' first
    | with_reducible assumption
    | with_reducible rfl
    | intro _
    | with_reducible apply keeps_answer
    | with_reducible apply keeps_enterEval
    | with_reducible apply keeps_updFlight
    | with_reducible apply keeps_ite_same
    | with_reducible apply keeps_foldl

theorem keeps_writeSample {o s t : State} {first m} (h : Keeps o s) (e : writeSample first m s = some t) : Keeps o t := by
  unfold writeSample at e
  dsimp only at e
  split at e
  · cases e
  · cases e
    exact keeps_updEns h

theorem keeps_takeSlot {o s : State} {first m} {t} (h : Keeps o s) (e : takeSlot first m s = some t) : Keeps o t.2 := by
  unfold takeSlot at e
  dsimp only at e
  split at e
  · cases e
  · obtain ⟨y, -, k⟩ := Option.bind_eq_some_iff.mp e
    split at k
    · split at k
      · cases k
        exact keeps_updEns h
      · cases k
    · cases k

theorem keeps_evalEngine {o s : State} {e0 features} (h : Keeps o s) : Keeps o (evalEngine e0 features s).2 := by
  unfold evalEngine
  dsimp only
  repeat' first
    | with_reducible assumption
    | with_reducible exact id
    | with_reducible apply keeps_updEngine
    | split
    | with_reducible apply keeps_mk

theorem keeps_evalEngines {o s : State} {features es} (h : Keeps o s) : Keeps o (evalEngines features es s).2 := by
  induction es generalizing s with
  | nil => exact h
  | cons e es ih => exact ih (keeps_evalEngine h)

theorem keeps_evalSample {o s : State} {first m} (h : Keeps o s) : Keeps o (evalSample first m s).2 := by
  unfold evalSample
  dsimp only
  repeat' first
    | with_reducible assumption
    | with_reducible exact id
    | with_reducible apply keeps_evalEngines
    | split
    | with_reducible apply keeps_mk

theorem keeps_stepArbLoad {o s : State} {n f} (h : Keeps o s) : Keeps o (stepArbLoad n f s) := by
  unfold stepArbLoad
  dsimp only
  repeat' first
    | with_reducible assumption
    | with_reducible rfl
    | intro _
    | with_reducible apply keeps_updEngine
    | with_reducible apply keeps_updFlight

theorem keeps_finishArbVerify {o s : State} {f} (h : Keeps o s) : Keeps o (finishArbVerify f s) := by
  unfold finishArbVerify
  dsimp only
  repeat' first
    | with_reducible assumption
    | with_reducible exact id
    | intro _
    | with_reducible apply keeps_answer
    | with_reducible apply keeps_complete
    | with_reducible apply keeps_updEngine
    | with_reducible apply keeps_ite_same
    | split
    | with_reducible apply keeps_mk

theorem keeps_sampleToken {o s : State} {first} (h : Keeps o s) : Keeps o (sampleToken first s) := by
  unfold sampleToken
  dsimp only
  repeat' first
    | with_reducible assumption
    | intro _
    | refine keeps_edgeTake ?_ (by assumption)
    | with_reducible apply keeps_updEns
    | with_reducible apply keeps_ite_same
    | split

theorem keeps_sampleStart {o s : State} {first} (h : Keeps o s) : Keeps o (sampleStart first s) := by
  unfold sampleStart
  dsimp only
  repeat' first
    | with_reducible assumption
    | intro _
    | with_reducible apply keeps_evalSample
    | with_reducible apply keeps_updEns
    | with_reducible apply keeps_ite_same
    | split

end Sys2Proof.Laws
end

