-- ==== Sys2Proof/Laws/KeepsFabric.lean ====
section
/-! SUPPORT. What the operations of optical ports, the fabric, block reduction, the Canopy and the timebase keep. -/

namespace Sys2Proof.Laws

set_option Elab.async false

open Sys2Proof Sys2Proof.Machine Sys2Proof.Safety

/-! ### Lanes and ports -/

theorem keeps_updPort {o s : State} {p f} (h : Keeps o s) : Keeps o (updPort p f s) := by
  unfold updPort
  dsimp only
  repeat' first | with_reducible assumption | with_reducible exact id | with_reducible apply keeps_mk

theorem keeps_settlePort {o s : State} {p} (h : Keeps o s) : Keeps o (settlePort p s) := by
  unfold settlePort
  dsimp only
  repeat' first
    | with_reducible assumption
    | intro _
    | with_reducible apply keeps_updPort
    | with_reducible apply keeps_postOwner
    | with_reducible apply keeps_answerOk
    | with_reducible apply keeps_ite_same
    | with_reducible apply keeps_foldl

theorem keeps_wakePort {o s : State} {p} (h : Keeps o s) : Keeps o (wakePort p s) :=
  keeps_settlePort (keeps_updPort h)

theorem keeps_activityWake {o s : State} {p} (h : Keeps o s) : Keeps o (activityWake p s) := by
  unfold activityWake
  repeat' first | with_reducible assumption | intro _ | with_reducible apply keeps_wakePort | with_reducible apply keeps_ite_same

theorem keeps_alignReceive {o s : State} {p l g clean} (h : Keeps o s) : Keeps o (alignReceive p l g clean s) := by
  unfold alignReceive
  dsimp only
  repeat' first
    | with_reducible assumption
    | intro _
    | with_reducible apply keeps_settlePort
    | with_reducible apply keeps_updPort
    | with_reducible apply keeps_ite_same

theorem keeps_flushPort {o s : State} {p} (h : Keeps o s) : Keeps o (flushPort p s) :=
  keeps_updPort h

theorem keeps_countdownEnd {o s : State} {p l} (h : Keeps o s) : Keeps o (countdownEnd p l s) := by
  unfold countdownEnd
  dsimp only
  repeat' first
    | with_reducible assumption
    | intro _
    | with_reducible apply keeps_settlePort
    | with_reducible apply keeps_updPort
    | with_reducible apply keeps_ite_same

theorem keeps_deafTimeout {o s : State} {p} (h : Keeps o s) : Keeps o (deafTimeout p s) := by
  unfold deafTimeout
  repeat' first
    | with_reducible assumption
    | intro _
    | with_reducible apply keeps_settlePort
    | with_reducible apply keeps_updPort
    | with_reducible apply keeps_ite_same

theorem keeps_downFlush {o s : State} {p} (h : Keeps o s) : Keeps o (downFlush p s) := by
  unfold downFlush
  dsimp only
  repeat' first
    | with_reducible assumption
    | intro _
    | with_reducible apply keeps_updPort
    | with_reducible apply keeps_flushPort
    | with_reducible apply keeps_ite_same

theorem keeps_restPort {o s : State} {p} (h : Keeps o s) : Keeps o (restPort p s) := by
  unfold restPort
  dsimp only
  repeat' first
    | with_reducible assumption
    | intro _
    | with_reducible apply keeps_settlePort
    | with_reducible apply keeps_updPort
    | with_reducible apply keeps_complete
    | with_reducible apply keeps_ite_same
    | with_reducible apply keeps_foldl

theorem keeps_drainDone {o s : State} {p} (h : Keeps o s) : Keeps o (drainDone p s) := by
  unfold drainDone
  dsimp only
  repeat' first
    | with_reducible assumption
    | intro _
    | with_reducible apply keeps_restPort
    | with_reducible apply keeps_updPort
    | with_reducible apply keeps_ite_same

theorem keeps_drainTimeout {o s : State} {p} (h : Keeps o s) : Keeps o (drainTimeout p s) := by
  unfold drainTimeout
  dsimp only
  repeat' first | with_reducible assumption | intro _ | with_reducible apply keeps_flushPort | with_reducible apply keeps_ite_same

theorem keeps_slipGo {o s : State} {p l offset} (h : Keeps o s) : Keeps o (slipGo p l offset s) := by
  unfold slipGo
  dsimp only
  repeat' first | with_reducible assumption | intro _ | with_reducible apply keeps_updPort | with_reducible apply keeps_ite_same

theorem keeps_slipDone {o s : State} {p l bits} (h : Keeps o s) : Keeps o (slipDone p l bits s) := by
  unfold slipDone
  dsimp only
  repeat' first
    | with_reducible assumption
    | intro _
    | with_reducible apply keeps_settlePort
    | with_reducible apply keeps_updPort
    | with_reducible apply keeps_ite_same

theorem keeps_missFrame {o s : State} {p l} (h : Keeps o s) : Keeps o (missFrame p l s) := by
  unfold missFrame
  repeat' first | with_reducible assumption | intro _ | with_reducible apply keeps_updPort | with_reducible apply keeps_ite_same

theorem keeps_fomWindow {o s : State} {p l fom} (h : Keeps o s) : Keeps o (fomWindow p l fom s) := by
  unfold fomWindow
  dsimp only
  repeat' first | with_reducible assumption | intro _ | with_reducible apply keeps_updPort | with_reducible apply keeps_ite_same

theorem keeps_laneLost {o s : State} {p l cause} (h : Keeps o s) : Keeps o (laneLost p l cause s) := by
  unfold laneLost
  dsimp only
  repeat' first
    | with_reducible assumption
    | intro _
    | with_reducible apply keeps_settlePort
    | with_reducible apply keeps_updPort
    | with_reducible apply keeps_ite_same

/-! ### Cells of the fabric -/

theorem keeps_countUnroutable {o s : State} (h : Keeps o s) : Keeps o (countUnroutable s) := by
  unfold countUnroutable
  dsimp only
  repeat' first | with_reducible assumption | with_reducible exact id | with_reducible apply keeps_mk

theorem keeps_queuePacket {o s : State} {p vc bs} (h : Keeps o s) : Keeps o (queuePacket p vc bs s) :=
  keeps_updPort h

theorem keeps_sendExit {o s : State} {e0} (h : Keeps o s) : Keeps o (sendExit e0 s) := by
  unfold sendExit
  repeat' first
    | with_reducible assumption
    | with_reducible apply keeps_queuePacket
    | with_reducible apply keeps_wakePort
    | with_reducible apply keeps_countUnroutable
    | split

theorem keeps_sendReply {o s : State} {r body} (h : Keeps o s) : Keeps o (sendReply r body s) := by
  unfold sendReply
  dsimp only
  repeat' first
    | with_reducible assumption
    | with_reducible exact id
    | intro _
    | with_reducible apply keeps_sendExit
    | with_reducible apply keeps_ite_same
    | with_reducible apply keeps_mk

theorem keeps_flitReceive {o s : State} {p l slot words} (h : Keeps o s) : Keeps o (flitReceive p l slot words s) := by
  unfold flitReceive
  dsimp only
  repeat' first | with_reducible assumption | intro _ | with_reducible apply keeps_updPort | with_reducible apply keeps_ite_same

theorem keeps_nakRepeat {o s : State} {p} (h : Keeps o s) : Keeps o (nakRepeat p s) := by
  unfold nakRepeat
  repeat' first | with_reducible assumption | intro _ | with_reducible apply keeps_updPort | with_reducible apply keeps_ite_same | split

theorem keeps_retryTimeout {o s : State} {p} (h : Keeps o s) : Keeps o (retryTimeout p s) := by
  unfold retryTimeout
  dsimp only
  repeat' first | with_reducible assumption | intro _ | with_reducible apply keeps_updPort | with_reducible apply keeps_ite_same

theorem keeps_laneSlot {o s : State} {p l} (h : Keeps o s) : Keeps o (laneSlot p l s) := by
  unfold laneSlot
  dsimp only
  repeat' first | with_reducible assumption | intro _ | with_reducible apply keeps_updPort | with_reducible apply keeps_ite_same | split

theorem keeps_laneSlots {o s : State} {p l n} (h : Keeps o s) : Keeps o (laneSlots p l n s) := by
  induction n generalizing s with
  | zero => exact h
  | succ n ih => exact ih (keeps_laneSlot h)

theorem keeps_pumpPort {o s : State} {p} (h : Keeps o s) : Keeps o (pumpPort p s) :=
  keeps_restPort (keeps_foldl h (fun _ _ k => keeps_ite (keeps_laneSlots k) k))

/-! ### Block reduction -/

theorem keeps_updChan {o s : State} {k f} (h : Keeps o s) : Keeps o (updChan k f s) :=
  keeps_mk h id id id (table_wf_upd _ _ _ _) id id id id id

theorem keeps_discardBlocks {o s : State} {k} (h : Keeps o s) : Keeps o (discardBlocks k s) :=
  keeps_updChan h

theorem keeps_updBlock {o s : State} {k sel f} (h : Keeps o s) : Keeps o (updBlock k sel f s) :=
  keeps_updChan h

theorem keeps_sendRed {o s : State} {k d r} (h : Keeps o s) : Keeps o (sendRed k d r s) := by
  unfold sendRed
  dsimp only
  repeat' first | with_reducible assumption | with_reducible apply keeps_updChan | split

theorem keeps_deliverBlock {o s : State} {k b code sums} (h : Keeps o s) : Keeps o (deliverBlock k b code sums s) := by
  unfold deliverBlock
  dsimp only
  repeat' first
    | with_reducible assumption
    | with_reducible exact id
    | with_reducible apply keeps_updChan
    | with_reducible apply keeps_updBlock
    | split
    | with_reducible apply keeps_mk

theorem keeps_settleCode {o s : State} {k b code} (h : Keeps o s) : Keeps o (settleCode k b code s) := by
  unfold settleCode
  dsimp only
  repeat' first
    | with_reducible assumption
    | intro _
    | with_reducible apply keeps_sendRed
    | with_reducible apply keeps_updBlock
    | with_reducible apply keeps_deliverBlock
    | with_reducible apply keeps_ite_same
    | with_reducible apply keeps_foldl
    | split

theorem keeps_advancePass1 {o s : State} {k no} (h : Keeps o s) : Keeps o (advancePass1 k no s) := by
  unfold advancePass1
  dsimp only
  repeat' first
    | with_reducible assumption
    | intro _
    | with_reducible apply keeps_updBlock
    | with_reducible apply keeps_sendRed
    | with_reducible apply keeps_settleCode
    | with_reducible apply keeps_ite_same
    | split

theorem keeps_settleSums {o s : State} {k b code sums} (h : Keeps o s) : Keeps o (settleSums k b code sums s) := by
  unfold settleSums
  dsimp only
  repeat' first
    | with_reducible assumption
    | intro _
    | with_reducible apply keeps_sendRed
    | with_reducible apply keeps_deliverBlock
    | with_reducible apply keeps_foldl
    | split

theorem keeps_advancePass2 {o s : State} {k no} (h : Keeps o s) : Keeps o (advancePass2 k no s) := by
  unfold advancePass2
  dsimp only
  repeat' first
    | with_reducible assumption
    | intro _
    | with_reducible apply keeps_updBlock
    | with_reducible apply keeps_sendRed
    | with_reducible apply keeps_settleSums
    | with_reducible apply keeps_ite_same
    | split

theorem keeps_reduceIntake {o s : State} {k n} (h : Keeps o s) : Keeps o (reduceIntake k n s) := by
  induction n generalizing s with
  | zero => exact h
  | succ n ih =>
    unfold reduceIntake
    dsimp only
    refine keeps_ite h ?_
    split
    · exact h
    · exact ih (keeps_updChan (keeps_edgeTake h ‹_›))

theorem keeps_blockEntry {o s : State} {k} (h : Keeps o s) : Keeps o (blockEntry k s) := by
  unfold blockEntry
  dsimp only
  repeat' first
    | with_reducible assumption
    | intro _
    | with_reducible apply keeps_reduceIntake
    | with_reducible apply keeps_updChan
    | with_reducible apply keeps_advancePass2
    | with_reducible apply keeps_advancePass1
    | with_reducible apply keeps_ite_same
    | split

theorem keeps_takeInbox {o s t : State} {k sel r} (h : Keeps o s) (e : takeInbox k sel s = some (r, t)) : Keeps o t := by
  unfold takeInbox at e
  split at e
  · cases e
  · cases e
    exact keeps_updChan h

theorem keeps_pass1Up {o s : State} {k} (h : Keeps o s) : Keeps o (pass1Up k s) := by
  unfold pass1Up
  dsimp only
  repeat' first
    | with_reducible assumption
    | refine keeps_takeInbox ?_ (by assumption)
    | with_reducible apply keeps_updBlock
    | with_reducible apply keeps_advancePass2
    | with_reducible apply keeps_advancePass1
    | split

theorem keeps_pass2Up {o s : State} {k} (h : Keeps o s) : Keeps o (pass2Up k s) := by
  unfold pass2Up
  dsimp only
  repeat' first
    | with_reducible assumption
    | refine keeps_takeInbox ?_ (by assumption)
    | with_reducible apply keeps_advancePass2
    | with_reducible apply keeps_updBlock
    | split

theorem keeps_pass1Down {o s : State} {k} (h : Keeps o s) : Keeps o (pass1Down k s) := by
  unfold pass1Down
  repeat' first
    | with_reducible assumption
    | refine keeps_takeInbox ?_ (by assumption)
    | with_reducible apply keeps_advancePass2
    | with_reducible apply keeps_settleCode
    | split

theorem keeps_pass2Down {o s : State} {k} (h : Keeps o s) : Keeps o (pass2Down k s) := by
  unfold pass2Down
  repeat' first | with_reducible assumption | refine keeps_takeInbox ?_ (by assumption) | with_reducible apply keeps_settleSums | split

theorem keeps_reduceArrive {o s : State} {src body} (h : Keeps o s) : Keeps o (reduceArrive src body s) := by
  unfold reduceArrive
  dsimp only
  repeat' first
    | with_reducible assumption
    | with_reducible exact id
    | intro _
    | with_reducible apply keeps_updChan
    | with_reducible apply keeps_ite_same
    | with_reducible apply keeps_mk

theorem keeps_reduceOutput {o s : State} {k} (h : Keeps o s) : Keeps o (reduceOutput k s) := by
  unfold reduceOutput
  repeat' first | with_reducible assumption | refine keeps_edgeDeliver ?_ (by assumption) | with_reducible apply keeps_updChan | split

theorem keeps_wakeTrunk {o s : State} {d} (h : Keeps o s) : Keeps o (wakeTrunk d s) := by
  unfold wakeTrunk
  repeat' first | with_reducible assumption | with_reducible apply keeps_wakePort | split

theorem keeps_pumpChan {o s : State} {k n} (h : Keeps o s) : Keeps o (pumpChan k n s) := by
  induction n generalizing s with
  | zero => exact h
  | succ n ih =>
    unfold pumpChan
    dsimp only
    split
    · exact h
    · exact keeps_ite (keeps_wakeTrunk h) (keeps_ite h (ih (keeps_updPort (keeps_updChan h))))

/-! ### Partitions and contexts -/

theorem keeps_abortDrain {o s : State} {f} (h : Keeps o s) : Keeps o (abortDrain f s) :=
  keeps_complete (keeps_updPart h)

theorem keeps_endAborted {o s : State} {f progress isPartial} (h : Keeps o s) : Keeps o (endAborted f progress isPartial s) :=
  keeps_complete h

theorem keeps_emptyContext {o s : State} {p c} (h : Keeps o s) : Keeps o (emptyContext p c s) :=
  keeps_updPart h

theorem keeps_abortLoad {o s : State} {f} (h : Keeps o s) : Keeps o (abortLoad f s) := by
  unfold abortLoad
  dsimp only
  repeat' first
    | with_reducible assumption
    | intro _
    | with_reducible apply keeps_emptyContext
    | with_reducible apply keeps_endAborted
    | with_reducible apply keeps_ite_same
    | split

theorem keeps_fillStop {o s : State} {p} (h : Keeps o s) : Keeps o (fillStop p s) := by
  unfold fillStop
  dsimp only
  repeat' first | with_reducible assumption | with_reducible exact id | with_reducible apply keeps_mk

theorem keeps_endNow {o s : State} {f} (h : Keeps o s) : Keeps o (endNow f s) := by
  unfold endNow
  dsimp only
  repeat' first
    | with_reducible assumption
    | with_reducible exact id
    | intro _
    | with_reducible apply keeps_endAborted
    | with_reducible apply keeps_abortLoad
    | with_reducible apply keeps_abortDrain
    | with_reducible apply keeps_fillStop
    | with_reducible apply keeps_testOver
    | with_reducible apply keeps_ite_same
    | split
    | with_reducible apply keeps_mk

theorem keeps_abortFlight {o s : State} {between at_ g} (h : Keeps o s) : Keeps o (abortFlight between at_ g s) := by
  unfold abortFlight
  repeat' first
    | with_reducible assumption
    | with_reducible rfl
    | intro _
    | with_reducible apply keeps_endNow
    | with_reducible apply keeps_updFlight
    | with_reducible apply keeps_ite_same
    | split

theorem keeps_stopAsCommand {o s : State} {p} (h : Keeps o s) : Keeps o (stopAsCommand p s) :=
  keeps_endDrains (keeps_stopPartition h)

theorem keeps_markSteps {o s : State} {p} (h : Keeps o s) : Keeps o (markSteps p s) := by
  unfold markSteps
  repeat' first
    | with_reducible assumption
    | with_reducible rfl
    | intro _
    | with_reducible apply keeps_updFlight
    | with_reducible apply keeps_complete
    | with_reducible apply keeps_ite_same
    | with_reducible apply keeps_foldl

theorem keeps_abortPartition {o s : State} {p named} (h : Keeps o s) : Keeps o (abortPartition p named s) := by
  unfold abortPartition
  dsimp only
  repeat' first
    | with_reducible assumption
    | intro _
    | with_reducible apply keeps_stopAsCommand
    | with_reducible apply keeps_markSteps
    | with_reducible apply keeps_discardTokens
    | with_reducible apply keeps_abortFlight
    | with_reducible apply keeps_discardBlocks
    | with_reducible apply keeps_ite_same
    | with_reducible apply keeps_foldl

theorem keeps_applyDrain {o s : State} {f} (h : Keeps o s) : Keeps o (applyDrain f s) := by
  unfold applyDrain
  dsimp only
  repeat' first
    | with_reducible assumption
    | with_reducible rfl
    | intro _
    | with_reducible apply keeps_updFlight
    | with_reducible apply keeps_updPart

theorem keeps_markLate {o s : State} {g} (h : Keeps o s) : Keeps o (markLate g s) := by
  unfold markLate
  repeat' first | with_reducible assumption | with_reducible rfl | intro _ | with_reducible apply keeps_updFlight

theorem keeps_samplerEnable {o s : State} {p on} (h : Keeps o s) : Keeps o (samplerEnable p on s) :=
  keeps_updPart h

theorem keeps_clearFaultLog {o s : State} {p} (h : Keeps o s) : Keeps o (clearFaultLog p s) :=
  keeps_updPart h

theorem keeps_serveUnloadContext {o s : State} {f} (h : Keeps o s) : Keeps o (serveUnloadContext f s) := by
  unfold serveUnloadContext
  dsimp only
  repeat' first
    | with_reducible assumption
    | intro _
    | with_reducible apply keeps_answer
    | with_reducible apply keeps_answerOk
    | with_reducible apply keeps_emptyContext
    | with_reducible apply keeps_discardTokens
    | with_reducible apply keeps_ite_same

theorem keeps_fillStart {o s : State} {p} (h : Keeps o s) : Keeps o (fillStart p s) := by
  unfold fillStart
  dsimp only
  repeat' first | with_reducible assumption | with_reducible exact id | with_reducible apply keeps_mk

theorem keeps_serveStart {o s : State} {f} (h : Keeps o s) : Keeps o (serveStart f s) := by
  unfold serveStart
  repeat' first
    | with_reducible assumption
    | with_reducible rfl
    | intro _
    | with_reducible apply keeps_answer
    | with_reducible apply keeps_fillStart
    | with_reducible apply keeps_updFlight
    | split

theorem keeps_serveStop {o s : State} {f} (h : Keeps o s) : Keeps o (serveStop f s) := by
  unfold serveStop
  dsimp only
  repeat' first
    | with_reducible assumption
    | with_reducible rfl
    | intro _
    | with_reducible apply keeps_answer
    | with_reducible apply keeps_answerOk
    | with_reducible apply keeps_updFlight
    | with_reducible apply keeps_ite_same

theorem keeps_serveStep {o s : State} {f} (h : Keeps o s) : Keeps o (serveStep f s) := by
  unfold serveStep
  repeat' first
    | with_reducible assumption
    | with_reducible rfl
    | intro _
    | with_reducible apply keeps_answer
    | with_reducible apply keeps_fillStart
    | with_reducible apply keeps_updFlight
    | with_reducible apply keeps_ite_same
    | split

theorem keeps_serveDrain {o s : State} {f} (h : Keeps o s) : Keeps o (serveDrain f s) := by
  unfold serveDrain
  dsimp only
  repeat' first
    | with_reducible assumption
    | with_reducible rfl
    | intro _
    | with_reducible apply keeps_answer
    | with_reducible apply keeps_answerOk
    | with_reducible apply keeps_updPart
    | with_reducible apply keeps_updFlight
    | with_reducible apply keeps_ite_same

theorem keeps_mapTiles {o s : State} {p f} (h : Keeps o s) : Keeps o (mapTiles p f s) := by
  unfold mapTiles
  dsimp only
  repeat' first | with_reducible assumption | with_reducible exact id | with_reducible apply keeps_mk

theorem keeps_zeroPcs {o s : State} {p cs} (h : Keeps o s) : Keeps o (zeroPcs p cs s) :=
  keeps_mapTiles h

theorem keeps_setActive {o s : State} {p c} (h : Keeps o s) : Keeps o (setActive p c s) := by
  unfold setActive
  dsimp only
  repeat' first
    | with_reducible assumption
    | intro _
    | with_reducible apply keeps_mapTiles
    | with_reducible apply keeps_updTile
    | with_reducible apply keeps_ite_same
    | with_reducible apply keeps_foldl

theorem keeps_startContexts {o s : State} {f last} (h : Keeps o s) : Keeps o (startContexts f last s) := by
  unfold startContexts
  dsimp only
  repeat' first
    | with_reducible assumption
    | intro _
    | with_reducible apply keeps_zeroPcs
    | with_reducible apply keeps_updPart
    | with_reducible apply keeps_setActive
    | with_reducible apply keeps_mapTiles
    | with_reducible apply keeps_ite_same

theorem keeps_canopyApply {o s : State} {id0 named} (h : Keeps o s) : Keeps o (canopyApply id0 named s) := by
  unfold canopyApply
  dsimp only
  repeat' first
    | with_reducible assumption
    | with_reducible rfl
    | intro _
    | with_reducible apply keeps_answerOk
    | with_reducible apply keeps_startContexts
    | with_reducible apply keeps_updFlight
    | with_reducible apply keeps_stopAsCommand
    | with_reducible apply keeps_markSteps
    | with_reducible apply keeps_applyDrain
    | with_reducible apply keeps_abortPartition
    | with_reducible apply keeps_ite_same
    | split

theorem keeps_spillQueue {o s : State} {col row d} (h : Keeps o s) : Keeps o (spillQueue col row d s) := by
  unfold spillQueue
  dsimp only
  repeat' first
    | with_reducible assumption
    | intro _
    | with_reducible apply keeps_updTile
    | with_reducible apply keeps_freeCredit
    | with_reducible apply keeps_foldl

theorem keeps_deadlockDetect {o s : State} {p} (h : Keeps o s) : Keeps o (deadlockDetect p s) := by
  unfold deadlockDetect
  dsimp only
  repeat' first
    | with_reducible assumption
    | intro _
    | with_reducible apply keeps_raiseFault
    | with_reducible apply keeps_spillQueue
    | with_reducible apply keeps_updPart
    | with_reducible apply keeps_postOwner
    | with_reducible apply keeps_ite_same
    | with_reducible apply keeps_foldl
    | split

theorem keeps_deadlockReinject {o s : State} {col row d} (h : Keeps o s) : Keeps o (deadlockReinject col row d s) := by
  unfold deadlockReinject
  dsimp only
  repeat' first
    | with_reducible assumption
    | intro _
    | with_reducible apply keeps_updSender
    | with_reducible apply keeps_updPart
    | with_reducible apply keeps_updTile
    | with_reducible apply keeps_ite_same
    | split

theorem keeps_haltDrain {o s : State} {p c st} (h : Keeps o s) : Keeps o (haltDrain p c st s) :=
  keeps_updPart h

theorem keeps_drainEnds {o s : State} {f r} (h : Keeps o s) : Keeps o (drainEnds f r s) :=
  keeps_reportStep (keeps_complete h)

theorem keeps_drainEmpty {o s : State} {p c} (h : Keeps o s) : Keeps o (drainEmpty p c s) := by
  unfold drainEmpty
  dsimp only
  repeat' first
    | with_reducible assumption
    | intro _
    | with_reducible apply keeps_haltDrain
    | with_reducible apply keeps_drainEnds
    | with_reducible apply keeps_ite_same
    | split

theorem keeps_drainLimit {o s : State} {p c} (h : Keeps o s) : Keeps o (drainLimit p c s) := by
  unfold drainLimit
  dsimp only
  repeat' first
    | with_reducible assumption
    | intro _
    | with_reducible apply keeps_haltDrain
    | with_reducible apply keeps_discardTokens
    | with_reducible apply keeps_drainEnds
    | with_reducible apply keeps_ite_same
    | split

theorem keeps_samplerSnapshot {o s : State} {p} (h : Keeps o s) : Keeps o (samplerSnapshot p s) := by
  unfold samplerSnapshot
  dsimp only
  repeat' first | with_reducible assumption | intro _ | with_reducible apply keeps_updPart | with_reducible apply keeps_ite_same

theorem keeps_stepEnd {o s : State} {p} (h : Keeps o s) : Keeps o (stepEnd p s) := by
  unfold stepEnd
  dsimp only
  repeat' first
    | with_reducible assumption
    | intro _
    | with_reducible apply keeps_updPart
    | with_reducible apply keeps_stopPartition
    | with_reducible apply keeps_ite_same
    | split

theorem keeps_partitionQuiescent {o s : State} {p} (h : Keeps o s) : Keeps o (partitionQuiescent p s) := by
  unfold partitionQuiescent
  dsimp only
  repeat' first
    | with_reducible assumption
    | intro _
    | with_reducible apply keeps_postOwner
    | with_reducible apply keeps_fillStop
    | with_reducible apply keeps_updPart
    | with_reducible apply keeps_complete
    | with_reducible apply keeps_answerOk
    | with_reducible apply keeps_answerResult
    | with_reducible apply keeps_ite_same
    | with_reducible apply keeps_foldl
    | split

theorem keeps_snapshotDrain {o s : State} {p} (h : Keeps o s) : Keeps o (snapshotDrain p s) := by
  unfold snapshotDrain
  dsimp only
  repeat' first
    | with_reducible assumption
    | intro _
    | with_reducible apply keeps_commitCell
    | with_reducible apply keeps_updPart
    | with_reducible apply keeps_ite_same
    | split

/-! ### The timebase -/

theorem tick_log (t : Timebase) : t.tick.1.log = t.log := by simp [Timebase.tick]

theorem pulse_log (n : Nat) (t : Timebase) : (t.pulse n).log = t.log := by unfold Timebase.pulse; split <;> rfl

theorem keeps_tickTime {o s : State} (h : Keeps o s) : Keeps o (tickTime s) := by
  unfold tickTime
  refine keeps_mk h id id id id id id (fun k => ?_) id id
  split
  · rw [pulse_log, tick_log]; exact k
  · rw [tick_log]; exact k

theorem keeps_applyChange {o s : State} {f} (h : Keeps o s) (hf : ∀ t : Timebase, t.log.length ≤ 8 → (f t).log.length ≤ 8) :
    Keeps o (applyChange f s) := by
  unfold applyChange
  exact keeps_mk h id id id id id id (fun k => hf _ (by rw [tick_log]; exact k)) id id

theorem keeps_applyTick {o s : State} (h : Keeps o s) : Keeps o (applyTick s) := by
  unfold applyTick
  dsimp only
  repeat' first | with_reducible assumption | with_reducible exact id | with_reducible apply keeps_tickTime | with_reducible apply keeps_mk

theorem keeps_applyRate {o s : State} {inc} (h : Keeps o s) : Keeps o (applyRate inc s) := by
  unfold applyRate
  dsimp only
  repeat' first | with_reducible assumption | with_reducible exact id | with_reducible apply keeps_applyTick | with_reducible apply keeps_mk

theorem keeps_setPps {o s : State} {on width} (h : Keeps o s) : Keeps o (setPps on width s) := by
  unfold setPps
  dsimp only
  repeat' first | with_reducible assumption | with_reducible exact id | split | with_reducible apply keeps_mk

theorem keeps_postJump {o s : State} {kind delta} (h : Keeps o s) : Keeps o (postJump kind delta s) :=
  keeps_postAll h

theorem keeps_setTime {o s : State} {mark new delta zeroFrac rxSeq} (hm : ∀ t, (mark t).log = t.log) (h : Keeps o s) :
    Keeps o (setTime mark new delta zeroFrac rxSeq s) :=
  keeps_applyChange h (fun t _ => by rw [hm]; exact List.length_take_le _ _)

theorem keeps_refused {o s : State} {c} (h : Keeps o s) :
    Keeps o { s with time := { s.time with refused := true, refusedNow := true, refusedCount := c } } :=
  keeps_mk h id id id id id id id id id

theorem keeps_refuseJump {o s : State} (h : Keeps o s) : Keeps o (refuseJump s) := by
  have k := @keeps_refused _ _ (satAdd (applyTick s).time.refusedCount 1) (keeps_applyTick h)
  rw [refuseJump]
  exact k

/-- Five outcomes of a time change. -/
theorem keeps_five {α : Type} {o : State} {a b c d e : α × State} {p q r t : Prop} [Decidable p] [Decidable q] [Decidable r] [Decidable t]
    (ha : Keeps o a.2) (hb : Keeps o b.2) (hc : Keeps o c.2) (hd : Keeps o d.2) (he : Keeps o e.2) :
    Keeps o (if p then a else if q then b else if r then c else if t then d else e).2 :=
  keeps_ite_snd ha (keeps_ite_snd hb (keeps_ite_snd hc (keeps_ite_snd hd he)))

theorem keeps_timeChange {o s : State} {target zeroFrac badInput rxSeq} (h : Keeps o s) :
    Keeps o (timeChange target zeroFrac badInput rxSeq s).2 := by
  have k (mark : Timebase → Timebase) (hm : ∀ t, (mark t).log = t.log) (n : Nat) (new delta : Int) :
      Keeps o (postJump n delta (setTime mark new delta zeroFrac rxSeq s)) := keeps_postJump (keeps_setTime hm h)
  have k1 := k firstTime fun _ => rfl
  have k2 := k countJump fun _ => rfl
  have k3 (n : Nat) (delta : Int) : Keeps o (postJump n delta (refuseJump s)) := keeps_postJump (keeps_refuseJump h)
  have k4 := keeps_applyTick h
  unfold timeChange
  dsimp only
  apply keeps_five
  · with_reducible exact k4
  · with_reducible exact k1 _ _ _
  · with_reducible exact k4
  · with_reducible exact k2 _ _ _
  · with_reducible exact k3 _ _

theorem keeps_clearRefused {o s : State} (h : Keeps o s) : Keeps o (clearRefused s) := by
  unfold clearRefused
  dsimp only
  repeat' first | with_reducible assumption | with_reducible exact id | with_reducible apply keeps_mk

theorem keeps_tickTimes {o s : State} {n} (h : Keeps o s) : Keeps o (tickTimes n s) := by
  induction n generalizing s with
  | zero => exact h
  | succ n ih => exact ih (keeps_tickTime h)

end Sys2Proof.Laws
end

