-- ==== Sys2Proof/Laws/KeepsStream.lean ====
section
/-! SUPPORT. What the operations of streams, triggers, images, memory commands, Ethernet and the ring log keep. -/

namespace Sys2Proof.Laws

set_option Elab.async false

open Sys2Proof Sys2Proof.Machine Sys2Proof.Safety

/-! ### Streams, triggers and capture -/

theorem keeps_commitCells {o s : State} {q source cells} (h : Keeps o s) : Keeps o (commitCells q source cells s) := by
  unfold commitCells
  repeat' first | with_reducible assumption | intro _ | with_reducible apply keeps_commitCell | with_reducible apply keeps_foldl

theorem keeps_setLane {o s : State} {l x} (h : Keeps o s) : Keeps o (setLane l x s) := by
  unfold setLane
  dsimp only
  repeat' first | with_reducible assumption | with_reducible exact id | with_reducible apply keeps_mk

theorem keeps_updEPort {o s : State} {p f} (h : Keeps o s) : Keeps o (updEPort p f s) := by
  unfold updEPort
  dsimp only
  repeat' first | with_reducible assumption | with_reducible exact id | with_reducible apply keeps_mk

theorem keeps_updChanT {o s : State} {k f} (h : Keeps o s) : Keeps o (updChanT k f s) := by
  unfold updChanT
  dsimp only
  repeat' first | with_reducible assumption | with_reducible exact id | with_reducible apply keeps_mk

theorem keeps_updOutT {o s : State} {o0 f} (h : Keeps o s) : Keeps o (updOutT o0 f s) := by
  unfold updOutT
  dsimp only
  repeat' first | with_reducible assumption | with_reducible exact id | with_reducible apply keeps_mk

theorem keeps_updCap {o s : State} {o0 f} (h : Keeps o s) : Keeps o (updCap o0 f s) := by
  unfold updCap
  dsimp only
  repeat' first | with_reducible assumption | with_reducible exact id | with_reducible apply keeps_mk

theorem keeps_resetTrigger {o s : State} (h : Keeps o s) : Keeps o (resetTrigger s) := by
  unfold resetTrigger
  dsimp only
  repeat' first
    | with_reducible assumption
    | intro _
    | with_reducible apply keeps_updChanT
    | with_reducible apply keeps_updOutT
    | with_reducible apply keeps_updQueue
    | with_reducible apply keeps_updCap
    | with_reducible apply keeps_ite_same
    | with_reducible apply keeps_foldl

theorem keeps_updStream {o s : State} {i f} (h : Keeps o s) : Keeps o (updStream i f s) := by
  unfold updStream
  dsimp only
  repeat' first | with_reducible assumption | with_reducible exact id | with_reducible apply keeps_mk

theorem keeps_serveStreamConfig {o s : State} {f} (h : Keeps o s) : Keeps o (serveStreamConfig f s) := by
  unfold serveStreamConfig
  dsimp only
  repeat' first
    | with_reducible assumption
    | intro _
    | with_reducible apply keeps_answer
    | with_reducible apply keeps_answerOk
    | with_reducible apply keeps_updStream
    | with_reducible apply keeps_ite_same

theorem keeps_serveTrigArm {o s : State} {f} (h : Keeps o s) : Keeps o (serveTrigArm f s) := by
  unfold serveTrigArm
  dsimp only
  repeat' first
    | with_reducible assumption
    | with_reducible exact id
    | intro _
    | with_reducible apply keeps_answer
    | with_reducible apply keeps_updChanT
    | with_reducible apply keeps_updOutT
    | with_reducible apply keeps_updCap
    | with_reducible apply keeps_answerOk
    | with_reducible apply keeps_ite_same
    | with_reducible apply keeps_foldl
    | with_reducible apply keeps_mk

theorem keeps_serveTrigDisarm {o s : State} {f} (h : Keeps o s) : Keeps o (serveTrigDisarm f s) := by
  unfold serveTrigDisarm
  dsimp only
  repeat' first
    | with_reducible assumption
    | intro _
    | with_reducible apply keeps_answer
    | with_reducible apply keeps_updChanT
    | with_reducible apply keeps_updOutT
    | with_reducible apply keeps_updCap
    | with_reducible apply keeps_answerOk
    | with_reducible apply keeps_ite_same
    | with_reducible apply keeps_foldl

theorem keeps_serveTrigRearm {o s : State} {f} (h : Keeps o s) : Keeps o (serveTrigRearm f s) := by
  unfold serveTrigRearm
  dsimp only
  repeat' first
    | with_reducible assumption
    | intro _
    | with_reducible apply keeps_answer
    | with_reducible apply keeps_answerOk
    | with_reducible apply keeps_updCap
    | with_reducible apply keeps_updQueue
    | with_reducible apply keeps_ite_same
    | with_reducible apply keeps_foldl

theorem keeps_freezeCapture {o s : State} {o0} (h : Keeps o s) : Keeps o (freezeCapture o0 s) := by
  unfold freezeCapture
  dsimp only
  repeat' first
    | with_reducible assumption
    | with_reducible apply keeps_updCap
    | with_reducible apply keeps_updQueue
    | with_reducible apply keeps_settleQueue
    | with_reducible apply keeps_postOwner

theorem keeps_captureFreeze {o s : State} {o0} (h : Keeps o s) : Keeps o (captureFreeze o0 s) := by
  unfold captureFreeze
  dsimp only
  repeat' first | with_reducible assumption | intro _ | with_reducible apply keeps_freezeCapture | with_reducible apply keeps_ite_same

theorem keeps_captureFrame {o s : State} {i o1 cells} (h : Keeps o s) : Keeps o (captureFrame i o1 cells s) := by
  unfold captureFrame
  dsimp only
  repeat' first
    | with_reducible assumption
    | with_reducible exact id
    | intro _
    | with_reducible apply keeps_captureFreeze
    | with_reducible apply keeps_commitCells
    | with_reducible apply keeps_updCap
    | with_reducible apply keeps_ite_same
    | with_reducible apply keeps_mk

theorem keeps_chanValue {o s : State} {k v poison why} (h : Keeps o s) : Keeps o (chanValue k v poison why s) := by
  unfold chanValue
  dsimp only
  repeat' first
    | with_reducible assumption
    | with_reducible exact id
    | intro _
    | with_reducible apply keeps_updChanT
    | with_reducible apply keeps_ite_same
    | with_reducible apply keeps_mk

theorem keeps_decide_ {o s : State} {o0 k why} (h : Keeps o s) : Keeps o (decide_ o0 k why s) := by
  unfold decide_
  dsimp only
  repeat' first
    | with_reducible assumption
    | with_reducible exact id
    | intro _
    | with_reducible apply keeps_updOutT
    | with_reducible apply keeps_updCap
    | with_reducible apply keeps_freezeCapture
    | with_reducible apply keeps_ite_same
    | split
    | with_reducible apply keeps_mk

theorem keeps_placeSample {o s : State} {index v poison} (h : Keeps o s) : Keeps o (placeSample index v poison s) := by
  unfold placeSample
  dsimp only
  repeat' first | with_reducible assumption | with_reducible apply keeps_updPart | with_reducible apply keeps_updTile | split

theorem keeps_rawWord {o s : State} {i f w} (h : Keeps o s) : Keeps o (rawWord i f w s) := by
  unfold rawWord
  dsimp only
  repeat' first
    | with_reducible assumption
    | intro _
    | with_reducible apply keeps_chanValue
    | with_reducible apply keeps_ite_same
    | with_reducible apply keeps_foldl

theorem keeps_passFrame {o s : State} {q f} (h : Keeps o s) : Keeps o (passFrame q f s) :=
  keeps_updQueue h

theorem keeps_deliverWord {o s : State} {i f rest w} (h : Keeps o s) : Keeps o (deliverWord i f rest w s) := by
  unfold deliverWord
  dsimp only
  repeat' first
    | with_reducible assumption
    | intro _
    | with_reducible apply keeps_placeSample
    | with_reducible apply keeps_updStream
    | with_reducible apply keeps_updQueue
    | with_reducible apply keeps_rawWord
    | with_reducible apply keeps_passFrame
    | with_reducible apply keeps_ite_same

theorem keeps_dropLostFrame {o s : State} {i} (h : Keeps o s) : Keeps o (dropLostFrame i s) := by
  unfold dropLostFrame
  dsimp only
  repeat' first
    | with_reducible assumption
    | intro _
    | with_reducible apply keeps_updStream
    | with_reducible apply keeps_passFrame
    | with_reducible apply keeps_ite_same
    | split

theorem keeps_frameEnd {o s : State} {lane f since} (h : Keeps o s) : Keeps o (frameEnd lane f since s) := by
  unfold frameEnd
  dsimp only
  repeat' first
    | with_reducible assumption
    | with_reducible exact id
    | intro _
    | with_reducible apply keeps_updStream
    | with_reducible apply keeps_commitCells
    | with_reducible apply keeps_captureFrame
    | with_reducible apply keeps_ite_same
    | with_reducible apply keeps_foldl
    | split
    | with_reducible apply keeps_mk

theorem keeps_endFrames {o s : State} (h : Keeps o s) : Keeps o (endFrames s) := by
  unfold endFrames
  repeat' first | with_reducible assumption | intro _ | with_reducible apply keeps_frameEnd | with_reducible apply keeps_foldl

theorem keeps_streamDelivery {o s : State} {i} (h : Keeps o s) : Keeps o (streamDelivery i s) := by
  unfold streamDelivery
  dsimp only
  repeat' first
    | with_reducible assumption
    | intro _
    | with_reducible apply keeps_dropLostFrame
    | with_reducible apply keeps_updStream
    | with_reducible apply keeps_placeSample
    | with_reducible apply keeps_updQueue
    | with_reducible apply keeps_deliverWord
    | with_reducible apply keeps_ite_same
    | split

theorem keeps_scoreToken {o s : State} {k} (h : Keeps o s) : Keeps o (scoreToken k s) := by
  unfold scoreToken
  dsimp only
  repeat' first
    | with_reducible assumption
    | intro _
    | refine keeps_edgeTake ?_ (by assumption)
    | with_reducible apply keeps_chanValue
    | with_reducible apply keeps_ite_same
    | split

theorem keeps_pinChange {o s : State} {pin level why} (h : Keeps o s) : Keeps o (pinChange pin level why s) := by
  unfold pinChange
  dsimp only
  repeat' first
    | with_reducible assumption
    | intro _
    | with_reducible apply keeps_updChanT
    | with_reducible apply keeps_ite_same
    | with_reducible apply keeps_foldl

theorem keeps_trigInChange {o s : State} {pin level since} (h : Keeps o s) : Keeps o (trigInChange pin level since s) := by
  unfold trigInChange
  dsimp only
  repeat' first
    | with_reducible assumption
    | with_reducible exact id
    | intro _
    | with_reducible apply keeps_pinChange
    | with_reducible apply keeps_ite_same
    | split
    | with_reducible apply keeps_mk

theorem keeps_outputDecide {o s : State} {o0} (h : Keeps o s) : Keeps o (outputDecide o0 s) := by
  unfold outputDecide
  dsimp only
  repeat' first
    | with_reducible assumption
    | with_reducible exact id
    | intro _
    | with_reducible apply keeps_updOutT
    | with_reducible apply keeps_decide_
    | with_reducible apply keeps_ite_same
    | split
    | with_reducible apply keeps_mk

theorem keeps_pulseEnd {o s : State} {o0} (h : Keeps o s) : Keeps o (pulseEnd o0 s) := by
  unfold pulseEnd
  repeat' first | with_reducible assumption | intro _ | with_reducible apply keeps_updOutT | with_reducible apply keeps_ite_same | split

theorem keeps_releasePins {o s : State} (h : Keeps o s) : Keeps o (releasePins s) := by
  unfold releasePins
  dsimp only
  repeat' first
    | with_reducible assumption
    | with_reducible exact id
    | intro _
    | with_reducible apply keeps_pinChange
    | with_reducible apply keeps_foldl
    | with_reducible apply keeps_mk

theorem keeps_writeRecord {o s : State} {r} (h : Keeps o s) : Keeps o (writeRecord r s) := by
  unfold writeRecord
  dsimp only
  repeat' first
    | with_reducible assumption
    | with_reducible exact id
    | intro _
    | with_reducible apply keeps_sqControlWord
    | with_reducible apply keeps_updOutT
    | with_reducible apply keeps_commitCell
    | with_reducible apply keeps_ite_same
    | with_reducible apply keeps_mk

theorem keeps_writeRecords {o s : State} (h : Keeps o s) : Keeps o (writeRecords s) := by
  unfold writeRecords
  repeat' first | with_reducible assumption | intro _ | with_reducible apply keeps_writeRecord | with_reducible apply keeps_foldl

theorem keeps_settleTrigger {o s : State} (h : Keeps o s) : Keeps o (settleTrigger s) := by
  unfold settleTrigger
  dsimp only
  repeat' first
    | with_reducible assumption
    | with_reducible exact id
    | intro _
    | with_reducible apply keeps_writeRecords
    | with_reducible apply keeps_endFrames
    | with_reducible apply keeps_ite_same
    | with_reducible apply keeps_mk

/-! ### Fabric commands -/

theorem keeps_serveFportPower {o s : State} {f} (h : Keeps o s) : Keeps o (serveFportPower f s) := by
  unfold serveFportPower
  dsimp only
  repeat' first
    | with_reducible assumption
    | intro _
    | with_reducible apply keeps_answer
    | with_reducible apply keeps_updPort
    | with_reducible apply keeps_complete
    | with_reducible apply keeps_wakePort
    | with_reducible apply keeps_answerOk
    | with_reducible apply keeps_ite_same

theorem keeps_serveLaneControl {o s : State} {f} (h : Keeps o s) : Keeps o (serveLaneControl f s) := by
  unfold serveLaneControl
  dsimp only
  repeat' first
    | with_reducible assumption
    | intro _
    | with_reducible apply keeps_answer
    | with_reducible apply keeps_answerOk
    | with_reducible apply keeps_settlePort
    | with_reducible apply keeps_updPort
    | with_reducible apply keeps_ite_same

theorem keeps_serveFabricConfig {o s : State} {f} (h : Keeps o s) : Keeps o (serveFabricConfig f s) := by
  unfold serveFabricConfig
  dsimp only
  repeat' first
    | with_reducible assumption
    | with_reducible exact id
    | intro _
    | with_reducible apply keeps_answer
    | with_reducible apply keeps_answerOk
    | with_reducible apply keeps_ite_same
    | with_reducible apply keeps_mk

theorem keeps_serveReduceGroup {o s : State} {f} (h : Keeps o s) : Keeps o (serveReduceGroup f s) := by
  unfold serveReduceGroup
  dsimp only
  repeat' first
    | with_reducible assumption
    | intro _
    | with_reducible apply keeps_answer
    | with_reducible apply keeps_answerOk
    | with_reducible apply keeps_updChan
    | with_reducible apply keeps_ite_same
    | split

/-! ### Images -/

theorem keeps_applyInit {o s : State} {b x e2} (h : Keeps o s) : Keeps o (applyInit b x e2 s) := by
  unfold applyInit
  dsimp only
  repeat' first | with_reducible assumption | intro _ | with_reducible apply keeps_updTile | with_reducible apply keeps_foldl

theorem keeps_serveLoadImage {o s : State} {f} (h : Keeps o s) : Keeps o (serveLoadImage f s) := by
  unfold serveLoadImage
  repeat' first | with_reducible assumption | with_reducible rfl | intro _ | with_reducible apply keeps_updFlight

theorem keeps_loadCheck {o s : State} {f} (h : Keeps o s) : Keeps o (loadCheck f s) := by
  unfold loadCheck
  dsimp only
  repeat' first
    | with_reducible assumption
    | with_reducible rfl
    | intro _
    | with_reducible apply keeps_complete
    | with_reducible apply keeps_updFlight
    | with_reducible apply keeps_updPart
    | with_reducible apply keeps_ite_same
    | split

theorem keeps_installImage {o s : State} {b p c} (h : Keeps o s) : Keeps o (installImage b p c s) := by
  unfold installImage
  dsimp only
  repeat' first
    | with_reducible assumption
    | intro _
    | with_reducible apply keeps_mapTiles
    | with_reducible apply keeps_applyInit
    | with_reducible apply keeps_updTile
    | with_reducible apply keeps_updPart
    | with_reducible apply keeps_foldl
    | split

theorem keeps_stepLoadImage {o s : State} {f} (h : Keeps o s) : Keeps o (stepLoadImage f s) := by
  unfold stepLoadImage
  split
  · split
    · exact keeps_answer h
    · dsimp only
      split
      · exact keeps_loadCheck (keeps_readImage h)
      · exact keeps_readImage h
  · exact keeps_complete (keeps_installImage h)

/-! ### Memory commands -/

theorem keeps_serveMem {o s : State} {f} (h : Keeps o s) : Keeps o (serveMem f s) := by
  unfold serveMem
  repeat' first
    | with_reducible assumption
    | with_reducible rfl
    | intro _
    | with_reducible apply keeps_answer
    | with_reducible apply keeps_updFlight
    | split

theorem keeps_serveMemRead {o s : State} {f} (h : Keeps o s) : Keeps o (serveMemRead f s) :=
  keeps_serveMem h

theorem keeps_serveMemWrite {o s : State} {f} (h : Keeps o s) : Keeps o (serveMemWrite f s) :=
  keeps_serveMem h

theorem keeps_serveMemFill {o s : State} {f} (h : Keeps o s) : Keeps o (serveMemFill f s) :=
  keeps_serveMem h

theorem keeps_serveScrub {o s : State} {f} (h : Keeps o s) : Keeps o (serveScrub f s) :=
  keeps_serveMem h

theorem keeps_withQueue {o s : State} {f k} (h : Keeps o s) (hk : ∀ x, Keeps o (k x)) : Keeps o (withQueue f s k) := by
  unfold withQueue
  exact keeps_ite (keeps_answer h) (hk _)

theorem keeps_serveSqConfig {o s : State} {f} (h : Keeps o s) : Keeps o (serveSqConfig f s) := by
  unfold serveSqConfig
  dsimp only
  repeat' first
    | with_reducible assumption
    | intro _
    | with_reducible apply keeps_withQueue
    | with_reducible apply keeps_answer
    | with_reducible apply keeps_answerOk
    | with_reducible apply keeps_updQueue
    | with_reducible apply keeps_ite_same

theorem keeps_offerCell {o s t : State} {f g} (h : Keeps o s) (e : offerCell f s = some (g, t)) : Keeps o t := by
  unfold offerCell at e
  dsimp only at e
  split at e
  · cases e
  · cases e
    exact keeps_updFlight (keeps_arriveCell h) (fun _ => rfl)

theorem keeps_offerCells {o s : State} {n f} (h : Keeps o s) : Keeps o (offerCells n f s) := by
  induction n generalizing s f with
  | zero => exact h
  | succ n ih =>
    unfold offerCells
    split
    · exact h
    · split
      · exact h
      · exact ih (keeps_offerCell h ‹_›)

theorem keeps_serveSqWrite {o s : State} {f} (h : Keeps o s) : Keeps o (serveSqWrite f s) := by
  unfold serveSqWrite
  dsimp only
  repeat' first
    | with_reducible assumption
    | with_reducible rfl
    | intro _
    | with_reducible apply keeps_withQueue
    | with_reducible apply keeps_answer
    | with_reducible apply keeps_offerCells
    | with_reducible apply keeps_updFlight
    | with_reducible apply keeps_ite_same

theorem keeps_readOn {o s : State} {f} (h : Keeps o s) : Keeps o (readOn f s) := by
  unfold readOn
  dsimp only
  repeat' first
    | with_reducible assumption
    | with_reducible rfl
    | intro _
    | with_reducible apply keeps_readWords
    | with_reducible apply keeps_answerData
    | with_reducible apply keeps_updFlight
    | with_reducible apply keeps_ite_same

theorem keeps_serveSqRead {o s : State} {f} (h : Keeps o s) : Keeps o (serveSqRead f s) := by
  unfold serveSqRead
  dsimp only
  repeat' first
    | with_reducible assumption
    | intro _
    | with_reducible apply keeps_withQueue
    | with_reducible apply keeps_answer
    | with_reducible apply keeps_readOn
    | with_reducible apply keeps_ite_same

theorem keeps_withControl {o s : State} {f k} (h : Keeps o s) (hk : ∀ x u, Keeps o u → Keeps o (k x u)) : Keeps o (withControl f s k) := by
  unfold withControl
  exact keeps_withQueue h (fun _ => keeps_ite (keeps_answer h) (hk _ _ (keeps_sqControlWord h)))

theorem keeps_serveSqMark {o s : State} {f} (h : Keeps o s) : Keeps o (serveSqMark f s) := by
  unfold serveSqMark
  repeat' first
    | with_reducible assumption
    | intro _
    | with_reducible apply keeps_withControl
    | with_reducible apply keeps_answerOk
    | with_reducible apply keeps_queueControl

theorem keeps_serveSqRewind {o s : State} {f} (h : Keeps o s) : Keeps o (serveSqRewind f s) := by
  unfold serveSqRewind
  repeat' first
    | with_reducible assumption
    | intro _
    | with_reducible apply keeps_withControl
    | with_reducible apply keeps_answerOk
    | with_reducible apply keeps_queueControl
    | with_reducible apply keeps_answer
    | with_reducible apply keeps_ite_same

theorem keeps_serveSqRelease {o s : State} {f} (h : Keeps o s) : Keeps o (serveSqRelease f s) := by
  unfold serveSqRelease
  dsimp only
  repeat' first
    | with_reducible assumption
    | intro _
    | with_reducible apply keeps_withControl
    | with_reducible apply keeps_complete
    | with_reducible apply keeps_queueControl

theorem keeps_flushOn {o s : State} {f} (h : Keeps o s) : Keeps o (flushOn f s) := by
  unfold flushOn
  repeat' first
    | with_reducible assumption
    | with_reducible rfl
    | intro _
    | with_reducible apply keeps_updFlight
    | with_reducible apply keeps_answerOk
    | with_reducible apply keeps_queueControl
    | with_reducible apply keeps_ite_same

theorem keeps_serveSqFlush {o s : State} {f} (h : Keeps o s) : Keeps o (serveSqFlush f s) := by
  unfold serveSqFlush
  repeat' first | with_reducible assumption | intro _ | with_reducible apply keeps_withControl | with_reducible apply keeps_flushOn

theorem keeps_serveSqReset {o s : State} {f} (h : Keeps o s) : Keeps o (serveSqReset f s) := by
  unfold serveSqReset
  dsimp only
  repeat' first
    | with_reducible assumption
    | intro _
    | with_reducible apply keeps_withControl
    | with_reducible apply keeps_answerOk
    | with_reducible apply keeps_queueControl

theorem keeps_stepSize {o s : State} {remaining} (h : Keeps o s) : Keeps o (stepSize remaining s).2 :=
  keeps_takeFree h

theorem keeps_beginStep {o s : State} {f} (h : Keeps o s) : Keeps o (beginStep f s).2 := by
  unfold beginStep
  dsimp only
  repeat' first
    | with_reducible assumption
    | with_reducible rfl
    | intro _
    | with_reducible apply keeps_stepSize
    | with_reducible apply keeps_updFlight
    | split

theorem keeps_stepSqWrite {o s : State} {f} (h : Keeps o s) : Keeps o (stepSqWrite f s) :=
  keeps_offerCells h

theorem keeps_memStep {o s : State} {f effect} (h : Keeps o s) (he : ∀ f a u, Keeps o u → Keeps o (effect f a u)) :
    Keeps o (memStep f effect s) := keeps_accessNext (keeps_beginStep h) (he _)

theorem keeps_readMem {o s : State} {f a} (h : Keeps o s) : Keeps o (readMem f a s).2 :=
  keeps_readWord h

theorem keeps_setFlight {o s : State} {f} (h : Keeps o s) : Keeps o (updFlight f.id (fun _ => f) s) := by
  refine keeps_mk h id id id id (fun k => ?_) id id id id
  simp only [List.all_eq_true, List.mem_map, decide_eq_true_eq] at k ⊢
  rintro _ ⟨g, hg, rfl⟩
  split
  · have e : g.id = f.id := by simpa using ‹(g.id == f.id) = true›
    exact e ▸ k g hg
  · exact k g hg

theorem keeps_sendRead {o s : State} {n f} (h : Keeps o s) : Keeps o (sendRead n f s) := by
  induction n generalizing s f with
  | zero => exact keeps_setFlight h
  | succ n ih =>
    unfold sendRead
    exact keeps_ite (keeps_ite (keeps_setFlight h) (ih (keeps_sendMore h))) (keeps_complete (keeps_setFlight h))

theorem keeps_stepMemRead {o s : State} {f} (h : Keeps o s) : Keeps o (stepMemRead f s) :=
  keeps_memStep h (fun _ _ _ k => keeps_sendRead (keeps_readMem k))

theorem keeps_memProgress {o s : State} {f} (h : Keeps o s) : Keeps o (memProgress f s) := by
  unfold memProgress
  dsimp only
  repeat' first
    | with_reducible assumption
    | with_reducible rfl
    | intro _
    | with_reducible apply keeps_updFlight
    | with_reducible apply keeps_complete
    | with_reducible apply keeps_ite_same

theorem keeps_stepMemWrite {o s : State} {f} (h : Keeps o s) : Keeps o (stepMemWrite f s) :=
  keeps_memStep h (fun _ _ _ k => keeps_memProgress (keeps_writeWord k))

theorem keeps_stepMemFill {o s : State} {f} (h : Keeps o s) : Keeps o (stepMemFill f s) :=
  keeps_memStep h (fun _ _ _ k => keeps_memProgress (keeps_writeWord k))

theorem keeps_stepScrub {o s : State} {f} (h : Keeps o s) : Keeps o (stepScrub f s) :=
  keeps_memStep h (fun _ _ _ k => keeps_memProgress (keeps_scrubWord k))

theorem keeps_resumeFlushes {o s : State} {onQueue} (h : Keeps o s) : Keeps o (resumeFlushes onQueue s) := by
  unfold resumeFlushes
  repeat' first | with_reducible assumption | intro _ | with_reducible apply keeps_flushOn | with_reducible apply keeps_foldl

theorem keeps_resumeReads {o s : State} {onQueue} (h : Keeps o s) : Keeps o (resumeReads onQueue s) := by
  unfold resumeReads
  repeat' first | with_reducible assumption | intro _ | with_reducible apply keeps_readOn | with_reducible apply keeps_foldl

theorem keeps_writeDone {o s : State} {f} (h : Keeps o s) : Keeps o (writeDone f s) :=
  keeps_complete h

theorem keeps_settleWrites {o s : State} (h : Keeps o s) : Keeps o (settleWrites s) := by
  unfold settleWrites
  repeat' first
    | with_reducible assumption
    | intro _
    | with_reducible apply keeps_writeDone
    | with_reducible apply keeps_ite_same
    | with_reducible apply keeps_foldl

/-! ### Receive -/

theorem keeps_updMac {o s : State} {m f} (h : Keeps o s) : Keeps o (updMac m f s) := by
  unfold updMac
  dsimp only
  repeat' first | with_reducible assumption | with_reducible exact id | with_reducible apply keeps_mk

theorem keeps_countMac {o s : State} {m i n} (h : Keeps o s) : Keeps o (countMac m i n s) := by
  unfold countMac
  dsimp only
  repeat' first
    | with_reducible assumption
    | intro _
    | with_reducible apply keeps_updMac
    | with_reducible apply keeps_postOwner
    | with_reducible apply keeps_ite_same

theorem keeps_updFrame {o s : State} {m serial f} (h : Keeps o s) : Keeps o (updFrame m serial f s) :=
  keeps_updMac h

theorem keeps_countAccepted {o s : State} {m len} (h : Keeps o s) : Keeps o (countAccepted m len s) := by
  unfold countAccepted
  repeat' first | with_reducible assumption | with_reducible apply keeps_countMac

theorem keeps_recordVerdict {o s : State} {m b codeError since} (h : Keeps o s) : Keeps o (recordVerdict m b codeError since s).2.2 := by
  unfold recordVerdict
  dsimp only
  repeat' first
    | with_reducible assumption
    | intro _
    | with_reducible apply keeps_updMac
    | with_reducible apply keeps_updFrame
    | with_reducible apply keeps_countMac
    | with_reducible apply keeps_countAccepted
    | with_reducible apply keeps_ite_same
    | split

theorem keeps_commitFrames {o s : State} {m n} (h : Keeps o s) : Keeps o (commitFrames m n s) := by
  induction n generalizing s with
  | zero => exact h
  | succ n ih =>
    unfold commitFrames
    split
    · exact h
    · refine keeps_ite h ?_
      split
      · exact ih (keeps_updMac h)
      · exact keeps_ite (keeps_updMac (keeps_commitCells h)) (ih (keeps_updMac (keeps_commitCells h)))

theorem keeps_settleFrames {o s : State} {m} (h : Keeps o s) : Keeps o (settleFrames m s) :=
  keeps_commitFrames h

theorem keeps_gateAdvance {o s : State} {m} (h : Keeps o s) : Keeps o (gateAdvance m s) := by
  unfold gateAdvance
  repeat' first | with_reducible assumption | with_reducible apply keeps_updMac | split

theorem keeps_unaccept {o s : State} {m serial seq} (h : Keeps o s) : Keeps o (unaccept m serial seq s) :=
  keeps_updMac h

theorem keeps_noDecision {o s : State} {m f} (h : Keeps o s) : Keeps o (noDecision m f s) := by
  unfold noDecision
  dsimp only
  repeat' first
    | with_reducible assumption
    | intro _
    | with_reducible apply keeps_countMac
    | with_reducible apply keeps_updFrame
    | with_reducible apply keeps_countAccepted
    | with_reducible apply keeps_unaccept
    | with_reducible apply keeps_ite_same
    | split

theorem keeps_enterSample {o s : State} {m b ended f} (h : Keeps o s) : Keeps o (enterSample m b ended f s) := by
  unfold enterSample
  dsimp only
  repeat' first
    | with_reducible assumption
    | with_reducible apply keeps_updFrame
    | refine keeps_writeSample ?_ (by assumption)
    | refine keeps_takeSlot ?_ (by assumption)
    | with_reducible apply keeps_noDecision
    | split

theorem keeps_extractComplete {o s : State} {m b ended since} (h : Keeps o s) : Keeps o (extractComplete m b ended since s) := by
  unfold extractComplete
  dsimp only
  repeat' first
    | with_reducible assumption
    | intro _
    | with_reducible apply keeps_settleFrames
    | with_reducible apply keeps_enterSample
    | with_reducible apply keeps_updFrame
    | with_reducible apply keeps_updMac
    | with_reducible apply keeps_ite_same
    | split

theorem keeps_gateTakesForce {o s : State} {m} (h : Keeps o s) : Keeps o (gateTakesForce m s) := by
  unfold gateTakesForce
  repeat' first | with_reducible assumption | intro _ | with_reducible apply keeps_updMac | with_reducible apply keeps_ite_same | split

theorem keeps_settleSamples {o s : State} {m} (h : Keeps o s) : Keeps o (settleSamples m s) := by
  unfold settleSamples
  dsimp only
  repeat' first
    | with_reducible assumption
    | intro _
    | with_reducible apply keeps_countMac
    | with_reducible apply keeps_updFrame
    | with_reducible apply keeps_countAccepted
    | with_reducible apply keeps_ite_same
    | with_reducible apply keeps_foldl

/-! ### Replies -/

theorem keeps_endReply {o s : State} {m serial counter flag} (h : Keeps o s) : Keeps o (endReply m serial counter flag s) :=
  keeps_settleFrames (keeps_countMac (keeps_updFrame h))

theorem keeps_endUnsent {o s : State} {m serial counter flag} (h : Keeps o s) : Keeps o (endUnsent m serial counter flag s) := by
  unfold endUnsent
  dsimp only
  repeat' first
    | with_reducible assumption
    | intro _
    | with_reducible apply keeps_countMac
    | with_reducible apply keeps_updFrame
    | with_reducible apply keeps_endReply
    | with_reducible apply keeps_ite_same

theorem keeps_suppress {o s : State} {m serial} (h : Keeps o s) : Keeps o (suppress m serial s) :=
  keeps_endUnsent h

theorem keeps_markBlocked {o s : State} {m} (h : Keeps o s) : Keeps o (markBlocked m s) := by
  unfold markBlocked
  dsimp only
  repeat' first
    | with_reducible assumption
    | intro _
    | with_reducible apply keeps_countMac
    | with_reducible apply keeps_updMac
    | with_reducible apply keeps_ite_same

theorem keeps_endFrame {o s : State} {m b codeError since} (h : Keeps o s) : Keeps o (endFrame m b codeError since s) := by
  unfold endFrame
  dsimp only
  repeat' first
    | with_reducible assumption
    | intro _
    | with_reducible apply keeps_recordVerdict
    | with_reducible apply keeps_suppress
    | with_reducible apply keeps_updMac
    | with_reducible apply keeps_endReply
    | with_reducible apply keeps_markBlocked
    | with_reducible apply keeps_settleFrames
    | with_reducible apply keeps_ite_same
    | split

theorem keeps_linkChange {o s : State} {m up} (h : Keeps o s) : Keeps o (linkChange m up s) := by
  unfold linkChange
  dsimp only
  repeat' first
    | with_reducible assumption
    | intro _
    | with_reducible apply keeps_postOwner
    | with_reducible apply keeps_updMac
    | with_reducible apply keeps_endFrame
    | with_reducible apply keeps_ite_same
    | split

theorem keeps_takeResult {o s : State} {m serial tok poison} (h : Keeps o s) : Keeps o (takeResult m serial tok poison s) := by
  unfold takeResult
  dsimp only
  repeat' first
    | with_reducible assumption
    | intro _
    | with_reducible apply keeps_updFrame
    | with_reducible apply keeps_countMac
    | with_reducible apply keeps_updMac
    | with_reducible apply keeps_settleFrames
    | with_reducible apply keeps_ite_same
    | split

theorem keeps_settleResults {o s : State} (h : Keeps o s) : Keeps o (settleResults s) := by
  unfold settleResults
  dsimp only
  repeat' first
    | with_reducible assumption
    | with_reducible exact id
    | intro _
    | with_reducible apply keeps_takeResult
    | with_reducible apply keeps_foldl
    | with_reducible apply keeps_mk

theorem keeps_rxVerdict {o s : State} {m b codeError since} (h : Keeps o s) : Keeps o (rxVerdict m b codeError since s) := by
  unfold rxVerdict
  dsimp only
  repeat' first | with_reducible assumption | intro _ | with_reducible apply keeps_endFrame | with_reducible apply keeps_ite_same

theorem keeps_replyReady {o s : State} {m} (h : Keeps o s) : Keeps o (replyReady m s) := by
  unfold replyReady
  dsimp only
  repeat' first
    | with_reducible assumption
    | intro _
    | with_reducible apply keeps_updMac
    | with_reducible apply keeps_endUnsent
    | with_reducible apply keeps_suppress
    | with_reducible apply keeps_markBlocked
    | with_reducible apply keeps_ite_same
    | split

theorem keeps_occupyTx {o s : State} {m size} (h : Keeps o s) : Keeps o (occupyTx m size s) :=
  keeps_updMac h

theorem keeps_replyStart {o s : State} {m} (h : Keeps o s) : Keeps o (replyStart m s) := by
  unfold replyStart
  dsimp only
  repeat' first
    | with_reducible assumption
    | intro _
    | with_reducible apply keeps_countMac
    | with_reducible apply keeps_updFrame
    | with_reducible apply keeps_updMac
    | with_reducible apply keeps_markBlocked
    | with_reducible apply keeps_occupyTx
    | with_reducible apply keeps_ite_same
    | split

theorem keeps_sendWire {o s : State} {m b} (h : Keeps o s) : Keeps o (sendWire m b s) := by
  unfold sendWire
  dsimp only
  repeat' first
    | with_reducible assumption
    | intro _
    | with_reducible apply keeps_updMac
    | with_reducible apply keeps_countMac
    | with_reducible apply keeps_ite_same

theorem keeps_replyHandover {o s : State} {m} (h : Keeps o s) : Keeps o (replyHandover m s) := by
  unfold replyHandover
  dsimp only
  repeat' first
    | with_reducible assumption
    | intro _
    | with_reducible apply keeps_updMac
    | with_reducible apply keeps_endReply
    | with_reducible apply keeps_sendWire
    | with_reducible apply keeps_ite_same
    | split

/-! ### Transmit -/

theorem keeps_takeCells {o s : State} {q n} (h : Keeps o s) : Keeps o (takeCells q n s).2 := by
  unfold takeCells
  dsimp only
  repeat' first | with_reducible assumption | with_reducible apply keeps_readWords | with_reducible apply keeps_updQueue | split

theorem keeps_fillItem {o s : State} {q n it} (h : Keeps o s) : Keeps o (fillItem q n it s).2 :=
  keeps_takeCells h

theorem keeps_updClass {o s : State} {m c f} (h : Keeps o s) : Keeps o (updClass m c f s) :=
  keeps_updMac h

theorem keeps_skipCells {o s : State} {m c q} (h : Keeps o s) : Keeps o (skipCells m c q s) :=
  keeps_updClass (keeps_takeCells h)

theorem keeps_dropItem {o s : State} {m c q it} (h : Keeps o s) : Keeps o (dropItem m c q it s) :=
  keeps_skipCells (keeps_updClass h)

theorem keeps_sendNext {o s : State} {m c q it} (h : Keeps o s) : Keeps o (sendNext m c q it s) := by
  unfold sendNext
  dsimp only
  repeat' first
    | with_reducible assumption
    | intro _
    | with_reducible apply keeps_updClass
    | with_reducible apply keeps_countMac
    | with_reducible apply keeps_dropItem
    | with_reducible apply keeps_ite_same
    | split

theorem keeps_advanceItem {o s : State} {m c q it} (h : Keeps o s) : Keeps o (advanceItem m c q it s) := by
  unfold advanceItem
  dsimp only
  repeat' first
    | with_reducible assumption
    | intro _
    | with_reducible apply keeps_fillItem
    | with_reducible apply keeps_updClass
    | with_reducible apply keeps_sendNext
    | with_reducible apply keeps_dropItem
    | with_reducible apply keeps_countMac
    | with_reducible apply keeps_ite_same

theorem keeps_updPtp {o s : State} {m f} (h : Keeps o s) : Keeps o (updPtp m f s) := by
  unfold updPtp
  dsimp only
  repeat' first | with_reducible assumption | with_reducible exact id | with_reducible apply keeps_mk

theorem keeps_dropUnfit {o s : State} {m c} (h : Keeps o s) : Keeps o (dropUnfit m c s) := by
  unfold dropUnfit
  dsimp only
  repeat' first
    | with_reducible assumption
    | intro _
    | with_reducible apply keeps_countMac
    | with_reducible apply keeps_updClass
    | with_reducible apply keeps_dropItem
    | with_reducible apply keeps_ite_same
    | split

theorem keeps_dropUnfits {o s : State} {m} (h : Keeps o s) : Keeps o (dropUnfits m s) := by
  unfold dropUnfits
  repeat' first | with_reducible assumption | intro _ | with_reducible apply keeps_dropUnfit | with_reducible apply keeps_foldl

theorem keeps_itemReady {o s : State} {m c} (h : Keeps o s) : Keeps o (itemReady m c s) := by
  unfold itemReady
  dsimp only
  repeat' first
    | with_reducible assumption
    | intro _
    | with_reducible apply keeps_dropUnfit
    | with_reducible apply keeps_skipCells
    | with_reducible apply keeps_advanceItem
    | with_reducible apply keeps_updClass
    | with_reducible apply keeps_countMac
    | with_reducible apply keeps_takeCells
    | with_reducible apply keeps_dropItem
    | with_reducible apply keeps_ite_same
    | split

theorem keeps_transparentClock {o s : State} {m d b} (h : Keeps o s) : Keeps o (transparentClock m d b s).2 := by
  unfold transparentClock
  dsimp only
  repeat' first | with_reducible assumption | with_reducible apply keeps_updPtp | split

theorem keeps_oneStepSync {o s : State} {m segment b} (h : Keeps o s) : Keeps o (oneStepSync m segment b s).2 := by
  unfold oneStepSync
  dsimp only
  repeat' first | with_reducible assumption | with_reducible apply keeps_updPtp | split

theorem keeps_frameStart {o s : State} {m} (h : Keeps o s) : Keeps o (frameStart m s) := by
  unfold frameStart
  dsimp only
  repeat' first
    | with_reducible assumption
    | intro _
    | with_reducible apply keeps_dropUnfits
    | with_reducible apply keeps_transparentClock
    | with_reducible apply keeps_oneStepSync
    | with_reducible apply keeps_updClass
    | with_reducible apply keeps_countMac
    | with_reducible apply keeps_markBlocked
    | with_reducible apply keeps_occupyTx
    | with_reducible apply keeps_sendWire
    | with_reducible apply keeps_replyStart
    | with_reducible apply keeps_ite_same
    | split

/-! ### Ethernet and time commands -/

theorem keeps_withMac {o s : State} {f k} (h : Keeps o s) (hk : ∀ x, Keeps o (k x)) : Keeps o (withMac f s k) := by
  unfold withMac
  exact keeps_ite (keeps_answer h) (keeps_ite (keeps_answer h) (hk _))

theorem keeps_setConf {o s : State} {f m g} (h : Keeps o s) : Keeps o (setConf f m g s) :=
  keeps_answerOk (keeps_updMac h)

theorem keeps_serveMacConfig {o s : State} {f} (h : Keeps o s) : Keeps o (serveMacConfig f s) := by
  unfold serveMacConfig
  dsimp only
  repeat' first
    | with_reducible assumption
    | intro _
    | with_reducible apply keeps_withMac
    | with_reducible apply keeps_answer
    | with_reducible apply keeps_updMac
    | with_reducible apply keeps_setConf
    | with_reducible apply keeps_ite_same

theorem keeps_serveMacFilter {o s : State} {f} (h : Keeps o s) : Keeps o (serveMacFilter f s) := by
  unfold serveMacFilter
  dsimp only
  repeat' first
    | with_reducible assumption
    | intro _
    | with_reducible apply keeps_withMac
    | with_reducible apply keeps_answer
    | with_reducible apply keeps_setConf
    | with_reducible apply keeps_ite_same

theorem keeps_serveGateListLoad {o s : State} {f} (h : Keeps o s) : Keeps o (serveGateListLoad f s) := by
  unfold serveGateListLoad
  dsimp only
  repeat' first
    | with_reducible assumption
    | intro _
    | with_reducible apply keeps_withMac
    | with_reducible apply keeps_answer
    | with_reducible apply keeps_answerOk
    | with_reducible apply keeps_updMac
    | with_reducible apply keeps_ite_same

theorem keeps_serveExtractConfig {o s : State} {f} (h : Keeps o s) : Keeps o (serveExtractConfig f s) := by
  unfold serveExtractConfig
  dsimp only
  repeat' first
    | with_reducible assumption
    | intro _
    | with_reducible apply keeps_withMac
    | with_reducible apply keeps_setConf
    | with_reducible apply keeps_answer
    | with_reducible apply keeps_ite_same

theorem keeps_serveTemplateLoad {o s : State} {f} (h : Keeps o s) : Keeps o (serveTemplateLoad f s) := by
  unfold serveTemplateLoad
  dsimp only
  repeat' first
    | with_reducible assumption
    | intro _
    | with_reducible apply keeps_answer
    | with_reducible apply keeps_answerOk
    | with_reducible apply keeps_updEPort
    | with_reducible apply keeps_ite_same

theorem keeps_serveReplyConfig {o s : State} {f} (h : Keeps o s) : Keeps o (serveReplyConfig f s) := by
  unfold serveReplyConfig
  dsimp only
  repeat' first
    | with_reducible assumption
    | intro _
    | with_reducible apply keeps_withMac
    | with_reducible apply keeps_answer
    | with_reducible apply keeps_updMac
    | with_reducible apply keeps_setConf
    | with_reducible apply keeps_ite_same

theorem keeps_serveCountersRead {o s : State} {f} (h : Keeps o s) : Keeps o (serveCountersRead f s) := by
  unfold serveCountersRead
  repeat' first
    | with_reducible assumption
    | intro _
    | with_reducible apply keeps_withMac
    | with_reducible apply keeps_answer
    | with_reducible apply keeps_answerData
    | with_reducible apply keeps_ite_same

theorem keeps_serveTimeRead {o s : State} {f} (h : Keeps o s) : Keeps o (serveTimeRead f s) :=
  keeps_answerResult (keeps_applyTick h)

theorem keeps_withTime {o s : State} {f k} (h : Keeps o s) (hk : ∀ t, Keeps o t → Keeps o (k t)) : Keeps o (withTime f s k) := by
  unfold withTime
  exact keeps_ite (keeps_answer h) (hk _ (keeps_mk h id id id id id id id id id))

theorem keeps_regate {o s : State} (h : Keeps o s) : Keeps o (regate s) := by
  unfold regate
  repeat' first | with_reducible assumption | intro _ | with_reducible apply keeps_gateAdvance | with_reducible apply keeps_foldl

theorem keeps_serveTimeSet {o s : State} {f} (h : Keeps o s) : Keeps o (serveTimeSet f s) := by
  unfold serveTimeSet
  exact keeps_withTime h (fun t k => keeps_answer (keeps_regate (keeps_timeChange k)))

theorem keeps_serveTimeStep {o s : State} {f} (h : Keeps o s) : Keeps o (serveTimeStep f s) := by
  unfold serveTimeStep
  dsimp only
  repeat' first
    | with_reducible assumption
    | intro _
    | with_reducible apply keeps_withTime
    | with_reducible apply keeps_timeChange
    | with_reducible apply keeps_answer
    | with_reducible apply keeps_regate

theorem keeps_serveTimeAdjFreq {o s : State} {f} (h : Keeps o s) : Keeps o (serveTimeAdjFreq f s) := by
  unfold serveTimeAdjFreq
  dsimp only
  repeat' first
    | with_reducible assumption
    | intro _
    | with_reducible apply keeps_withTime
    | with_reducible apply keeps_answer
    | with_reducible apply keeps_answerOk
    | with_reducible apply keeps_applyRate
    | with_reducible apply keeps_ite_same

theorem keeps_serveTimeInvalidate {o s : State} {f} (h : Keeps o s) : Keeps o (serveTimeInvalidate f s) := by
  unfold serveTimeInvalidate
  dsimp only
  repeat' first
    | with_reducible assumption
    | with_reducible exact id
    | intro _
    | with_reducible apply keeps_withTime
    | with_reducible apply keeps_answerOk
    | with_reducible apply keeps_mk

theorem keeps_serveTimeSource {o s : State} {f} (h : Keeps o s) : Keeps o (serveTimeSource f s) := by
  unfold serveTimeSource
  dsimp only
  repeat' first
    | with_reducible assumption
    | with_reducible exact id
    | intro _
    | with_reducible apply keeps_withTime
    | with_reducible apply keeps_answer
    | with_reducible apply keeps_answerOk
    | with_reducible apply keeps_ite_same
    | with_reducible apply keeps_mk

theorem keeps_servePtpPortConfig {o s : State} {f} (h : Keeps o s) : Keeps o (servePtpPortConfig f s) := by
  unfold servePtpPortConfig
  repeat' first
    | with_reducible assumption
    | intro _
    | with_reducible apply keeps_withMac
    | with_reducible apply keeps_answer
    | with_reducible apply keeps_answerOk
    | with_reducible apply keeps_updPtp
    | with_reducible apply keeps_ite_same

theorem keeps_servePpsConfig {o s : State} {f} (h : Keeps o s) : Keeps o (servePpsConfig f s) := by
  unfold servePpsConfig
  dsimp only
  repeat' first
    | with_reducible assumption
    | intro _
    | with_reducible apply keeps_withTime
    | with_reducible apply keeps_answer
    | with_reducible apply keeps_answerOk
    | with_reducible apply keeps_setPps
    | with_reducible apply keeps_ite_same

/-! ### Ring log -/

theorem keeps_serveRingStart {o s : State} {f} (h : Keeps o s) : Keeps o (serveRingStart f s) := by
  unfold serveRingStart
  dsimp only
  refine keeps_ite (keeps_answer h) (keeps_ite (keeps_answer h) (keeps_ite (keeps_answer h) (keeps_ite (keeps_answer h) (keeps_answerOk ?_))))
  exact keeps_mk h id id id id id id id (fun _ => Nat.zero_le _) (fun _ => Nat.zero_le _)

theorem keeps_serveRingStop {o s : State} {f} (h : Keeps o s) : Keeps o (serveRingStop f s) := by
  unfold serveRingStop
  dsimp only
  repeat' first
    | with_reducible assumption
    | with_reducible exact id
    | intro _
    | with_reducible apply keeps_answer
    | with_reducible apply keeps_answerOk
    | with_reducible apply keeps_ite_same
    | with_reducible apply keeps_mk

theorem keeps_serveRingGet {o s : State} {seals f} (h : Keeps o s) : Keeps o (serveRingGet seals f s) := by
  unfold serveRingGet
  dsimp only
  refine keeps_ite (keeps_answer h) (keeps_ite (keeps_answer h) (keeps_complete ?_))
  refine keeps_ite h (keeps_mk h id id id id id id id (fun g => ?_) id)
  simpa using g

theorem keeps_serveRingRead {o s : State} {f} (h : Keeps o s) : Keeps o (serveRingRead f s) :=
  keeps_serveRingGet h

theorem keeps_serveRingSealRead {o s : State} {f} (h : Keeps o s) : Keeps o (serveRingSealRead f s) :=
  keeps_serveRingGet h

theorem keeps_serveFoldRead {o s : State} {f} (h : Keeps o s) : Keeps o (serveFoldRead f s) := by
  unfold serveFoldRead
  dsimp only
  repeat' first
    | with_reducible assumption
    | intro _
    | with_reducible apply keeps_answer
    | with_reducible apply keeps_answerData
    | with_reducible apply keeps_ite_same
    | split

theorem keepLatest_le (n : Nat) (l : List RingRec) : (keepLatest n l).1.length ≤ n := by
  unfold keepLatest
  rw [List.length_drop]
  omega

theorem keeps_ring {o s : State} {g : RingLog} (h : Keeps o s) (hr : s.ring.records.length ≤ 4096 → g.records.length ≤ 4096)
    (hq : s.ring.seals.length ≤ 64 → g.seals.length ≤ 64) : Keeps o { s with ring := g } :=
  keeps_mk h id id id id id id id hr hq

theorem keeps_recordWrite {o s : State} (h : Keeps o s) : Keeps o (recordWrite s) := by
  have m (u : State) (w : Option Nat) (x : List Byte) (hu : Keeps o u) : Keeps o (match w with
    | some p => postOwner (getPart u p).owner 0x000A x u
    | none => u) := by
    split
    · exact keeps_postOwner hu
    · exact hu
  unfold recordWrite
  extract_lets g sealed nonce u
  split
  · exact h
  · extract_lets d bytes hash kept seals v
    have hu : Keeps o u := keeps_ite (keeps_takeFree h) h
    have hs : u.ring = s.ring := by
      change (if sealed = true then nonce.2 else s).ring = _
      split <;> rfl
    clear_value u
    refine m v _ _ (keeps_ring hu ?_ ?_)
    · intro _
      dsimp only [kept]
      exact keepLatest_le 4096 _
    · intro a
      rw [hs] at a
      change (if sealed = true then _ else _ : List RingRec).length ≤ 64
      split
      · exact keepLatest_le 64 _
      · exact a

end Sys2Proof.Laws
end

