-- ==== Sys2Proof/Laws/KeepsDevice.lean ====
section
/-! SUPPORT. What register words, power, health, profiles, security, boot and the management port keep. -/

namespace Sys2Proof.Laws

set_option Elab.async false

open Sys2Proof Sys2Proof.Machine Sys2Proof.Safety

/-! ### Register words -/

theorem csrs_deviceCsr (s : State) (a) : CsrsKeep (deviceCsr s a) := by
  unfold deviceCsr
  repeat' first | exact csrs_none | exact csrs_ro | split | (refine csrs_rc fun o s w h => ?_)
  · exact keeps_mk h id id id id id id id id id
  · exact keeps_updSession h id

theorem csrs_profileCsr (s : State) (a) : CsrsKeep (profileCsr s a) := by
  unfold profileCsr
  repeat' first | exact csrs_none | exact csrs_ro | split

theorem csrs_partCsr (s : State) (base p o) : CsrsKeep (partCsr s base p o) := by
  unfold partCsr
  dsimp only
  split
  · exact csrs_ro
  · exact csrs_rw fun o s w h => keeps_samplerEnable (keeps_updPart h)
  · exact csrs_rw fun o s w h => keeps_updPart h
  · exact csrs_rc fun o s w h => keeps_updPart h
  · exact csrs_rc fun o s w h => keeps_updPart h
  · exact csrs_rc fun o s w h => keeps_updPart h
  · exact csrs_rc fun o s w h => keeps_updPart h
  · exact csrs_rc fun o s w h => keeps_updPart h
  · exact csrs_rw fun o s w h => keeps_updPart h
  · exact csrs_rw fun o s w h => keeps_updPart h
  · exact csrs_rw fun o s w h => keeps_ite (keeps_clearFaultLog h) h
  · exact csrs_ro
  · exact csrs_none

theorem csrs_canopyCsr (s : State) (a) : CsrsKeep (canopyCsr s a) := by
  unfold canopyCsr
  repeat' first | exact csrs_none | exact csrs_ro | exact csrs_partCsr _ _ _ _ | split

theorem csrs_vaultCsr (s : State) (a) : CsrsKeep (vaultCsr s a) := by
  unfold vaultCsr
  dsimp only
  repeat' first
    | exact csrs_none
    | exact csrs_ro
    | exact csrs_rc fun o s w h => keeps_mk h id id id id id id id id id
    | exact csrs_rw fun o s w h => keeps_mk h id id id id id id id id id
    | split

theorem csrs_queueCsr (s : State) (a) : CsrsKeep (queueCsr s a) := by
  unfold queueCsr
  split
  · exact csrs_none
  · extract_lets x r clear
    have k {o s w i f} (h : Keeps o s) : Keeps o (clear w i f s) := keeps_ite (keeps_updQueue h) h
    clear_value clear
    repeat' first
      | exact csrs_none
      | exact csrs_ro
      | exact csrs_rc fun o s w h => keeps_updQueue h
      | exact csrs_rw fun o s w h => k (k (k h))
      | split

theorem csrs_arborCsr (s : State) (a) : CsrsKeep (arborCsr s a) := by
  unfold arborCsr
  repeat' first
    | exact csrs_none
    | exact csrs_ro
    | exact csrs_rc fun o s w h => keeps_mk h id id id id id id id id id
    | split

theorem csrs_streamCsr (s : State) (i o) : CsrsKeep (streamCsr s i o) := by
  unfold streamCsr
  dsimp only
  repeat' first
    | exact csrs_none
    | exact csrs_ro
    | exact csrs_rc fun o s w h => keeps_updStream h
    | split

theorem csrs_chanCsr (s : State) (i o) : CsrsKeep (chanCsr s i o) := by
  unfold chanCsr
  dsimp only
  repeat' first
    | exact csrs_none
    | exact csrs_ro
    | exact csrs_rw fun o s w h => keeps_updChanT h
    | split

theorem csrs_outCsr (s : State) (i o) : CsrsKeep (outCsr s i o) := by
  unfold outCsr
  dsimp only
  repeat' first
    | exact csrs_none
    | exact csrs_ro
    | exact csrs_rw fun o s w h => keeps_updOutT h
    | exact csrs_rw fun o s w h => keeps_updCap h
    | split

theorem csrs_triggerCsr (s : State) (a) : CsrsKeep (triggerCsr s a) := by
  unfold triggerCsr
  dsimp only
  repeat' first
    | exact csrs_none
    | exact csrs_streamCsr _ _ _
    | exact csrs_chanCsr _ _ _
    | exact csrs_outCsr _ _ _
    | exact csrs_rc fun o s w h => keeps_mk h id id id id id id id id id
    | exact csrs_rw fun o s w h => keeps_mk h id id id id id id id id id
    | split

theorem csrs_macCsr (s : State) (a) : CsrsKeep (macCsr s a) := by
  unfold macCsr
  dsimp only
  repeat' first | exact csrs_none | exact csrs_ro | split

theorem csrs_laneCsr (s : State) (p l o) : CsrsKeep (laneCsr s p l o) := by
  unfold laneCsr
  dsimp only
  repeat' first
    | exact csrs_none
    | exact csrs_ro
    | exact csrs_rw fun o s w h => keeps_updPort h
    | split

theorem csrs_fportCsr (s : State) (p o) : CsrsKeep (fportCsr s p o) := by
  unfold fportCsr
  dsimp only
  repeat' first
    | exact csrs_none
    | exact csrs_ro
    | exact csrs_laneCsr _ _ _ _
    | exact csrs_rc fun o s w h => keeps_updPort h
    | split

theorem csrs_fabricOwnCsr (s : State) (a) : CsrsKeep (fabricOwnCsr s a) := by
  unfold fabricOwnCsr
  dsimp only
  repeat' first
    | exact csrs_none
    | exact csrs_ro
    | exact csrs_rc fun o s w h => keeps_mk h id id id id id id id id id
    | split

theorem csrs_fabricCsr (s : State) (a) : CsrsKeep (fabricCsr s a) := by
  unfold fabricCsr
  split
  · exact csrs_fabricOwnCsr _ _
  · split
    · exact csrs_fportCsr _ _ _
    · exact csrs_none

theorem csrs_timeCsr (s : State) (a) : CsrsKeep (timeCsr s a) := by
  unfold timeCsr
  dsimp only
  repeat' first
    | exact csrs_none
    | exact csrs_ro
    | exact csrs_rc fun o s w h => keeps_mk h id id id id id id id id id
    | exact csrs_rw fun o s w h => keeps_mk h id id id id id id id id id
    | exact csrs_rw fun o s w h => keeps_setPps h
    | exact csrs_rw fun o s w h => keeps_ite (keeps_mk h id id id id id id id id id) h
    | split

theorem csrs_powerCsr (s : State) (a) : CsrsKeep (powerCsr s a) := by
  unfold powerCsr
  dsimp only
  repeat' first
    | exact csrs_none
    | exact csrs_ro
    | exact csrs_rc fun o s w h => keeps_mk h id id id id id id id id id
    | exact csrs_rw fun o s w h => keeps_mk h id id id id id id id id id
    | split

theorem csrs_securityCsr (s : State) (a) : CsrsKeep (securityCsr s a) := by
  unfold securityCsr
  repeat' first | exact csrs_none | exact csrs_ro | split

theorem csrs_ringCsr (s : State) (a) : CsrsKeep (ringCsr s a) := by
  unfold ringCsr
  dsimp only
  repeat' first
    | exact csrs_none
    | exact csrs_ro
    | exact csrs_rc fun o s w h => keeps_mk h id id id id id id id id id
    | exact csrs_rw fun o s w h => keeps_mk h id id id id id id id id id
    | split

theorem csrs_csrAt (s : State) (a) : CsrsKeep (csrAt s a) := by
  unfold csrAt
  dsimp only
  split
  · exact csrs_deviceCsr _ _
  · exact csrs_profileCsr _ _
  · exact csrs_canopyCsr _ _
  · exact csrs_vaultCsr _ _
  · exact csrs_queueCsr _ _
  · exact csrs_arborCsr _ _
  · exact csrs_triggerCsr _ _
  · exact csrs_macCsr _ _
  · exact csrs_fabricCsr _ _
  · exact csrs_timeCsr _ _
  · exact csrs_powerCsr _ _
  · exact csrs_securityCsr _ _
  · exact csrs_ringCsr _ _
  · exact csrs_none

theorem keeps_readCsrWord {o s : State} {a} (h : Keeps o s) : Keeps o (readCsrWord a s).2 := by
  unfold readCsrWord
  split
  · exact h
  · rename_i c e
    split
    · exact h
    · rename_i put n
      exact keeps_mk ((csrs_csrAt s a c e).clear _ n h) id id id id id id id id id

theorem keeps_readCsrWords {o : State} (l : List Nat) : ∀ {s}, Keeps o s → Keeps o (readCsrWords l s).2 := by
  induction l with
  | nil => exact id
  | cons a l ih => exact fun h => ih (keeps_readCsrWord h)

theorem keeps_serveReadCsr {o s : State} {f} (h : Keeps o s) : Keeps o (serveReadCsr f s) :=
  keeps_ite (keeps_answer h) (keeps_answerData (keeps_readCsrWords _ h))

theorem keeps_serveWriteCsr {o s : State} {f} (h : Keeps o s) : Keeps o (serveWriteCsr f s) := by
  refine keeps_ite (keeps_answer h) (keeps_ite (keeps_answer h) (keeps_answerOk (keeps_foldl h fun s aw h => ?_)))
  split
  · rename_i c e
    exact (csrs_csrAt s aw.1 c e).write aw.2 h
  · exact h

theorem keeps_beginCclk {o s : State} (h : Keeps o s) : Keeps o (beginCclk s) := by
  unfold beginCclk
  dsimp only
  split
  · exact keeps_mk h id id id id id id id id id
  · exact keeps_mk h id (fun _ => table_wf_mapAll _ _ _) id id id id id id id

/-! ### Power -/

theorem keeps_ageing {o s : State} {kind unit value} (h : Keeps o s) : Keeps o (ageing kind unit value s) :=
  keeps_postAll h

theorem keeps_measureMonitor {o s : State} {i period} (h : Keeps o s) : Keeps o (measureMonitor i period s) := by
  unfold measureMonitor
  dsimp only
  repeat' first
    | with_reducible assumption
    | with_reducible exact id
    | intro _
    | with_reducible apply keeps_ageing
    | with_reducible apply keeps_ite_same
    | split
    | with_reducible apply keeps_mk

theorem keeps_ageingMeasure {o s : State} {vs} (h : Keeps o s) : Keeps o (ageingMeasure vs s) := by
  unfold ageingMeasure
  dsimp only
  repeat' first
    | with_reducible assumption
    | with_reducible exact id
    | intro _
    | with_reducible apply keeps_measureMonitor
    | with_reducible apply keeps_ite_same
    | with_reducible apply keeps_foldl
    | with_reducible apply keeps_mk

theorem keeps_lasersOff {o s : State} (h : Keeps o s) : Keeps o (lasersOff s) := by
  unfold lasersOff
  repeat' first
    | with_reducible assumption
    | intro _
    | with_reducible apply keeps_settlePort
    | with_reducible apply keeps_updPort
    | with_reducible apply keeps_foldl

theorem keeps_thermalSide {o s : State} (h : Keeps o s) : Keeps o (thermalSide s) := by
  unfold thermalSide
  dsimp only
  repeat' first | with_reducible assumption | with_reducible exact id | with_reducible apply keeps_lasersOff | with_reducible apply keeps_mk

theorem keeps_latchStatus {o s : State} {bit} (h : Keeps o s) : Keeps o (latchStatus bit s) := by
  unfold latchStatus
  dsimp only
  repeat' first | with_reducible assumption | with_reducible exact id | with_reducible apply keeps_mk

theorem keeps_emergencyStop {o s : State} {cause} (h : Keeps o s) : Keeps o (emergencyStop cause s) := by
  unfold emergencyStop
  dsimp only
  repeat' first
    | with_reducible assumption
    | with_reducible exact id
    | intro _
    | with_reducible apply keeps_thermalSide
    | with_reducible apply keeps_latchStatus
    | with_reducible apply keeps_abortPartition
    | with_reducible apply keeps_ite_same
    | with_reducible apply keeps_foldl
    | split
    | with_reducible apply keeps_mk

theorem keeps_servePowerStop {o s : State} {f} (h : Keeps o s) : Keeps o (servePowerStop f s) := by
  unfold servePowerStop
  repeat' first
    | with_reducible assumption
    | with_reducible rfl
    | intro _
    | with_reducible apply keeps_updFlight
    | with_reducible apply keeps_emergencyStop

theorem keeps_serveMarginReplan {o s : State} {f} (h : Keeps o s) : Keeps o (serveMarginReplan f s) := by
  unfold serveMarginReplan
  repeat' first | with_reducible assumption | with_reducible rfl | intro _ | with_reducible apply keeps_updFlight

theorem keeps_replanEnd {o s : State} {r} (h : Keeps o s) : Keeps o (replanEnd r s) := by
  unfold replanEnd
  dsimp only
  repeat' first
    | with_reducible assumption
    | with_reducible exact id
    | intro _
    | with_reducible apply keeps_ageing
    | with_reducible apply keeps_ite_same
    | with_reducible apply keeps_mk

theorem keeps_replanBegin {o s : State} {flight} (h : Keeps o s) : Keeps o (replanBegin flight s) := by
  unfold replanBegin
  dsimp only
  repeat' first
    | with_reducible assumption
    | with_reducible exact id
    | intro _
    | with_reducible apply keeps_replanEnd
    | with_reducible apply keeps_avsMove
    | with_reducible apply keeps_ite_same
    | with_reducible apply keeps_mk

theorem keeps_autoReplan {o s : State} (h : Keeps o s) : Keeps o (autoReplan s) := by
  unfold autoReplan
  dsimp only
  repeat' first
    | with_reducible assumption
    | with_reducible exact id
    | intro _
    | with_reducible apply keeps_replanBegin
    | with_reducible apply keeps_ite_same
    | with_reducible apply keeps_mk

theorem keeps_replanStep {o s : State} (h : Keeps o s) : Keeps o (replanStep s) := by
  unfold replanStep
  dsimp only
  repeat' first
    | with_reducible assumption
    | with_reducible exact id
    | intro _
    | with_reducible apply keeps_replanEnd
    | with_reducible apply keeps_avsMove
    | with_reducible apply keeps_ite_same
    | split
    | with_reducible apply keeps_mk

theorem keeps_avsAck {o s : State} (h : Keeps o s) : Keeps o (avsAck s) := by
  unfold avsAck
  dsimp only
  repeat' first
    | with_reducible assumption
    | with_reducible exact id
    | intro _
    | with_reducible apply keeps_replanStep
    | with_reducible apply keeps_avsNext
    | with_reducible apply keeps_ite_same
    | split
    | with_reducible apply keeps_mk

theorem keeps_avsRetry {o s : State} (h : Keeps o s) : Keeps o (avsRetry s) := by
  unfold avsRetry
  dsimp only
  repeat' first
    | with_reducible assumption
    | with_reducible exact id
    | intro _
    | with_reducible apply keeps_ite_same
    | split
    | with_reducible apply keeps_mk

theorem keeps_emergencyStopEnd {o s : State} (h : Keeps o s) : Keeps o (emergencyStopEnd s) := by
  unfold emergencyStopEnd
  dsimp only
  repeat' first
    | with_reducible assumption
    | with_reducible exact id
    | intro _
    | with_reducible apply keeps_answerOk
    | with_reducible apply keeps_resumeEvals
    | with_reducible apply keeps_ite_same
    | with_reducible apply keeps_foldl
    | with_reducible apply keeps_mk

theorem keeps_replanReply {o s : State} {f status isPartial} (h : Keeps o s) : Keeps o (replanReply f status isPartial s) :=
  keeps_complete h

theorem keeps_stepMarginReplan {o s : State} {f} (h : Keeps o s) : Keeps o (stepMarginReplan f s) := by
  unfold stepMarginReplan
  dsimp only
  repeat' first
    | with_reducible assumption
    | with_reducible rfl
    | with_reducible exact id
    | intro _
    | with_reducible apply keeps_replanBegin
    | with_reducible apply keeps_updFlight
    | with_reducible apply keeps_replanReply
    | with_reducible apply keeps_replanEnd
    | with_reducible apply keeps_avsMove
    | with_reducible apply keeps_ite_same
    | split
    | with_reducible apply keeps_mk

theorem keeps_noteDip {o s : State} {mv} (h : Keeps o s) : Keeps o (noteDip mv s) := by
  unfold noteDip
  dsimp only
  repeat' first
    | with_reducible assumption
    | with_reducible exact id
    | intro _
    | with_reducible apply keeps_ite_same
    | with_reducible apply keeps_mk

/-- What the governor does at full throttle. -/
theorem keeps_full {o s : State} (h : Keeps o s) (x : Option Nat) (late : Nat → Prop) [DecidablePred late] (p : Power) :
    Keeps o (match x with
      | some t => if late t then emergencyStop .power s else s
      | none => { s with power := p }) := by
  cases x with
  | none => exact keeps_power h
  | some t => exact keeps_ite (keeps_emergencyStop h) h

theorem keeps_governFull {o s : State} (h : Keeps o s) : Keeps o (governFull s) := by
  have k := keeps_full h s.power.fullSince (fun t => t + 64000 ≤ s.clk.tticks) { s.power with fullSince := some s.clk.tticks }
  unfold governFull
  split
  · exact k
  · exact keeps_power h

theorem keeps_setThrottle {o s : State} {n} (h : Keeps o s) : Keeps o (setThrottle n s) := by
  unfold setThrottle
  dsimp only
  repeat' first
    | with_reducible assumption
    | with_reducible exact id
    | with_reducible apply keeps_latchStatus
    | split
    | with_reducible apply keeps_mk

theorem keeps_governThrottle {o s : State} {empty} (h : Keeps o s) : Keeps o (governThrottle empty s) := by
  unfold governThrottle
  repeat' first | with_reducible assumption | intro _ | with_reducible apply keeps_setThrottle | with_reducible apply keeps_ite_same

theorem keeps_governFill {o s : State} (h : Keeps o s) : Keeps o (governFill s) := by
  unfold governFill
  dsimp only
  repeat' first | with_reducible assumption | with_reducible exact id | with_reducible apply keeps_mk

theorem keeps_govern {o s : State} (h : Keeps o s) : Keeps o (govern s) := by
  unfold govern
  dsimp only
  repeat' first
    | with_reducible assumption
    | with_reducible exact id
    | intro _
    | with_reducible apply keeps_governFull
    | with_reducible apply keeps_governThrottle
    | with_reducible apply keeps_governFill
    | with_reducible apply keeps_ite_same
    | with_reducible apply keeps_mk

theorem keeps_governorSample {o s : State} {rails maxC} (h : Keeps o s) : Keeps o (governorSample rails maxC s) := by
  unfold governorSample
  dsimp only
  repeat' first
    | with_reducible assumption
    | with_reducible exact id
    | intro _
    | with_reducible apply keeps_noteDip
    | with_reducible apply keeps_latchStatus
    | with_reducible apply keeps_govern
    | with_reducible apply keeps_ite_same
    | split
    | with_reducible apply keeps_mk

theorem keeps_setVcore {o s : State} {mv} (h : Keeps o s) : Keeps o (setVcore mv s) := by
  unfold setVcore
  dsimp only
  repeat' first | with_reducible assumption | with_reducible exact id | with_reducible apply keeps_mk

theorem keeps_vcoreWarning {o s : State} {mv} (h : Keeps o s) : Keeps o (vcoreWarning mv s) := by
  unfold vcoreWarning
  dsimp only
  repeat' first
    | with_reducible assumption
    | with_reducible exact id
    | intro _
    | with_reducible apply keeps_noteDip
    | with_reducible apply keeps_setVcore
    | with_reducible apply keeps_latchStatus
    | with_reducible apply keeps_postAll
    | with_reducible apply keeps_ite_same
    | with_reducible apply keeps_mk

theorem keeps_pauseEnded {o s : State} (h : Keeps o s) : Keeps o (pauseEnded s) := by
  unfold pauseEnded
  dsimp only
  repeat' first
    | with_reducible assumption
    | with_reducible exact id
    | intro _
    | with_reducible apply keeps_releasePins
    | with_reducible apply keeps_ite_same
    | with_reducible apply keeps_mk

theorem keeps_warningEnd {o s : State} {mv} (h : Keeps o s) : Keeps o (warningEnd mv s) := by
  unfold warningEnd
  dsimp only
  repeat' first
    | with_reducible assumption
    | with_reducible exact id
    | intro _
    | with_reducible apply keeps_noteDip
    | with_reducible apply keeps_setVcore
    | with_reducible apply keeps_pauseEnded
    | with_reducible apply keeps_ite_same
    | split
    | with_reducible apply keeps_mk

theorem keeps_thermalTrip {o s : State} {maxC} (h : Keeps o s) : Keeps o (thermalTrip maxC s) := by
  unfold thermalTrip
  dsimp only
  repeat' first
    | with_reducible assumption
    | with_reducible exact id
    | intro _
    | with_reducible apply keeps_emergencyStop
    | with_reducible apply keeps_latchStatus
    | with_reducible apply keeps_ite_same
    | with_reducible apply keeps_mk

theorem keeps_setPause {o s : State} (h : Keeps o s) : Keeps o (setPause s) := by
  unfold setPause
  dsimp only
  repeat' first
    | with_reducible assumption
    | with_reducible exact id
    | intro _
    | with_reducible apply keeps_pauseEnded
    | with_reducible apply keeps_ite_same
    | split
    | with_reducible apply keeps_mk

/-! ### Health -/

theorem keeps_recordGraft {o s : State} {b r} (h : Keeps o s) : Keeps o (recordGraft b r s) := by
  unfold recordGraft
  dsimp only
  repeat' first | with_reducible assumption | with_reducible exact id | with_reducible apply keeps_mk

theorem keeps_setMem {o s : State} {loc c} (h : Keeps o s) :
    Keeps o { s with vaults := { s.vaults with mem := setStored loc c s.vaults.mem } } :=
  keeps_mk h (memory_wf_setStored _ _ _) id id id id id id id id

theorem keeps_copyVault {o s : State} {v dst} (h : Keeps o s) : Keeps o (copyVault v dst s) := by
  have k : Keeps o { s with vaults := { s.vaults with mem := s.vaults.mem.filter (fun kv => kv.1 / 64 / 2 ^ 21 != dst) } } :=
    keeps_mk h (table_wf_filter _ _ _) id id id id id id id id
  unfold copyVault
  exact keeps_foldl k (fun s w h => keeps_setMem (keeps_readWord h))

theorem keeps_copyColumn {o s : State} {b lb f i} (h : Keeps o s) : Keeps o (copyColumn b lb f i s) := by
  unfold copyColumn
  repeat' first | with_reducible assumption | intro _ | with_reducible apply keeps_copyVault | with_reducible apply keeps_foldl

theorem keeps_spareEvent {o s : State} {kind bay failed} (h : Keeps o s) : Keeps o (spareEvent kind bay failed s) :=
  keeps_postAll h

theorem keeps_setNoSpare {o s : State} {b} (h : Keeps o s) : Keeps o (setNoSpare b s) := by
  unfold setNoSpare
  dsimp only
  repeat' first | with_reducible assumption | with_reducible exact id | with_reducible apply keeps_mk

theorem keeps_graftEnds {o s : State} {b col} (h : Keeps o s) : Keeps o (graftEnds b col s) := by
  unfold graftEnds
  dsimp only
  repeat' first
    | with_reducible assumption
    | with_reducible exact id
    | with_reducible apply keeps_recordGraft
    | with_reducible apply keeps_spareEvent
    | with_reducible apply keeps_ageing
    | with_reducible apply keeps_setNoSpare
    | with_reducible apply keeps_mk

theorem keeps_applyGraft {o s : State} {n b} (h : Keeps o s) : Keeps o (applyGraft n b s) := by
  unfold applyGraft
  dsimp only
  repeat' first
    | with_reducible assumption
    | intro _
    | with_reducible apply keeps_recordGraft
    | with_reducible apply keeps_copyColumn
    | with_reducible apply keeps_graftEnds
    | with_reducible apply keeps_ite_same
    | with_reducible apply keeps_foldl
    | split

theorem keeps_fallBack {o s : State} (h : Keeps o s) : Keeps o (fallBack s) := by
  unfold fallBack
  dsimp only
  repeat' first
    | with_reducible assumption
    | intro _
    | with_reducible apply keeps_updPart
    | with_reducible apply keeps_ite_same
    | with_reducible apply keeps_foldl

theorem keeps_applyRetire {o s : State} {b} (h : Keeps o s) : Keeps o (applyRetire b s) := by
  unfold applyRetire
  dsimp only
  repeat' first
    | with_reducible assumption
    | with_reducible exact id
    | with_reducible apply keeps_spareEvent
    | with_reducible apply keeps_fallBack
    | with_reducible apply keeps_recordGraft
    | split
    | with_reducible apply keeps_mk

theorem keeps_serveHealthTest {o s : State} {f} (h : Keeps o s) : Keeps o (serveHealthTest f s) := by
  unfold serveHealthTest
  dsimp only
  repeat' first
    | with_reducible assumption
    | with_reducible rfl
    | intro _
    | with_reducible apply keeps_answer
    | with_reducible apply keeps_updFlight
    | with_reducible apply keeps_ite_same

theorem keeps_pendRetirement {o s : State} {b failed} (h : Keeps o s) : Keeps o (pendRetirement b failed s) := by
  unfold pendRetirement
  dsimp only
  repeat' first
    | with_reducible assumption
    | with_reducible exact id
    | intro _
    | with_reducible apply keeps_ite_same
    | with_reducible apply keeps_mk

theorem keeps_columnFailure {o s : State} {col host retire} (h : Keeps o s) : Keeps o (columnFailure col host retire s).2 := by
  unfold columnFailure
  dsimp only
  repeat' first
    | with_reducible assumption
    | with_reducible exact id
    | with_reducible apply keeps_spareEvent
    | with_reducible apply keeps_setNoSpare
    | with_reducible apply keeps_ageing
    | with_reducible apply keeps_pendRetirement
    | split
    | with_reducible apply keeps_mk

theorem keeps_serveColumnFail {o s : State} {f} (h : Keeps o s) : Keeps o (serveColumnFail f s) := by
  unfold serveColumnFail
  dsimp only
  repeat' first
    | with_reducible assumption
    | intro _
    | with_reducible apply keeps_answer
    | with_reducible apply keeps_columnFailure
    | with_reducible apply keeps_answerOk
    | with_reducible apply keeps_ite_same

theorem keeps_foundFailure {o s : State} {unit} (h : Keeps o s) : Keeps o (foundFailure unit s) := by
  unfold foundFailure
  repeat' first
    | with_reducible assumption
    | intro _
    | with_reducible apply keeps_columnFailure
    | with_reducible apply keeps_pendRetirement
    | with_reducible apply keeps_ite_same

theorem keeps_redirects {o s : State} {r} (h : Keeps o s) : Keeps o { s with vaults := { s.vaults with redirects := r } } :=
  keeps_mk h id id id id id id id id id

theorem keeps_copyRepair {o s : State} {d} (h : Keeps o s) : Keeps o (copyRepair d s) := by
  unfold copyRepair
  refine keeps_auxAccess h (fun t k => ?_)
  extract_lets w r u d' src1 a mem src2 b n kept src3
  have m : Keeps o u := by
    change Keeps o (match logicalOf t d.row.vault with
      | some v => readWord v (d.row.word d.copied) srcRepair t
      | none => ((decodeWord (storedWord t (physLoc t d.row.vault (d.row.word d.copied)))).2, t)).2
    split
    · exact keeps_readWord k
    · exact k
  have ha : Keeps o a := keeps_redirects m
  have hb : Keeps o b := keeps_setMem ha
  clear_value b
  exact keeps_ite hb (keeps_mk hb id id id id id id id id id)

theorem keeps_stepHealthTest {o s : State} {found f} (h : Keeps o s) : Keeps o (stepHealthTest found f s) := by
  unfold stepHealthTest
  dsimp only
  repeat' first
    | with_reducible assumption
    | with_reducible rfl
    | with_reducible exact id
    | intro _
    | with_reducible apply keeps_updFlight
    | with_reducible apply keeps_avsMove
    | with_reducible apply keeps_foundFailure
    | with_reducible apply keeps_complete
    | with_reducible apply keeps_testOver
    | with_reducible apply keeps_ite_same
    | with_reducible apply keeps_foldl
    | with_reducible apply keeps_mk

theorem keeps_refreshRow {o s : State} {r} (h : Keeps o s) : Keeps o (refreshRow r s) :=
  keeps_auxAccess h (fun _ k => keeps_mk k id id id id id id id id id)

theorem keeps_visitWord {o s : State} {r col} (h : Keeps o s) : Keeps o (visitWord r col s) := by
  unfold visitWord
  dsimp only
  repeat' first
    | with_reducible assumption
    | with_reducible exact id
    | with_reducible apply keeps_scrubWord
    | split
    | with_reducible apply keeps_mk

theorem keeps_scrubNext {o s : State} (h : Keeps o s) : Keeps o (scrubNext s) := by
  unfold scrubNext
  dsimp only
  repeat' first
    | with_reducible assumption
    | with_reducible exact id
    | intro _
    | with_reducible apply keeps_ite_same
    | with_reducible apply keeps_mk

theorem keeps_scrubVisit {o s : State} (h : Keeps o s) : Keeps o (scrubVisit s) := by
  unfold scrubVisit
  refine keeps_ite h ?_
  split
  · exact keeps_auxAccess h (fun _ k => keeps_visitWord k)
  · exact keeps_ite (keeps_mk h id id id id id id id id id) (keeps_auxAccess h (fun _ k => keeps_scrubNext (keeps_scrubWord k)))

theorem keeps_leaveRow {o s : State} {r} (h : Keeps o s) : Keeps o (leaveRow r s) := by
  unfold leaveRow
  dsimp only
  repeat' first
    | with_reducible assumption
    | with_reducible exact id
    | intro _
    | with_reducible apply keeps_foundFailure
    | with_reducible apply keeps_ite_same
    | with_reducible apply keeps_mk

theorem keeps_rowRepairCopy {o s : State} (h : Keeps o s) : Keeps o (rowRepairCopy s) := by
  unfold rowRepairCopy
  dsimp only
  repeat' first
    | with_reducible assumption
    | with_reducible exact id
    | with_reducible apply keeps_copyRepair
    | with_reducible apply keeps_leaveRow
    | split
    | with_reducible apply keeps_mk

/-! ### Profiles -/

theorem keeps_resetEPort {o s : State} {e0} (h : Keeps o s) : Keeps o (resetEPort e0 s) := by
  unfold resetEPort
  dsimp only
  repeat' first
    | with_reducible assumption
    | intro _
    | with_reducible apply keeps_updMac
    | with_reducible apply keeps_linkChange
    | with_reducible apply keeps_setLane
    | with_reducible apply keeps_updEPort
    | with_reducible apply keeps_foldl

theorem keeps_resetFPort {o s : State} {p} (h : Keeps o s) : Keeps o (resetFPort p s) :=
  keeps_settlePort (keeps_updPort (keeps_flushPort h))

theorem keeps_endForReset {o s : State} {f} (h : Keeps o s) : Keeps o (endForReset f s) := by
  unfold endForReset
  repeat' first
    | with_reducible assumption
    | intro _
    | with_reducible apply keeps_endAborted
    | with_reducible apply keeps_endNow
    | with_reducible apply keeps_ite_same

theorem keeps_endUsers {o s : State} {code port f} (h : Keeps o s) : Keeps o (endUsers code port f s) := by
  unfold endUsers
  repeat' first
    | with_reducible assumption
    | intro _
    | with_reducible apply keeps_endForReset
    | with_reducible apply keeps_ite_same
    | with_reducible apply keeps_foldl

theorem keeps_serveSelectProfile {o s : State} {f} (h : Keeps o s) : Keeps o (serveSelectProfile f s) := by
  unfold serveSelectProfile
  repeat' first
    | with_reducible assumption
    | with_reducible rfl
    | intro _
    | with_reducible apply keeps_answer
    | with_reducible apply keeps_updFlight
    | split

theorem keeps_serveReadProfile {o s : State} {f} (h : Keeps o s) : Keeps o (serveReadProfile f s) := by
  unfold serveReadProfile
  dsimp only
  repeat' first
    | with_reducible assumption
    | intro _
    | with_reducible apply keeps_answer
    | with_reducible apply keeps_complete
    | with_reducible apply keeps_ite_same

theorem keeps_serveWriteProfile {o s : State} {f} (h : Keeps o s) : Keeps o (serveWriteProfile f s) := by
  unfold serveWriteProfile
  repeat' first
    | with_reducible assumption
    | with_reducible rfl
    | intro _
    | with_reducible apply keeps_answer
    | with_reducible apply keeps_updFlight
    | split

theorem keeps_noteSlots {o s : State} (h : Keeps o s) : Keeps o (noteSlots s) := by
  unfold noteSlots
  dsimp only
  repeat' first | with_reducible assumption | with_reducible exact id | with_reducible apply keeps_mk

theorem keeps_loadPorts {o s : State} {b} (h : Keeps o s) : Keeps o (loadPorts b s) := by
  unfold loadPorts
  dsimp only
  repeat' first
    | with_reducible assumption
    | intro _
    | with_reducible apply keeps_updEPort
    | with_reducible apply keeps_updPort
    | with_reducible apply keeps_foldl

theorem keeps_loadParts {o s : State} {b} (h : Keeps o s) : Keeps o (loadParts b s) := by
  unfold loadParts
  dsimp only
  repeat' first
    | with_reducible assumption
    | intro _
    | with_reducible apply keeps_fallBack
    | with_reducible apply keeps_updPart
    | with_reducible apply keeps_foldl

theorem keeps_loadProfile {o s : State} {b} (h : Keeps o s) : Keeps o (loadProfile b s) := by
  unfold loadProfile
  dsimp only
  repeat' first
    | with_reducible assumption
    | with_reducible exact id
    | with_reducible apply keeps_avsMove
    | with_reducible apply keeps_loadPorts
    | with_reducible apply keeps_loadParts
    | with_reducible apply keeps_mk

theorem keeps_bootProfile {o s : State} (h : Keeps o s) : Keeps o (bootProfile s) := by
  unfold bootProfile
  dsimp only
  repeat' first
    | with_reducible assumption
    | with_reducible exact id
    | with_reducible apply keeps_noteSlots
    | with_reducible apply keeps_loadProfile
    | split
    | with_reducible apply keeps_mk

theorem keeps_loadEq {o s : State} {p} (h : Keeps o s) : Keeps o (loadEq p s) :=
  keeps_updPort h

theorem keeps_stepSelectProfile {o s : State} {f} (h : Keeps o s) : Keeps o (stepSelectProfile f s) := by
  unfold stepSelectProfile
  dsimp only
  repeat' first
    | with_reducible assumption
    | with_reducible rfl
    | with_reducible exact id
    | intro _
    | with_reducible apply keeps_answerOk
    | with_reducible apply keeps_answer
    | with_reducible apply keeps_resetEPort
    | with_reducible apply keeps_endUsers
    | with_reducible apply keeps_loadProfile
    | with_reducible apply keeps_loadEq
    | with_reducible apply keeps_resetFPort
    | with_reducible apply keeps_updFlight
    | with_reducible apply keeps_ite_same
    | with_reducible apply keeps_foldl
    | split
    | with_reducible apply keeps_mk

theorem keeps_stepWriteProfile {o s : State} {f} (h : Keeps o s) : Keeps o (stepWriteProfile f s) := by
  unfold stepWriteProfile
  dsimp only
  repeat' first
    | with_reducible assumption
    | with_reducible exact id
    | with_reducible apply keeps_answer
    | with_reducible apply keeps_answerOk
    | with_reducible apply keeps_noteSlots
    | split
    | with_reducible apply keeps_mk

/-! ### Security -/

theorem keeps_serveAttest {o s : State} {f} (h : Keeps o s) : Keeps o (serveAttest f s) := by
  unfold serveAttest
  repeat' first | with_reducible assumption | with_reducible rfl | intro _ | with_reducible apply keeps_updFlight

theorem keeps_serveGetCert {o s : State} {f} (h : Keeps o s) : Keeps o (serveGetCert f s) :=
  keeps_answerData h

theorem keeps_serveFwUpdate {o s : State} {f} (h : Keeps o s) : Keeps o (serveFwUpdate f s) := by
  unfold serveFwUpdate
  repeat' first
    | with_reducible assumption
    | with_reducible rfl
    | intro _
    | with_reducible apply keeps_answer
    | with_reducible apply keeps_updFlight
    | split

theorem keeps_serveFwRecover {o s : State} {f} (h : Keeps o s) : Keeps o (serveFwRecover f s) := by
  unfold serveFwRecover
  dsimp only
  repeat' first
    | with_reducible assumption
    | with_reducible exact id
    | intro _
    | with_reducible apply keeps_answer
    | with_reducible apply keeps_answerOk
    | with_reducible apply keeps_ite_same
    | split
    | with_reducible apply keeps_mk

theorem keeps_serveSafeModelStore {o s : State} {f} (h : Keeps o s) : Keeps o (serveSafeModelStore f s) := by
  unfold serveSafeModelStore
  repeat' first
    | with_reducible assumption
    | with_reducible rfl
    | intro _
    | with_reducible apply keeps_answer
    | with_reducible apply keeps_updFlight
    | split

theorem keeps_runFirmware {o s : State} (h : Keeps o s) : Keeps o (runFirmware s) := by
  unfold runFirmware
  dsimp only
  repeat' first | with_reducible assumption | with_reducible exact id | with_reducible apply keeps_mk

theorem keeps_loadSafeModel {o s : State} {e0} (h : Keeps o s) : Keeps o (loadSafeModel e0 s) := by
  unfold loadSafeModel
  repeat' first | with_reducible assumption | with_reducible apply keeps_updEngine | split

theorem keeps_restartBoot {o s : State} (h : Keeps o s) : Keeps o (restartBoot s) := by
  unfold restartBoot
  dsimp only
  repeat' first | with_reducible assumption | with_reducible exact id | with_reducible apply keeps_mk

theorem keeps_stepAttest {o s : State} {f} (h : Keeps o s) : Keeps o (stepAttest f s) :=
  keeps_answerData (keeps_takeFree h)

theorem keeps_fwFirst {o s : State} {f} (h : Keeps o s) : Keeps o (fwFirst f s) := by
  unfold fwFirst
  dsimp only
  repeat' first
    | with_reducible assumption
    | with_reducible rfl
    | with_reducible exact id
    | intro _
    | with_reducible apply keeps_answer
    | with_reducible apply keeps_updFlight
    | with_reducible apply keeps_ite_same
    | with_reducible apply keeps_mk

theorem keeps_fwRead {o s : State} {f} (h : Keeps o s) : Keeps o (fwRead f s) := by
  unfold fwRead
  split
  · exact keeps_answer h
  · dsimp only
    split
    · exact keeps_fwFirst (keeps_readImage h)
    · exact keeps_readImage h

theorem keeps_stepFwUpdate {o s : State} {n bad f} (h : Keeps o s) : Keeps o (stepFwUpdate n bad f s) := by
  have k (fl : Flash) (b : Boot) : Keeps o { s with flash := fl, boot := b } := keeps_mk h id id id id id id id id id
  unfold stepFwUpdate
  refine keeps_ite (keeps_fwRead h) (keeps_ite (keeps_updFlight (k _ _) (fun _ => rfl)) (keeps_ite ?_ ?_))
  · exact keeps_complete (k _ _)
  · exact keeps_complete (k _ _)

theorem keeps_stepSafeModelStore {o s : State} {f} (h : Keeps o s) : Keeps o (stepSafeModelStore f s) := by
  unfold stepSafeModelStore
  dsimp only
  repeat' first
    | with_reducible assumption
    | with_reducible exact id
    | with_reducible apply keeps_answer
    | with_reducible apply keeps_answerOk
    | split
    | with_reducible apply keeps_mk

/-! ### Boot -/

theorem keeps_resetCanopy {o s : State} (h : Keeps o s) : Keeps o (resetCanopy s) := by
  unfold resetCanopy
  dsimp only
  repeat' first
    | with_reducible assumption
    | with_reducible exact id
    | intro _
    | with_reducible apply keeps_stopAsCommand
    | with_reducible apply keeps_updPart
    | with_reducible apply keeps_ite_same
    | with_reducible apply keeps_foldl
    | with_reducible apply keeps_mk

theorem keeps_loseAllSamples {o s : State} (h : Keeps o s) : Keeps o (loseAllSamples s) := by
  unfold loseAllSamples
  repeat' first | with_reducible assumption | intro _ | with_reducible apply keeps_loseSamples | with_reducible apply keeps_foldl

theorem keeps_resetArbor {o s : State} (h : Keeps o s) : Keeps o (resetArbor s) := by
  unfold resetArbor
  dsimp only
  repeat' first
    | with_reducible assumption
    | with_reducible exact id
    | with_reducible apply keeps_loseAllSamples
    | with_reducible apply keeps_mk

theorem keeps_resetVaults {o s : State} (h : Keeps o s) : Keeps o (resetVaults s) := by
  unfold resetVaults
  dsimp only
  repeat' first | with_reducible assumption | with_reducible exact id | with_reducible apply keeps_mk

theorem keeps_resetSpill {o s : State} (h : Keeps o s) : Keeps o (resetSpill s) :=
  keeps_mk h id (fun _ => rfl) id id id id id id id

theorem keeps_resetTrigDomain {o s : State} (h : Keeps o s) : Keeps o (resetTrigDomain s) := by
  unfold resetTrigDomain
  dsimp only
  repeat' first
    | with_reducible assumption
    | with_reducible exact id
    | intro _
    | with_reducible apply keeps_resetTrigger
    | with_reducible apply keeps_updOutT
    | with_reducible apply keeps_updCap
    | with_reducible apply keeps_foldl
    | with_reducible apply keeps_mk

theorem keeps_resetDomain {o s : State} {code port} (h : Keeps o s) : Keeps o (resetDomain code port s) := by
  unfold resetDomain
  split
  · exact keeps_resetCanopy h
  · exact keeps_resetArbor h
  · exact keeps_resetVaults h
  · exact keeps_mk h id (fun _ => rfl) id id id id id id id
  · exact keeps_resetEPort h
  · exact keeps_resetFPort h
  · exact keeps_resetTrigDomain h

theorem keeps_serveResetDomain {o s : State} {f} (h : Keeps o s) : Keeps o (serveResetDomain f s) := by
  unfold serveResetDomain
  dsimp only
  repeat' first
    | with_reducible assumption
    | with_reducible rfl
    | intro _
    | with_reducible apply keeps_answer
    | with_reducible apply keeps_updFlight
    | with_reducible apply keeps_resetDomain
    | with_reducible apply keeps_endUsers
    | split

theorem keeps_beginBoot {o s : State} (h : Keeps o s) : Keeps o (beginBoot s) := by
  unfold beginBoot
  dsimp only
  repeat' first | with_reducible assumption | with_reducible exact id | with_reducible apply keeps_mk

theorem keeps_beginTest {o s : State} (h : Keeps o s) : Keeps o (beginTest s) := by
  unfold beginTest
  dsimp only
  repeat' first | with_reducible assumption | with_reducible exact id | with_reducible apply keeps_avsMove | with_reducible apply keeps_mk

theorem keeps_bootReady {o s : State} (h : Keeps o s) : Keeps o (bootReady s) := by
  unfold bootReady
  dsimp only
  repeat' first
    | with_reducible assumption
    | with_reducible exact id
    | intro _
    | with_reducible apply keeps_applyRetire
    | with_reducible apply keeps_applyGraft
    | with_reducible apply keeps_ite_same
    | with_reducible apply keeps_foldl
    | with_reducible apply keeps_mk

theorem keeps_firstLock {o s : State} (h : Keeps o s) : Keeps o (firstLock s) := by
  unfold firstLock
  dsimp only
  repeat' first | with_reducible assumption | with_reducible exact id | with_reducible apply keeps_mk

theorem keeps_enterRecovery {o s : State} {cause} (h : Keeps o s) : Keeps o (enterRecovery cause s) := by
  unfold enterRecovery
  dsimp only
  repeat' first
    | with_reducible assumption
    | with_reducible exact id
    | intro _
    | with_reducible apply keeps_firstLock
    | with_reducible apply keeps_loadEq
    | with_reducible apply keeps_resetFPort
    | with_reducible apply keeps_updPort
    | with_reducible apply keeps_ite_same
    | with_reducible apply keeps_foldl
    | with_reducible apply keeps_mk

theorem keeps_loadTables {o s : State} (h : Keeps o s) : Keeps o (loadTables s) := by
  unfold loadTables
  dsimp only
  repeat' first
    | with_reducible assumption
    | with_reducible exact id
    | intro _
    | with_reducible apply keeps_fallBack
    | with_reducible apply keeps_firstLock
    | with_reducible apply keeps_loadEq
    | with_reducible apply keeps_resetFPort
    | with_reducible apply keeps_foldl
    | with_reducible apply keeps_mk

theorem keeps_trainVaults {o s : State} (h : Keeps o s) : Keeps o (trainVaults s) := by
  unfold trainVaults
  exact keeps_foldl (keeps_mk h (fun _ => rfl) id id id id id id id id) (fun s e h => keeps_loadSafeModel h)

theorem keeps_selfTest {o s : State} {r} (h : Keeps o s) : Keeps o (selfTest r s) := by
  unfold selfTest
  dsimp only
  repeat' first
    | with_reducible assumption
    | with_reducible exact id
    | intro _
    | with_reducible apply keeps_foundFailure
    | with_reducible apply keeps_updEngine
    | with_reducible apply keeps_foldl
    | with_reducible apply keeps_mk

theorem keeps_bootStep {o s : State} {r} (h : Keeps o s) : Keeps o (bootStep r s) := by
  unfold bootStep
  dsimp only
  repeat' first
    | with_reducible assumption
    | with_reducible exact id
    | intro _
    | with_reducible apply keeps_runFirmware
    | with_reducible apply keeps_enterRecovery
    | with_reducible apply keeps_bootProfile
    | with_reducible apply keeps_loadTables
    | with_reducible apply keeps_beginTest
    | with_reducible apply keeps_trainVaults
    | with_reducible apply keeps_testOver
    | with_reducible apply keeps_selfTest
    | with_reducible apply keeps_ite_same
    | split
    | with_reducible apply keeps_mk

theorem keeps_stepResetDomain {o s : State} {f} (h : Keeps o s) : Keeps o (stepResetDomain f s) := by
  unfold stepResetDomain
  dsimp only
  repeat' first
    | with_reducible assumption
    | with_reducible exact id
    | intro _
    | with_reducible apply keeps_answerOk
    | with_reducible apply keeps_ite_same
    | with_reducible apply keeps_mk

theorem keeps_resetDevice {o s : State} {cause phase} (h : Keeps o s) : Keeps o (resetDevice cause phase s) := by
  unfold resetDevice
  exact keeps_mk h (fun _ => rfl) (fun _ => rfl) (fun _ => rfl) (fun _ => rfl) (fun _ => rfl)
    (fun _ _ => Nat.zero_le _) (fun _ => Nat.zero_le _) (fun _ => Nat.zero_le _) (fun _ => Nat.zero_le _)

theorem keeps_supplyReset {o s : State} {rail mv} (h : Keeps o s) : Keeps o (supplyReset rail mv s) := by
  unfold supplyReset
  repeat' first | with_reducible assumption | intro _ | with_reducible apply keeps_resetDevice | with_reducible apply keeps_ite_same

theorem keeps_holdEnd {o s : State} (h : Keeps o s) : Keeps o (holdEnd s) := by
  unfold holdEnd
  dsimp only
  repeat' first
    | with_reducible assumption
    | with_reducible exact id
    | intro _
    | with_reducible apply keeps_beginBoot
    | with_reducible apply keeps_ite_same
    | with_reducible apply keeps_mk

theorem keeps_resetAssert {o s : State} (h : Keeps o s) : Keeps o (resetAssert s) := by
  unfold resetAssert
  dsimp only
  repeat' first
    | with_reducible assumption
    | with_reducible exact id
    | with_reducible apply keeps_setPause
    | with_reducible apply keeps_resetDevice
    | split
    | with_reducible apply keeps_mk

theorem keeps_resetEffect {o s : State} (h : Keeps o s) : Keeps o (resetEffect s) := by
  unfold resetEffect
  dsimp only
  repeat' first
    | with_reducible assumption
    | intro _
    | with_reducible apply keeps_resetDevice
    | with_reducible apply keeps_beginBoot
    | with_reducible apply keeps_ite_same

theorem keeps_resetRelease {o s : State} {sel addr pwrGood} (h : Keeps o s) : Keeps o (resetRelease sel addr pwrGood s) := by
  unfold resetRelease
  dsimp only
  repeat' first
    | with_reducible assumption
    | with_reducible exact id
    | intro _
    | with_reducible apply keeps_beginBoot
    | with_reducible apply keeps_ite_same
    | with_reducible apply keeps_mk

theorem keeps_pwrGoodLow {o s : State} (h : Keeps o s) : Keeps o (pwrGoodLow s) := by
  unfold pwrGoodLow
  dsimp only
  repeat' first
    | with_reducible assumption
    | with_reducible exact id
    | with_reducible apply keeps_resetDevice
    | with_reducible apply keeps_mk

/-! ### Management -/

theorem keeps_updPmbus {o s : State} {f} (h : Keeps o s) : Keeps o (updPmbus f s) := by
  unfold updPmbus
  dsimp only
  repeat' first | with_reducible assumption | with_reducible exact id | with_reducible apply keeps_mk

theorem keeps_pmbusEnd {o s : State} {acked bytes} (h : Keeps o s) : Keeps o (pmbusEnd acked bytes s) :=
  keeps_updPmbus h

theorem keeps_cml {o s : State} {acked} (h : Keeps o s) : Keeps o (cml acked s) :=
  keeps_pmbusEnd (keeps_latchStatus h)

theorem keeps_pmbus {o s : State} {k} (h : Keeps o s) (hk : Keeps o (k s)) : Keeps o (pmbus k s) := by
  unfold pmbus
  exact keeps_ite (keeps_pmbusEnd h) hk

theorem keeps_pmbusPage {o s : State} {write pecOk} (h : Keeps o s) : Keeps o (pmbusPage write pecOk s) := by
  unfold pmbusPage
  repeat' first
    | with_reducible assumption
    | intro _
    | with_reducible apply keeps_pmbusEnd
    | with_reducible apply keeps_cml
    | with_reducible apply keeps_updPmbus
    | with_reducible apply keeps_ite_same
    | split

theorem keeps_pmbusClear {o s : State} {pecOk} (h : Keeps o s) : Keeps o (pmbusClear pecOk s) := by
  unfold pmbusClear
  repeat' first
    | with_reducible assumption
    | intro _
    | with_reducible apply keeps_pmbusEnd
    | with_reducible apply keeps_updPmbus
    | with_reducible apply keeps_cml
    | with_reducible apply keeps_ite_same

theorem keeps_readWordFree {o s : State} {value} (h : Keeps o s) : Keeps o (readWordFree value s) :=
  keeps_pmbusEnd (keeps_takeFree h)

theorem keeps_updJtag {o s : State} {f} (h : Keeps o s) : Keeps o (updJtag f s) := by
  unfold updJtag
  dsimp only
  repeat' first | with_reducible assumption | with_reducible exact id | with_reducible apply keeps_mk

theorem keeps_jtagIdcode {o s : State} (h : Keeps o s) : Keeps o (jtagIdcode s) :=
  keeps_updJtag h

theorem keeps_jtagSample {o s : State} {pins preload} (h : Keeps o s) : Keeps o (jtagSample pins preload s) :=
  keeps_updJtag h

theorem keeps_jtagExtest {o s : State} {scan} (h : Keeps o s) : Keeps o (jtagExtest scan s) :=
  keeps_updJtag h

theorem keeps_jtagBypass {o s : State} {code} (h : Keeps o s) : Keeps o (jtagBypass code s) := by
  unfold jtagBypass
  repeat' first | with_reducible assumption | intro _ | with_reducible apply keeps_updJtag | with_reducible apply keeps_ite_same

theorem keeps_pmbusOther {o s : State} {code write} (h : Keeps o s) : Keeps o (pmbusOther code write s) := by
  unfold pmbusOther
  repeat' first | with_reducible assumption | intro _ | with_reducible apply keeps_cml | with_reducible apply keeps_ite_same

end Sys2Proof.Laws
end

