-- ==== Sys2Proof/Laws/KeepsEngine.lean ====
section
/-! SUPPORT. What the command engine, a tile row in a pause and one ACLK cycle keep. -/

namespace Sys2Proof.Laws

set_option Elab.async false

open Sys2Proof Sys2Proof.Machine Sys2Proof.Safety

/-! ### The command engine -/

theorem keeps_countMalformed {o s : State} (h : Keeps o s) : Keeps o (countMalformed s) := by
  unfold countMalformed
  dsimp only
  repeat' first | with_reducible assumption | with_reducible exact id | with_reducible apply keeps_mk

theorem keeps_noteCommand {o s : State} {p} (h : Keeps o s) : Keeps o (noteCommand p s) := by
  unfold noteCommand
  repeat' first
    | with_reducible assumption
    | with_reducible exact id
    | intro _
    | with_reducible apply keeps_updSession
    | with_reducible apply keeps_ite_same

theorem keeps_refuse {o s : State} {code p status} (h : Keeps o s) : Keeps o (refuse code p status s) := by
  unfold refuse
  repeat' first | with_reducible assumption | (simpa [nev, OutItem.isEvent] using ‹nev _ ≤ 256›) | with_reducible apply keeps_updSession

theorem keeps_serveNop {o s : State} {f} (h : Keeps o s) : Keeps o (serveNop f s) :=
  keeps_answerOk h

theorem keeps_serveIdentify {o s : State} {f} (h : Keeps o s) : Keeps o (serveIdentify f s) :=
  keeps_answerData h

theorem keeps_serveGetStatus {o s : State} {f} (h : Keeps o s) : Keeps o (serveGetStatus f s) :=
  keeps_answerResult h

theorem keeps_openSession {o s : State} {f} (h : Keeps o s) : Keeps o (openSession f s) := by
  unfold openSession
  refine keeps_answerResult (keeps_updSession h (fun g => nev_sublist (m := (getSession s f.sess).outbox) ?_ g))
  exact List.filter_sublist

theorem keeps_releaseSession {o s : State} {i} (h : Keeps o s) : Keeps o (releaseSession i s) := by
  have k (f : Spill → Spill) (g : Engine → Engine) (c : Channel → Channel) (w : Option Nat) : Keeps o { s with
      queues := Table.mapAll {} (fun _ x => f x) s.queues
      arbor := { s.arbor with engines := Table.mapAll {} (fun _ x => g x) s.arbor.engines }
      fabric := { s.fabric with channels := Table.mapAll {} (fun _ x => c x) s.fabric.channels }
      time := { s.time with owner := w } } :=
    keeps_mk h id (fun _ => table_wf_mapAll _ (fun _ x => f x) _) (fun _ => table_wf_mapAll ({} : Engine) (fun _ x => g x) s.arbor.engines)
      (fun _ => table_wf_mapAll ({} : Channel) (fun _ x => c x) s.fabric.channels) id id id id id
  unfold releaseSession
  exact keeps_updSession (k _ _ _ _) (fun g => nev_sublist (m := (getSession s i).outbox) List.filter_sublist g)

theorem keeps_settleSession {o s : State} {f} (h : Keeps o s) : Keeps o (settleSession f s) := by
  unfold settleSession
  repeat' first
    | with_reducible assumption
    | intro _
    | with_reducible apply keeps_answerOk
    | with_reducible apply keeps_releaseSession
    | with_reducible apply keeps_openSession
    | with_reducible apply keeps_ite_same

theorem keeps_endOther {o s : State} {g} (h : Keeps o s) : Keeps o (endOther g s) := by
  unfold endOther
  dsimp only
  repeat' first
    | with_reducible assumption
    | intro _
    | with_reducible apply keeps_markLate
    | with_reducible apply keeps_abortFlight
    | with_reducible apply keeps_stopAsCommand
    | with_reducible apply keeps_markSteps
    | with_reducible apply keeps_ite_same

theorem keeps_endSession {o s : State} {f} (h : Keeps o s) : Keeps o (endSession f s) := by
  unfold endSession
  repeat' first
    | with_reducible assumption
    | intro _
    | with_reducible apply keeps_endOther
    | with_reducible apply keeps_ite_same
    | with_reducible apply keeps_foldl

theorem keeps_serveOpenSession {o s : State} {f} (h : Keeps o s) : Keeps o (serveOpenSession f s) := by
  unfold serveOpenSession
  dsimp only
  repeat' first
    | with_reducible assumption
    | intro _
    | with_reducible apply keeps_answer
    | with_reducible apply keeps_openSession
    | with_reducible apply keeps_settleSession
    | with_reducible apply keeps_endSession
    | with_reducible apply keeps_ite_same

theorem keeps_serveCloseSession {o s : State} {f} (h : Keeps o s) : Keeps o (serveCloseSession f s) := by
  unfold serveCloseSession
  repeat' first | with_reducible assumption | with_reducible apply keeps_settleSession | with_reducible apply keeps_endSession

theorem keeps_serveAbort {o s : State} {f} (h : Keeps o s) : Keeps o (serveAbort f s) := by
  unfold serveAbort
  dsimp only
  repeat' first
    | with_reducible assumption
    | with_reducible rfl
    | intro _
    | with_reducible apply keeps_answerResult
    | with_reducible apply keeps_markLate
    | with_reducible apply keeps_abortFlight
    | with_reducible apply keeps_updFlight
    | with_reducible apply keeps_answer
    | with_reducible apply keeps_ite_same
    | split

theorem keeps_serveOp {o s : State} {f} (h : Keeps o s) : Keeps o (serveOp f s) := by
  unfold serveOp
  split
  · exact keeps_serveNop h
  · exact keeps_serveIdentify h
  · exact keeps_serveGetStatus h
  · exact keeps_serveOpenSession h
  · exact keeps_serveCloseSession h
  · exact keeps_serveResetDomain h
  · exact keeps_serveReadCsr h
  · exact keeps_serveWriteCsr h
  · exact keeps_serveSelectProfile h
  · exact keeps_serveReadProfile h
  · exact keeps_serveWriteProfile h
  · exact keeps_serveLoadImage h
  · exact keeps_serveUnloadContext h
  · exact keeps_serveStart h
  · exact keeps_serveStop h
  · exact keeps_serveAbort h
  · exact keeps_serveStep h
  · exact keeps_serveDrain h
  · exact keeps_serveMemRead h
  · exact keeps_serveMemWrite h
  · exact keeps_serveMemFill h
  · exact keeps_serveScrub h
  · exact keeps_serveSqConfig h
  · exact keeps_serveSqWrite h
  · exact keeps_serveSqRead h
  · exact keeps_serveSqMark h
  · exact keeps_serveSqRewind h
  · exact keeps_serveSqRelease h
  · exact keeps_serveSqFlush h
  · exact keeps_serveSqReset h
  · exact keeps_serveArbLoad h
  · exact keeps_serveArbRead h
  · exact keeps_serveArbVerify h
  · exact keeps_serveArbTcamLoad h
  · exact keeps_serveArbEnsemble h
  · exact keeps_serveArbMode h
  · exact keeps_serveArbEval h
  · exact keeps_serveStreamConfig h
  · exact keeps_serveTrigArm h
  · exact keeps_serveTrigDisarm h
  · exact keeps_serveTrigRearm h
  · exact keeps_serveMacConfig h
  · exact keeps_serveMacFilter h
  · exact keeps_serveGateListLoad h
  · exact keeps_serveExtractConfig h
  · exact keeps_serveTemplateLoad h
  · exact keeps_serveReplyConfig h
  · exact keeps_serveCountersRead h
  · exact keeps_serveFportPower h
  · exact keeps_serveLaneControl h
  · exact keeps_serveFabricConfig h
  · exact keeps_serveReduceGroup h
  · exact keeps_serveTimeRead h
  · exact keeps_serveTimeSet h
  · exact keeps_serveTimeStep h
  · exact keeps_serveTimeAdjFreq h
  · exact keeps_serveTimeInvalidate h
  · exact keeps_serveTimeSource h
  · exact keeps_servePtpPortConfig h
  · exact keeps_servePpsConfig h
  · exact keeps_servePowerStop h
  · exact keeps_serveMarginReplan h
  · exact keeps_serveHealthTest h
  · exact keeps_serveColumnFail h
  · exact keeps_serveAttest h
  · exact keeps_serveGetCert h
  · exact keeps_serveFwUpdate h
  · exact keeps_serveFwRecover h
  · exact keeps_serveSafeModelStore h
  · exact keeps_serveRingStart h
  · exact keeps_serveRingStop h
  · exact keeps_serveRingRead h
  · exact keeps_serveRingSealRead h
  · exact keeps_serveFoldRead h

theorem keeps_serve {o s : State} {f} (h : Keeps o s) : Keeps o (serve f s) := by
  unfold serve
  exact keeps_ite (keeps_answer (keeps_updFlight h (fun _ => rfl))) (keeps_serveOp (keeps_updFlight h (fun _ => rfl)))

theorem keeps_tryServe {o s : State} {atStep n} (h : Keeps o s) : Keeps o (tryServe atStep n s) := by
  unfold tryServe
  split
  · exact h
  · exact keeps_ite h (keeps_serve h)

theorem keeps_endTaken {o s : State} {id0} (h : Keeps o s) : Keeps o (endTaken id0 s) := by
  unfold endTaken
  repeat' first | with_reducible assumption | with_reducible apply keeps_endOther | split

theorem keeps_take {o s : State} {op p} (h : Keeps o s) : Keeps o (take op p s) := by
  have k (f : Flight) (hf : f.id = s.host.nextId) :
      Keeps o { s with host := { s.host with flights := s.host.flights ++ [f], nextId := s.host.nextId + 1 } } := by
    refine keeps_mk h id id id id (fun g => ?_) id id id id
    simp only [List.all_eq_true, List.mem_append, List.mem_singleton, decide_eq_true_eq] at g ⊢
    rintro x (hx | rfl)
    · exact Nat.lt_succ_of_lt (g x hx)
    · exact hf ▸ Nat.lt_succ_self _
  exact keeps_ite (keeps_tryServe (k _ rfl)) (keeps_endTaken (keeps_tryServe (k _ rfl)))

theorem keeps_arrive {o s : State} {op p} (h : Keeps o s) : Keeps o (arrive op p s) := by
  unfold arrive
  dsimp only
  repeat' first
    | with_reducible assumption
    | intro _
    | with_reducible apply keeps_countMalformed
    | with_reducible apply keeps_noteCommand
    | with_reducible apply keeps_refuse
    | with_reducible apply keeps_take
    | with_reducible apply keeps_ite_same
    | split

theorem keeps_arriveCode {o s : State} {code p} (h : Keeps o s) : Keeps o (arriveCode code p s) := by
  unfold arriveCode
  repeat' first
    | with_reducible assumption
    | intro _
    | with_reducible apply keeps_arrive
    | with_reducible apply keeps_countMalformed
    | with_reducible apply keeps_refuse
    | with_reducible apply keeps_noteCommand
    | with_reducible apply keeps_ite_same
    | split

theorem keeps_arriveBody {o s : State} {path body} (h : Keeps o s) : Keeps o (arriveBody path body s) := by
  unfold arriveBody
  repeat' first
    | with_reducible assumption
    | intro _
    | with_reducible apply keeps_countMalformed
    | with_reducible apply keeps_arriveCode
    | with_reducible apply keeps_ite_same

theorem keeps_serveWaiting {o s : State} {atStep} (h : Keeps o s) : Keeps o (serveWaiting atStep s) := by
  unfold serveWaiting
  exact keeps_foldl h (fun s i h => keeps_tryServe h)

theorem keeps_bayApply {o s : State} {retire columns b} (h : Keeps o s) : Keeps o (bayApply retire columns b s) := by
  unfold bayApply
  repeat' first
    | with_reducible assumption
    | intro _
    | with_reducible apply keeps_serveWaiting
    | with_reducible apply keeps_applyRetire
    | with_reducible apply keeps_applyGraft
    | with_reducible apply keeps_ite_same

theorem keeps_sendItem {o s : State} {i it} (h : Keeps o s) : Keeps o (sendItem i it s) := by
  unfold sendItem
  repeat' first | with_reducible assumption | with_reducible apply keeps_sendReply | split

theorem keeps_endAborting {o s : State} {f} (h : Keeps o s) : Keeps o (endAborting f s) := by
  unfold endAborting
  repeat' first | with_reducible assumption | intro _ | with_reducible apply keeps_endNow | with_reducible apply keeps_ite_same | split

theorem keeps_endStep {o s : State} {f} (h : Keeps o s) : Keeps o (endStep f s) := by
  unfold endStep
  dsimp only
  repeat' first
    | with_reducible assumption
    | intro _
    | with_reducible apply keeps_endAborting
    | with_reducible apply keeps_reportStep
    | with_reducible apply keeps_ite_same
    | split

theorem keeps_uartFrame {o s : State} {bytes} (h : Keeps o s) : Keeps o (uartFrame bytes s) := by
  unfold uartFrame
  dsimp only
  repeat' first | with_reducible assumption | intro _ | with_reducible apply keeps_arriveBody | with_reducible apply keeps_ite_same

theorem keeps_sendEarlier {o s : State} {i} (h : Keeps o s) : Keeps o (sendEarlier i s) := by
  unfold sendEarlier
  refine keeps_foldl (keeps_updSession h (fun g => nev_sublist (m := (getSession s i).outbox) ?_ g)) (fun s it h => keeps_sendItem h)
  exact List.drop_sublist _ _

theorem keeps_settle {o s : State} {id0} (h : Keeps o s) : Keeps o (settle id0 s) := by
  unfold settle
  repeat' first
    | with_reducible assumption
    | intro _
    | with_reducible apply keeps_answerResult
    | with_reducible apply keeps_settleSession
    | with_reducible apply keeps_ite_same
    | with_reducible apply keeps_foldl

theorem keeps_terminalReply {o s : State} {n} (h : Keeps o s) : Keeps o (terminalReply n s) := by
  unfold terminalReply
  split
  · exact h
  · split
    · rename_i f _ _ t r _
      dsimp only
      refine keeps_ite h (keeps_serveWaiting (keeps_settle ?_))
      have k (s : State) (h : Keeps o s) : Keeps o { s with host := { s.host with flights := s.host.flights.filter (fun g => g.id != n) } } := by
        refine keeps_mk h id id id id (fun g => ?_) id id id id
        simp only [List.all_eq_true, List.mem_filter] at g ⊢
        exact fun x hx => g x hx.1
      have m : Keeps o (updSession f.sess (fun x => { x with outbox := x.outbox.drop 1 }) (sendEarlier f.sess s)) :=
        keeps_updSession (keeps_sendEarlier h) (fun g => nev_sublist (m := (getSession (sendEarlier f.sess s) f.sess).outbox) (List.drop_sublist _ _) g)
      have v := k _ (@keeps_sendReply _ _ (routeOfPacket f.pkt) (replyBytes f.op.code f.pkt r) m)
      have c := @keeps_ite _ _ _ (f.op == .closeSession && r.status == stOk) _
        (@keeps_updSession _ _ f.sess (fun x => { x with isOpen := false }) v id) v
      exact keeps_ite (keeps_restartBoot c) c
    · exact h

theorem keeps_runStep {o s : State} {found f} (h : Keeps o s) : Keeps o (runStep found f s) := by
  have u (n : Nat) : Keeps o (stepSize n s).2 := keeps_stepSize h
  unfold runStep
  extract_lets units
  split
  · exact keeps_stepResetDomain h
  · exact keeps_stepLoadImage h
  · exact keeps_updFlight h (fun _ => rfl)
  · exact keeps_stepMemRead h
  · exact keeps_stepMemWrite h
  · exact keeps_stepMemFill h
  · exact keeps_stepScrub h
  · exact keeps_ite (keeps_stepArbLoad (u _)) (keeps_complete (keeps_stepArbLoad (u _)))
  · exact keeps_ite (keeps_updFlight (u _) (fun _ => rfl)) (keeps_finishArbVerify (u _))
  · exact keeps_stepSelectProfile h
  · exact keeps_stepWriteProfile h
  · exact keeps_stepMarginReplan h
  · exact keeps_stepHealthTest h
  · exact keeps_stepAttest h
  · exact keeps_stepFwUpdate (u _)
  · exact keeps_stepSafeModelStore h
  · exact h

theorem keeps_longStep {o s : State} {n found} (h : Keeps o s) : Keeps o (longStep n found s) := by
  unfold longStep
  split
  · exact h
  · refine keeps_ite h (keeps_ite (keeps_ite h (keeps_endStep (keeps_stepSqWrite h))) (keeps_ite h ?_))
    refine keeps_ite (keeps_runStep h) (keeps_serveWaiting (keeps_endStep ?_))
    exact keeps_updFlight (keeps_mk (keeps_runStep h) id id id id id id id id id) (fun _ => rfl)

theorem keeps_freeFlits {o s : State} {p vc n} (h : Keeps o s) : Keeps o (freeFlits p vc n s) :=
  keeps_updPort h

theorem keeps_fabricPacket {o s : State} {p vc} (h : Keeps o s) : Keeps o (fabricPacket p vc s) := by
  unfold fabricPacket
  dsimp only
  repeat' first
    | with_reducible assumption
    | with_reducible exact id
    | intro _
    | with_reducible apply keeps_freeFlits
    | with_reducible apply keeps_countUnroutable
    | with_reducible apply keeps_reduceArrive
    | with_reducible apply keeps_arriveBody
    | with_reducible apply keeps_sendExit
    | with_reducible apply keeps_ite_same
    | split
    | with_reducible apply keeps_mk

/-! ### Rows of a tile -/

theorem keeps_unlessPaused {o s t : State} (h : Keeps o s) (ht : Keeps o t) : Keeps o (unlessPaused s t) := keeps_ite h ht

/-! ### An ACLK cycle -/

theorem keeps_tclkTicks {o s : State} {n} (h : Keeps o s) : Keeps o (tclkTicks n s) := by
  induction n generalizing s with
  | zero => exact h
  | succ n ih =>
    unfold tclkTicks
    split
    · exact ih (keeps_tickTime h)
    · exact ih (keeps_mk h id id id id id id id id id)

theorem keeps_advanceClocks {o s : State} (h : Keeps o s) : Keeps o (advanceClocks s) := by
  unfold advanceClocks
  dsimp only
  repeat' first | with_reducible assumption | with_reducible exact id | with_reducible apply keeps_tclkTicks | with_reducible apply keeps_mk

theorem keeps_canopyCycle {o s : State} (h : Keeps o s) : Keeps o (canopyCycle s) := by
  unfold canopyCycle
  dsimp only
  repeat' first
    | with_reducible assumption
    | with_reducible exact id
    | intro _
    | with_reducible apply keeps_tileCycleEnd
    | with_reducible apply keeps_ite_same
    | with_reducible apply keeps_foldl
    | with_reducible apply keeps_mk

theorem keeps_drainOutputs {o s : State} (h : Keeps o s) : Keeps o (drainOutputs s) := by
  unfold drainOutputs
  refine keeps_foldl h (fun s i h => ?_)
  split
  · exact h
  · rename_i it rest e
    refine keeps_ite h (keeps_sendItem (keeps_updSession h (fun g => nev_sublist (m := (getSession s i).outbox) ?_ g)))
    rw [e]
    exact List.sublist_cons_self _ _

theorem keeps_runPorts {o s : State} (h : Keeps o s) : Keeps o (runPorts s) :=
  keeps_foldl h (fun _ _ k => keeps_pumpPort k)

theorem keeps_runChannels {o s : State} (h : Keeps o s) : Keeps o (runChannels s) := by
  unfold runChannels
  repeat' first
    | with_reducible assumption
    | intro _
    | with_reducible apply keeps_reduceOutput
    | with_reducible apply keeps_pumpChan
    | with_reducible apply keeps_reduceIntake
    | with_reducible apply keeps_foldl

theorem keeps_runFrames {o s : State} (h : Keeps o s) : Keeps o (runFrames s) := by
  unfold runFrames
  repeat' first
    | with_reducible assumption
    | intro _
    | with_reducible apply keeps_settleFrames
    | with_reducible apply keeps_settleSamples
    | with_reducible apply keeps_foldl

theorem keeps_runReplies {o s : State} (h : Keeps o s) : Keeps o (runReplies s) := by
  unfold runReplies
  repeat' first | with_reducible assumption | intro _ | with_reducible apply keeps_markBlocked | with_reducible apply keeps_foldl

theorem keeps_passCycle {o s : State} (h : Keeps o s) : Keeps o (passCycle s) := by
  have k : Keeps o (setPause (advanceClocks (canopyCycle (settleWrites (settleQueues (settleTrigger (runPorts (runChannels (runFrames
      (drainOutputs s)))))))))) :=
    keeps_setPause (keeps_advanceClocks (keeps_canopyCycle (keeps_settleWrites (keeps_settleQueues (keeps_settleTrigger (keeps_runPorts
      (keeps_runChannels (keeps_runFrames (keeps_drainOutputs h)))))))))
  exact keeps_ite h (keeps_resumeFlushes (keeps_resumeReads (keeps_runReplies (keeps_ite k (keeps_beginCclk k)))))

end Sys2Proof.Laws
end

