-- ==== Sys2Proof/Laws/KeepsMeanings.lean ====
section
/-! SUPPORT. What each command's meaning keeps when it answers a next state: the commands waiting, which part it is, and the invariant. -/

namespace Sys2Proof.Laws

set_option Elab.async false

open Sys2Proof Sys2Proof.Machine Sys2Proof.Safety

/-- From `o`, an outcome that is a next state keeps. -/
structure KeepsO (o : State) (r : Host.Outcome State Fault Refusal) : Prop where
  out : ∀ t, r = .next t → Keeps o t

theorem keepsO_next {o t} (h : Keeps o t) : KeepsO o (.next t) := ⟨fun _ e => by cases e; exact h⟩

theorem keepsO_fault {o f} : KeepsO o (.fault f) := ⟨fun _ e => by cases e⟩

theorem keepsO_guard {o t b} (h : Keeps o t) : KeepsO o (guardUnit b t) := by
  unfold guardUnit
  split
  · exact keepsO_next h
  · exact keepsO_fault

theorem keeps_execPoisonSeenClear {o s : State} {q} (h : Keeps o s) : KeepsO o (execPoisonSeenClear q s) :=
  keepsO_guard (keeps_updQueue h)

theorem keeps_execCtrlRejectedClear {o s : State} {q} (h : Keeps o s) : KeepsO o (execCtrlRejectedClear q s) :=
  keepsO_guard (keeps_updQueue h)

theorem keeps_execOverrunClear {o s : State} {q} (h : Keeps o s) : KeepsO o (execOverrunClear q s) :=
  keepsO_guard (keeps_updQueue h)

theorem keeps_execSqDataToken {o s : State} {q} (h : Keeps o s) : KeepsO o (execSqDataToken q s) :=
  keepsO_guard (keeps_sqDataToken h)

theorem keeps_execSqControlWord {o s : State} {q} (h : Keeps o s) : KeepsO o (execSqControlWord q s) :=
  keepsO_guard (keeps_sqControlWord h)

theorem keeps_execSqReadDelivery {o s : State} {q parityOk} (h : Keeps o s) : KeepsO o (execSqReadDelivery q parityOk s) :=
  keepsO_guard (keeps_sqReadDelivery h)

theorem keeps_execArbSampleToken {o s : State} {first} (h : Keeps o s) : KeepsO o (execArbSampleToken first s) :=
  keepsO_guard (keeps_sampleToken h)

theorem keeps_execArbSampleStart {o s : State} {first} (h : Keeps o s) : KeepsO o (execArbSampleStart first s) :=
  keepsO_guard (keeps_sampleStart h)

theorem keeps_execLaneSlipGo {o s : State} {port lane offset} (h : Keeps o s) : KeepsO o (execLaneSlipGo port lane offset s) := by
  unfold execLaneSlipGo
  repeat' first | with_reducible apply keepsO_guard | with_reducible assumption | with_reducible apply keeps_slipGo

theorem keeps_execLaneSlipTestDone {o s : State} {port lane bits} (h : Keeps o s) : KeepsO o (execLaneSlipTestDone port lane bits s) := by
  unfold execLaneSlipTestDone
  repeat' first | with_reducible apply keepsO_guard | with_reducible assumption | with_reducible apply keeps_slipDone

theorem keeps_execAlignGroupReceive {o s : State} {port lane group rest} (h : Keeps o s) :
    KeepsO o (execAlignGroupReceive port lane group rest s) := by
  unfold execAlignGroupReceive
  repeat' first
    | with_reducible apply keepsO_guard
    | with_reducible assumption
    | intro _
    | with_reducible apply keeps_alignReceive
    | with_reducible apply keeps_missFrame
    | with_reducible apply keeps_ite_same
    | split

theorem keeps_execTxCountdownEnd {o s : State} {port lane} (h : Keeps o s) : KeepsO o (execTxCountdownEnd port lane s) :=
  keepsO_guard (keeps_countdownEnd h)

theorem keeps_execTxDeafTimeout {o s : State} {port} (h : Keeps o s) : KeepsO o (execTxDeafTimeout port s) :=
  keepsO_guard (keeps_deafTimeout h)

theorem keeps_execFomWindow {o s : State} {port lane fom} (h : Keeps o s) : KeepsO o (execFomWindow port lane fom s) :=
  keepsO_guard (keeps_fomWindow h)

theorem keeps_execLaneLost {o s : State} {port lane cause} (h : Keeps o s) : KeepsO o (execLaneLost port lane cause s) :=
  keepsO_guard (keeps_laneLost h)

theorem keeps_execPortDownFlush {o s : State} {port} (h : Keeps o s) : KeepsO o (execPortDownFlush port s) :=
  keepsO_guard (keeps_downFlush h)

theorem keeps_execDeepDrainDone {o s : State} {port} (h : Keeps o s) : KeepsO o (execDeepDrainDone port s) :=
  keepsO_guard (keeps_drainDone h)

theorem keeps_execDeepDrainTimeout {o s : State} {port} (h : Keeps o s) : KeepsO o (execDeepDrainTimeout port s) :=
  keepsO_guard (keeps_drainTimeout h)

theorem keeps_execActivityWake {o s : State} {port} (h : Keeps o s) : KeepsO o (execActivityWake port s) :=
  keepsO_guard (keeps_activityWake h)

theorem keeps_execFlitReceive {o s : State} {port lane slot groups parity next} (h : Keeps o s) :
    KeepsO o (execFlitReceive port lane slot groups parity next s) := by
  unfold execFlitReceive
  repeat' first | with_reducible apply keepsO_guard | with_reducible assumption | with_reducible apply keeps_flitReceive

theorem keeps_execNakRepeat {o s : State} {port} (h : Keeps o s) : KeepsO o (execNakRepeat port s) :=
  keepsO_guard (keeps_nakRepeat h)

theorem keeps_execRetryTimeout {o s : State} {port} (h : Keeps o s) : KeepsO o (execRetryTimeout port s) :=
  keepsO_guard (keeps_retryTimeout h)

theorem keeps_execReduceBlockEntry {o s : State} {channel} (h : Keeps o s) : KeepsO o (execReduceBlockEntry channel s) :=
  keepsO_guard (keeps_blockEntry h)

theorem keeps_execReducePass1Up {o s : State} {channel} (h : Keeps o s) : KeepsO o (execReducePass1Up channel s) :=
  keepsO_guard (keeps_pass1Up h)

theorem keeps_execReducePass2Up {o s : State} {channel} (h : Keeps o s) : KeepsO o (execReducePass2Up channel s) :=
  keepsO_guard (keeps_pass2Up h)

theorem keeps_execReducePass1Down {o s : State} {channel} (h : Keeps o s) : KeepsO o (execReducePass1Down channel s) :=
  keepsO_guard (keeps_pass1Down h)

theorem keeps_execReducePass2Down {o s : State} {channel} (h : Keeps o s) : KeepsO o (execReducePass2Down channel s) :=
  keepsO_guard (keeps_pass2Down h)

theorem keeps_execFaultStatusClear {o s : State} {part} (h : Keeps o s) : KeepsO o (execFaultStatusClear part s) :=
  keepsO_guard (keeps_clearFaultLog h)

theorem keeps_execSamplerEnable {o s : State} {part on} (h : Keeps o s) : KeepsO o (execSamplerEnable part on s) :=
  keepsO_guard (keeps_samplerEnable h)

theorem keeps_execSamplerSnapshot {o s : State} {part} (h : Keeps o s) : KeepsO o (execSamplerSnapshot part s) :=
  keepsO_guard (keeps_samplerSnapshot h)

theorem keeps_execDeadlockDetect {o s : State} {part} (h : Keeps o s) : KeepsO o (execDeadlockDetect part s) :=
  keepsO_guard (keeps_deadlockDetect h)

theorem keeps_execDeadlockReinject {o s : State} {col row dir} (h : Keeps o s) : KeepsO o (execDeadlockReinject col row dir s) :=
  keepsO_guard (keeps_deadlockReinject h)

theorem keeps_execDrainEmpty {o s : State} {part ctx} (h : Keeps o s) : KeepsO o (execDrainEmpty part ctx s) :=
  keepsO_guard (keeps_drainEmpty h)

theorem keeps_execDrainLimit {o s : State} {part ctx} (h : Keeps o s) : KeepsO o (execDrainLimit part ctx s) :=
  keepsO_guard (keeps_drainLimit h)

theorem keeps_execStepEnd {o s : State} {part} (h : Keeps o s) : KeepsO o (execStepEnd part s) :=
  keepsO_guard (keeps_stepEnd h)

theorem keeps_execSnapshotDrain {o s : State} {part} (h : Keeps o s) : KeepsO o (execSnapshotDrain part s) :=
  keepsO_guard (keeps_snapshotDrain h)

theorem keeps_execRefusedClear {o s : State} (h : Keeps o s) : KeepsO o (execRefusedClear s) := by
  unfold execRefusedClear
  repeat' first | with_reducible apply keepsO_next | with_reducible assumption | with_reducible apply keeps_clearRefused

theorem keeps_execPpsCfgEnable {o s : State} {on} (h : Keeps o s) : KeepsO o (execPpsCfgEnable on s) :=
  keepsO_next (keeps_setPps h)

theorem keeps_execSecondCarry {o s : State} (h : Keeps o s) : KeepsO o (execSecondCarry s) := by
  unfold execSecondCarry
  repeat' first
    | with_reducible apply keepsO_next
    | with_reducible assumption
    | intro _
    | with_reducible apply keeps_applyTick
    | with_reducible apply keeps_ite_same

theorem keeps_execPpsOutEnd {o s : State} (h : Keeps o s) : KeepsO o (execPpsOutEnd s) := by
  unfold execPpsOutEnd
  dsimp only
  repeat' first
    | with_reducible apply keepsO_next
    | with_reducible assumption
    | with_reducible exact id
    | intro _
    | with_reducible apply keeps_ite_same
    | split
    | with_reducible apply keeps_mk

theorem keeps_execPpsInEdge {o s : State} (h : Keeps o s) : KeepsO o (execPpsInEdge s) := by
  unfold execPpsInEdge
  dsimp only
  repeat' first
    | with_reducible apply keepsO_next
    | with_reducible assumption
    | with_reducible exact id
    | intro _
    | with_reducible apply keeps_ite_same
    | with_reducible apply keeps_mk

theorem keeps_execRefLost {o s : State} (h : Keeps o s) : KeepsO o (execRefLost s) := by
  unfold execRefLost
  dsimp only
  repeat' first
    | with_reducible apply keepsO_next
    | with_reducible assumption
    | with_reducible exact id
    | intro _
    | with_reducible apply keeps_ite_same
    | with_reducible apply keeps_mk

theorem keeps_execPllLock {o s : State} (h : Keeps o s) : KeepsO o (execPllLock s) := by
  unfold execPllLock
  dsimp only
  repeat' first
    | with_reducible apply keepsO_next
    | with_reducible assumption
    | with_reducible exact id
    | intro _
    | with_reducible apply keeps_ite_same
    | with_reducible apply keeps_mk

theorem keeps_execStreamFrameEnd {o s : State} {lane start header words finish since} (h : Keeps o s) :
    KeepsO o (execStreamFrameEnd lane start header words finish since s) := by
  unfold execStreamFrameEnd
  dsimp only
  repeat' first
    | with_reducible apply keepsO_guard
    | with_reducible assumption
    | with_reducible exact id
    | intro _
    | with_reducible apply keeps_setLane
    | with_reducible apply keeps_ite_same
    | split
    | with_reducible apply keeps_mk

theorem keeps_execStreamDelivery {o s : State} {endpoint} (h : Keeps o s) : KeepsO o (execStreamDelivery endpoint s) :=
  keepsO_guard (keeps_streamDelivery h)

theorem keeps_execTrigScoreToken {o s : State} {channel} (h : Keeps o s) : KeepsO o (execTrigScoreToken channel s) :=
  keepsO_guard (keeps_scoreToken h)

theorem keeps_execTrigInChange {o s : State} {pin level since} (h : Keeps o s) : KeepsO o (execTrigInChange pin level since s) :=
  keepsO_guard (keeps_trigInChange h)

theorem keeps_execTrigOutputDecide {o s : State} {out} (h : Keeps o s) : KeepsO o (execTrigOutputDecide out s) :=
  keepsO_guard (keeps_outputDecide h)

theorem keeps_execTrigOutPulseEnd {o s : State} {out} (h : Keeps o s) : KeepsO o (execTrigOutPulseEnd out s) :=
  keepsO_guard (keeps_pulseEnd h)

theorem keeps_execCaptureFreeze {o s : State} {out} (h : Keeps o s) : KeepsO o (execCaptureFreeze out s) :=
  keepsO_guard (keeps_captureFreeze h)

theorem keeps_execStreamLaneBlockLock {o s : State} {lane headers} (h : Keeps o s) : KeepsO o (execStreamLaneBlockLock lane headers s) := by
  unfold execStreamLaneBlockLock
  repeat' first
    | with_reducible apply keepsO_guard
    | with_reducible assumption
    | intro _
    | with_reducible apply keeps_setLane
    | with_reducible apply keeps_ite_same

theorem keeps_execSqCellToRegion {o s : State} {q} (h : Keeps o s) : KeepsO o (execSqCellToRegion q s) :=
  keepsO_guard (keeps_resumeFlushes (keeps_cellToRegion h))

theorem keeps_execSqCellToHead {o s : State} {q} (h : Keeps o s) : KeepsO o (execSqCellToHead q s) := by
  unfold execSqCellToHead
  repeat' first
    | with_reducible apply keepsO_guard
    | with_reducible assumption
    | with_reducible apply keeps_resumeReads
    | with_reducible apply keeps_cellToHead

theorem keeps_execExtractSampleComplete {o s : State} {mac bytes ended since} (h : Keeps o s) :
    KeepsO o (execExtractSampleComplete mac bytes ended since s) := by
  unfold execExtractSampleComplete
  repeat' first
    | with_reducible apply keepsO_guard
    | with_reducible assumption
    | intro _
    | with_reducible apply keeps_extractComplete
    | with_reducible apply keeps_ite_same

theorem keeps_execGateListTakesForce {o s : State} {mac} (h : Keeps o s) : KeepsO o (execGateListTakesForce mac s) :=
  keepsO_guard (keeps_gateTakesForce h)

theorem keeps_execGateEntryAdvance {o s : State} {mac} (h : Keeps o s) : KeepsO o (execGateEntryAdvance mac s) :=
  keepsO_guard (keeps_gateAdvance h)

theorem keeps_execArbResult {o s : State} {first} (h : Keeps o s) : KeepsO o (execArbResult first s) :=
  keepsO_guard (keeps_settleResults (keeps_arbResult h))

theorem keeps_execMacLinkChange {o s : State} {mac up} (h : Keeps o s) : KeepsO o (execMacLinkChange mac up s) :=
  keepsO_guard (keeps_linkChange h)

theorem keeps_execMacRxVerdict {o s : State} {mac bytes codeError since} (h : Keeps o s) :
    KeepsO o (execMacRxVerdict mac bytes codeError since s) := by
  unfold execMacRxVerdict
  repeat' first
    | with_reducible apply keepsO_guard
    | with_reducible assumption
    | intro _
    | with_reducible apply keeps_rxVerdict
    | with_reducible apply keeps_ite_same

theorem keeps_execReplyReady {o s : State} {mac} (h : Keeps o s) : KeepsO o (execReplyReady mac s) :=
  keepsO_guard (keeps_replyReady h)

theorem keeps_execReplyStart {o s : State} {mac} (h : Keeps o s) : KeepsO o (execReplyStart mac s) :=
  keepsO_guard (keeps_replyStart h)

theorem keeps_execReplyFcsHandover {o s : State} {mac} (h : Keeps o s) : KeepsO o (execReplyFcsHandover mac s) :=
  keepsO_guard (keeps_replyHandover h)

theorem keeps_execTxItemReady {o s : State} {mac cls} (h : Keeps o s) : KeepsO o (execTxItemReady mac cls s) := by
  unfold execTxItemReady
  repeat' first
    | with_reducible apply keepsO_guard
    | with_reducible assumption
    | intro _
    | with_reducible apply keeps_itemReady
    | with_reducible apply keeps_ite_same

theorem keeps_execTxFrameStart {o s : State} {mac} (h : Keeps o s) : KeepsO o (execTxFrameStart mac s) := by
  unfold execTxFrameStart
  repeat' first
    | with_reducible apply keepsO_guard
    | with_reducible assumption
    | intro _
    | with_reducible apply keeps_frameStart
    | with_reducible apply keeps_ite_same

theorem keeps_execRingRecordWrite {o s : State} (h : Keeps o s) : KeepsO o (execRingRecordWrite s) :=
  keepsO_next (keeps_recordWrite h)

theorem keeps_execGovernorSample {o s : State} {rails maxC} (h : Keeps o s) : KeepsO o (execGovernorSample rails maxC s) :=
  keepsO_next (keeps_governorSample h)

theorem keeps_execEmergencyStopEnd {o s : State} (h : Keeps o s) : KeepsO o (execEmergencyStopEnd s) :=
  keepsO_next (keeps_emergencyStopEnd h)

theorem keeps_execVcoreWarning {o s : State} {mv} (h : Keeps o s) : KeepsO o (execVcoreWarning mv s) :=
  keepsO_next (keeps_vcoreWarning h)

theorem keeps_execPauseEnd {o s : State} {mv} (h : Keeps o s) : KeepsO o (execPauseEnd mv s) :=
  keepsO_next (keeps_warningEnd h)

theorem keeps_execThermalTrip {o s : State} {maxC} (h : Keeps o s) : KeepsO o (execThermalTrip maxC s) :=
  keepsO_next (keeps_thermalTrip h)

theorem keeps_execAgeingMeasure {o s : State} {periods} (h : Keeps o s) : KeepsO o (execAgeingMeasure periods s) :=
  keepsO_next (keeps_ageingMeasure h)

theorem keeps_execAutoReplan {o s : State} (h : Keeps o s) : KeepsO o (execAutoReplan s) :=
  keepsO_next (keeps_autoReplan h)

theorem keeps_execAvsAck {o s : State} (h : Keeps o s) : KeepsO o (execAvsAck s) :=
  keepsO_next (keeps_avsAck h)

theorem keeps_execAvsRetry {o s : State} (h : Keeps o s) : KeepsO o (execAvsRetry s) :=
  keepsO_next (keeps_avsRetry h)

theorem keeps_execScrubEnable {o s : State} {on} (h : Keeps o s) : KeepsO o (execScrubEnable on s) := by
  unfold execScrubEnable
  dsimp only
  repeat' first | with_reducible apply keepsO_next | with_reducible assumption | with_reducible exact id | with_reducible apply keeps_mk

theorem keeps_execRefresh {o s : State} {vault bank die row} (h : Keeps o s) : KeepsO o (execRefresh vault bank die row s) :=
  keepsO_guard (keeps_refreshRow h)

theorem keeps_execScrubVisit {o s : State} (h : Keeps o s) : KeepsO o (execScrubVisit s) :=
  keepsO_next (keeps_scrubVisit h)

theorem keeps_execRowRepairCopy {o s : State} (h : Keeps o s) : KeepsO o (execRowRepairCopy s) :=
  keepsO_next (keeps_rowRepairCopy h)

theorem keeps_execSupplyReset {o s : State} {rail mv} (h : Keeps o s) : KeepsO o (execSupplyReset rail mv s) :=
  keepsO_guard (keeps_supplyReset h)

theorem keeps_execSupplyResetHoldEnd {o s : State} (h : Keeps o s) : KeepsO o (execSupplyResetHoldEnd s) :=
  keepsO_next (keeps_holdEnd h)

theorem keeps_execResetNAssert {o s : State} (h : Keeps o s) : KeepsO o (execResetNAssert s) :=
  keepsO_next (keeps_resetAssert h)

theorem keeps_execResetTakesEffect {o s : State} (h : Keeps o s) : KeepsO o (execResetTakesEffect s) :=
  keepsO_next (keeps_resetEffect h)

theorem keeps_execResetNRelease {o s : State} {sel addr pwrGood} (h : Keeps o s) : KeepsO o (execResetNRelease sel addr pwrGood s) :=
  keepsO_next (keeps_resetRelease h)

theorem keeps_execPwrGoodLow {o s : State} (h : Keeps o s) : KeepsO o (execPwrGoodLow s) :=
  keepsO_next (keeps_pwrGoodLow h)

theorem keeps_execPage {o s : State} {write pecOk} (h : Keeps o s) : KeepsO o (execPage write pecOk s) := by
  unfold execPage
  repeat' first
    | with_reducible apply keepsO_next
    | with_reducible assumption
    | with_reducible apply keeps_pmbus
    | with_reducible apply keeps_pmbusPage

theorem keeps_execClearFaults {o s : State} {pecOk} (h : Keeps o s) : KeepsO o (execClearFaults pecOk s) := by
  unfold execClearFaults
  repeat' first
    | with_reducible apply keepsO_next
    | with_reducible assumption
    | with_reducible apply keeps_pmbus
    | with_reducible apply keeps_pmbusClear

theorem keeps_execVoutMode {o s : State} (h : Keeps o s) : KeepsO o (execVoutMode s) := by
  unfold execVoutMode
  repeat' first
    | with_reducible apply keepsO_next
    | with_reducible assumption
    | with_reducible apply keeps_pmbus
    | with_reducible apply keeps_pmbusEnd

theorem keeps_execStatusWord {o s : State} (h : Keeps o s) : KeepsO o (execStatusWord s) := by
  unfold execStatusWord
  repeat' first
    | with_reducible apply keepsO_next
    | with_reducible assumption
    | with_reducible apply keeps_pmbus
    | with_reducible apply keeps_pmbusEnd

theorem keeps_execReadVout {o s : State} (h : Keeps o s) : KeepsO o (execReadVout s) := by
  unfold execReadVout
  repeat' first
    | with_reducible apply keepsO_next
    | with_reducible assumption
    | with_reducible apply keeps_pmbus
    | with_reducible apply keeps_readWordFree

theorem keeps_execReadIout {o s : State} (h : Keeps o s) : KeepsO o (execReadIout s) := by
  unfold execReadIout
  repeat' first
    | with_reducible apply keepsO_next
    | with_reducible assumption
    | with_reducible apply keeps_pmbus
    | with_reducible apply keeps_readWordFree

theorem keeps_execReadTemperature1 {o s : State} (h : Keeps o s) : KeepsO o (execReadTemperature1 s) := by
  unfold execReadTemperature1
  repeat' first
    | with_reducible apply keepsO_next
    | with_reducible assumption
    | with_reducible apply keeps_pmbus
    | with_reducible apply keeps_readWordFree

theorem keeps_execReadPout {o s : State} (h : Keeps o s) : KeepsO o (execReadPout s) := by
  unfold execReadPout
  repeat' first
    | with_reducible apply keepsO_next
    | with_reducible assumption
    | with_reducible apply keeps_pmbus
    | with_reducible apply keeps_readWordFree

theorem keeps_execPmbusRevision {o s : State} (h : Keeps o s) : KeepsO o (execPmbusRevision s) := by
  unfold execPmbusRevision
  repeat' first
    | with_reducible apply keepsO_next
    | with_reducible assumption
    | with_reducible apply keeps_pmbus
    | with_reducible apply keeps_pmbusEnd

theorem keeps_execIdcode {o s : State} (h : Keeps o s) : KeepsO o (execIdcode s) :=
  keepsO_next (keeps_jtagIdcode h)

theorem keeps_execSamplePreload {o s : State} {pins preload} (h : Keeps o s) : KeepsO o (execSamplePreload pins preload s) :=
  keepsO_next (keeps_jtagSample h)

theorem keeps_execExtest {o s : State} {scan} (h : Keeps o s) : KeepsO o (execExtest scan s) :=
  keepsO_next (keeps_jtagExtest h)

theorem keeps_execBypass {o s : State} {code} (h : Keeps o s) : KeepsO o (execBypass code s) :=
  keepsO_next (keeps_jtagBypass h)

theorem keeps_execTestLogicReset {o s : State} (h : Keeps o s) : KeepsO o (execTestLogicReset s) :=
  keepsO_next (keeps_jtagIdcode h)

theorem keeps_execPmbusOtherCommand {o s : State} {code write} (h : Keeps o s) : KeepsO o (execPmbusOtherCommand code write s) := by
  unfold execPmbusOtherCommand
  repeat' first
    | with_reducible apply keepsO_next
    | with_reducible assumption
    | with_reducible apply keeps_pmbus
    | with_reducible apply keeps_pmbusOther

theorem keeps_execNop {o s : State} {p} (h : Keeps o s) : KeepsO o (execNop p s) :=
  keepsO_next (keeps_arrive h)

theorem keeps_execIdentify {o s : State} {p} (h : Keeps o s) : KeepsO o (execIdentify p s) :=
  keepsO_next (keeps_arrive h)

theorem keeps_execGetStatus {o s : State} {p} (h : Keeps o s) : KeepsO o (execGetStatus p s) :=
  keepsO_next (keeps_arrive h)

theorem keeps_execOpenSession {o s : State} {p} (h : Keeps o s) : KeepsO o (execOpenSession p s) :=
  keepsO_next (keeps_arrive h)

theorem keeps_execCloseSession {o s : State} {p} (h : Keeps o s) : KeepsO o (execCloseSession p s) :=
  keepsO_next (keeps_arrive h)

theorem keeps_execResetDomain {o s : State} {p} (h : Keeps o s) : KeepsO o (execResetDomain p s) :=
  keepsO_next (keeps_arrive h)

theorem keeps_execReadCsr {o s : State} {p} (h : Keeps o s) : KeepsO o (execReadCsr p s) :=
  keepsO_next (keeps_arrive h)

theorem keeps_execWriteCsr {o s : State} {p} (h : Keeps o s) : KeepsO o (execWriteCsr p s) :=
  keepsO_next (keeps_arrive h)

theorem keeps_execSelectProfile {o s : State} {p} (h : Keeps o s) : KeepsO o (execSelectProfile p s) :=
  keepsO_next (keeps_arrive h)

theorem keeps_execReadProfile {o s : State} {p} (h : Keeps o s) : KeepsO o (execReadProfile p s) :=
  keepsO_next (keeps_arrive h)

theorem keeps_execWriteProfile {o s : State} {p} (h : Keeps o s) : KeepsO o (execWriteProfile p s) :=
  keepsO_next (keeps_arrive h)

theorem keeps_execLoadImage {o s : State} {p} (h : Keeps o s) : KeepsO o (execLoadImage p s) :=
  keepsO_next (keeps_arrive h)

theorem keeps_execUnloadContext {o s : State} {p} (h : Keeps o s) : KeepsO o (execUnloadContext p s) :=
  keepsO_next (keeps_arrive h)

theorem keeps_execStart {o s : State} {p} (h : Keeps o s) : KeepsO o (execStart p s) :=
  keepsO_next (keeps_arrive h)

theorem keeps_execStop {o s : State} {p} (h : Keeps o s) : KeepsO o (execStop p s) :=
  keepsO_next (keeps_arrive h)

theorem keeps_execAbort {o s : State} {p} (h : Keeps o s) : KeepsO o (execAbort p s) :=
  keepsO_next (keeps_arrive h)

theorem keeps_execStep {o s : State} {p} (h : Keeps o s) : KeepsO o (execStep p s) :=
  keepsO_next (keeps_arrive h)

theorem keeps_execDrain {o s : State} {p} (h : Keeps o s) : KeepsO o (execDrain p s) :=
  keepsO_next (keeps_arrive h)

theorem keeps_execMemRead {o s : State} {p} (h : Keeps o s) : KeepsO o (execMemRead p s) :=
  keepsO_next (keeps_arrive h)

theorem keeps_execMemWrite {o s : State} {p} (h : Keeps o s) : KeepsO o (execMemWrite p s) :=
  keepsO_next (keeps_arrive h)

theorem keeps_execMemFill {o s : State} {p} (h : Keeps o s) : KeepsO o (execMemFill p s) :=
  keepsO_next (keeps_arrive h)

theorem keeps_execScrub {o s : State} {p} (h : Keeps o s) : KeepsO o (execScrub p s) :=
  keepsO_next (keeps_arrive h)

theorem keeps_execSqConfig {o s : State} {p} (h : Keeps o s) : KeepsO o (execSqConfig p s) :=
  keepsO_next (keeps_arrive h)

theorem keeps_execSqWrite {o s : State} {p} (h : Keeps o s) : KeepsO o (execSqWrite p s) :=
  keepsO_next (keeps_arrive h)

theorem keeps_execSqRead {o s : State} {p} (h : Keeps o s) : KeepsO o (execSqRead p s) :=
  keepsO_next (keeps_arrive h)

theorem keeps_execSqMark {o s : State} {p} (h : Keeps o s) : KeepsO o (execSqMark p s) :=
  keepsO_next (keeps_arrive h)

theorem keeps_execSqRewind {o s : State} {p} (h : Keeps o s) : KeepsO o (execSqRewind p s) :=
  keepsO_next (keeps_arrive h)

theorem keeps_execSqRelease {o s : State} {p} (h : Keeps o s) : KeepsO o (execSqRelease p s) :=
  keepsO_next (keeps_arrive h)

theorem keeps_execSqFlush {o s : State} {p} (h : Keeps o s) : KeepsO o (execSqFlush p s) :=
  keepsO_next (keeps_arrive h)

theorem keeps_execSqReset {o s : State} {p} (h : Keeps o s) : KeepsO o (execSqReset p s) :=
  keepsO_next (keeps_arrive h)

theorem keeps_execArbLoad {o s : State} {p} (h : Keeps o s) : KeepsO o (execArbLoad p s) :=
  keepsO_next (keeps_arrive h)

theorem keeps_execArbRead {o s : State} {p} (h : Keeps o s) : KeepsO o (execArbRead p s) :=
  keepsO_next (keeps_arrive h)

theorem keeps_execArbVerify {o s : State} {p} (h : Keeps o s) : KeepsO o (execArbVerify p s) :=
  keepsO_next (keeps_arrive h)

theorem keeps_execArbTcamLoad {o s : State} {p} (h : Keeps o s) : KeepsO o (execArbTcamLoad p s) :=
  keepsO_next (keeps_arrive h)

theorem keeps_execArbEnsemble {o s : State} {p} (h : Keeps o s) : KeepsO o (execArbEnsemble p s) :=
  keepsO_next (keeps_arrive h)

theorem keeps_execArbMode {o s : State} {p} (h : Keeps o s) : KeepsO o (execArbMode p s) :=
  keepsO_next (keeps_arrive h)

theorem keeps_execArbEval {o s : State} {p} (h : Keeps o s) : KeepsO o (execArbEval p s) :=
  keepsO_next (keeps_arrive h)

theorem keeps_execStreamConfig {o s : State} {p} (h : Keeps o s) : KeepsO o (execStreamConfig p s) :=
  keepsO_next (keeps_arrive h)

theorem keeps_execTrigArm {o s : State} {p} (h : Keeps o s) : KeepsO o (execTrigArm p s) :=
  keepsO_next (keeps_arrive h)

theorem keeps_execTrigDisarm {o s : State} {p} (h : Keeps o s) : KeepsO o (execTrigDisarm p s) :=
  keepsO_next (keeps_arrive h)

theorem keeps_execTrigRearm {o s : State} {p} (h : Keeps o s) : KeepsO o (execTrigRearm p s) :=
  keepsO_next (keeps_arrive h)

theorem keeps_execMacConfig {o s : State} {p} (h : Keeps o s) : KeepsO o (execMacConfig p s) :=
  keepsO_next (keeps_arrive h)

theorem keeps_execMacFilter {o s : State} {p} (h : Keeps o s) : KeepsO o (execMacFilter p s) :=
  keepsO_next (keeps_arrive h)

theorem keeps_execGateListLoad {o s : State} {p} (h : Keeps o s) : KeepsO o (execGateListLoad p s) :=
  keepsO_next (keeps_arrive h)

theorem keeps_execExtractConfig {o s : State} {p} (h : Keeps o s) : KeepsO o (execExtractConfig p s) :=
  keepsO_next (keeps_arrive h)

theorem keeps_execTemplateLoad {o s : State} {p} (h : Keeps o s) : KeepsO o (execTemplateLoad p s) :=
  keepsO_next (keeps_arrive h)

theorem keeps_execReplyConfig {o s : State} {p} (h : Keeps o s) : KeepsO o (execReplyConfig p s) :=
  keepsO_next (keeps_arrive h)

theorem keeps_execCountersRead {o s : State} {p} (h : Keeps o s) : KeepsO o (execCountersRead p s) :=
  keepsO_next (keeps_arrive h)

theorem keeps_execFportPower {o s : State} {p} (h : Keeps o s) : KeepsO o (execFportPower p s) :=
  keepsO_next (keeps_arrive h)

theorem keeps_execLaneControl {o s : State} {p} (h : Keeps o s) : KeepsO o (execLaneControl p s) :=
  keepsO_next (keeps_arrive h)

theorem keeps_execFabricConfig {o s : State} {p} (h : Keeps o s) : KeepsO o (execFabricConfig p s) :=
  keepsO_next (keeps_arrive h)

theorem keeps_execReduceGroup {o s : State} {p} (h : Keeps o s) : KeepsO o (execReduceGroup p s) :=
  keepsO_next (keeps_arrive h)

theorem keeps_execTimeRead {o s : State} {p} (h : Keeps o s) : KeepsO o (execTimeRead p s) :=
  keepsO_next (keeps_arrive h)

theorem keeps_execTimeSet {o s : State} {p} (h : Keeps o s) : KeepsO o (execTimeSet p s) :=
  keepsO_next (keeps_arrive h)

theorem keeps_execTimeStep {o s : State} {p} (h : Keeps o s) : KeepsO o (execTimeStep p s) :=
  keepsO_next (keeps_arrive h)

theorem keeps_execTimeAdjFreq {o s : State} {p} (h : Keeps o s) : KeepsO o (execTimeAdjFreq p s) :=
  keepsO_next (keeps_arrive h)

theorem keeps_execTimeInvalidate {o s : State} {p} (h : Keeps o s) : KeepsO o (execTimeInvalidate p s) :=
  keepsO_next (keeps_arrive h)

theorem keeps_execTimeSource {o s : State} {p} (h : Keeps o s) : KeepsO o (execTimeSource p s) :=
  keepsO_next (keeps_arrive h)

theorem keeps_execPtpPortConfig {o s : State} {p} (h : Keeps o s) : KeepsO o (execPtpPortConfig p s) :=
  keepsO_next (keeps_arrive h)

theorem keeps_execPpsConfig {o s : State} {p} (h : Keeps o s) : KeepsO o (execPpsConfig p s) :=
  keepsO_next (keeps_arrive h)

theorem keeps_execPowerStop {o s : State} {p} (h : Keeps o s) : KeepsO o (execPowerStop p s) :=
  keepsO_next (keeps_arrive h)

theorem keeps_execMarginReplan {o s : State} {p} (h : Keeps o s) : KeepsO o (execMarginReplan p s) :=
  keepsO_next (keeps_arrive h)

theorem keeps_execHealthTest {o s : State} {p} (h : Keeps o s) : KeepsO o (execHealthTest p s) :=
  keepsO_next (keeps_arrive h)

theorem keeps_execColumnFail {o s : State} {p} (h : Keeps o s) : KeepsO o (execColumnFail p s) :=
  keepsO_next (keeps_arrive h)

theorem keeps_execAttest {o s : State} {p} (h : Keeps o s) : KeepsO o (execAttest p s) :=
  keepsO_next (keeps_arrive h)

theorem keeps_execGetCert {o s : State} {p} (h : Keeps o s) : KeepsO o (execGetCert p s) :=
  keepsO_next (keeps_arrive h)

theorem keeps_execFwUpdate {o s : State} {p} (h : Keeps o s) : KeepsO o (execFwUpdate p s) :=
  keepsO_next (keeps_arrive h)

theorem keeps_execFwRecover {o s : State} {p} (h : Keeps o s) : KeepsO o (execFwRecover p s) :=
  keepsO_next (keeps_arrive h)

theorem keeps_execSafeModelStore {o s : State} {p} (h : Keeps o s) : KeepsO o (execSafeModelStore p s) :=
  keepsO_next (keeps_arrive h)

theorem keeps_execRingStart {o s : State} {p} (h : Keeps o s) : KeepsO o (execRingStart p s) :=
  keepsO_next (keeps_arrive h)

theorem keeps_execRingStop {o s : State} {p} (h : Keeps o s) : KeepsO o (execRingStop p s) :=
  keepsO_next (keeps_arrive h)

theorem keeps_execRingRead {o s : State} {p} (h : Keeps o s) : KeepsO o (execRingRead p s) :=
  keepsO_next (keeps_arrive h)

theorem keeps_execRingSealRead {o s : State} {p} (h : Keeps o s) : KeepsO o (execRingSealRead p s) :=
  keepsO_next (keeps_arrive h)

theorem keeps_execFoldRead {o s : State} {p} (h : Keeps o s) : KeepsO o (execFoldRead p s) :=
  keepsO_next (keeps_arrive h)

theorem keeps_execCmdMalformed {o s : State} {body} (h : Keeps o s) : KeepsO o (execCmdMalformed body s) := by
  unfold execCmdMalformed
  repeat' first
    | with_reducible apply keepsO_next
    | with_reducible assumption
    | intro _
    | with_reducible apply keeps_countMalformed
    | with_reducible apply keeps_ite_same

theorem keeps_execUnknownOpcode {o s : State} {opcode p} (h : Keeps o s) : KeepsO o (execUnknownOpcode opcode p s) := by
  unfold execUnknownOpcode
  repeat' first
    | with_reducible apply keepsO_next
    | with_reducible assumption
    | intro _
    | with_reducible apply keeps_arriveCode
    | with_reducible apply keeps_ite_same

theorem keeps_execUartFrame {o s : State} {bytes} (h : Keeps o s) : KeepsO o (execUartFrame bytes s) :=
  keepsO_next (keeps_uartFrame h)

theorem keeps_execTerminalReply {o s : State} {id0} (h : Keeps o s) : KeepsO o (execTerminalReply id0 s) :=
  keepsO_next (keeps_terminalReply h)

theorem keeps_execLongOperationStep {o s : State} {id0 found} (h : Keeps o s) : KeepsO o (execLongOperationStep id0 found s) :=
  keepsO_next (keeps_longStep h)

theorem keeps_execCanopyCommandApply {o s : State} {id0} (h : Keeps o s) : KeepsO o (execCanopyCommandApply id0 s) :=
  keepsO_next (keeps_canopyApply h)

theorem keeps_execPartitionQuiescent {o s : State} {part} (h : Keeps o s) : KeepsO o (execPartitionQuiescent part s) :=
  keepsO_guard (keeps_partitionQuiescent h)

theorem keeps_execFabricPacket {o s : State} {port vc} (h : Keeps o s) : KeepsO o (execFabricPacket port vc s) :=
  keepsO_guard (keeps_fabricPacket h)

theorem keeps_execGraftApply {o s : State} {copy} (h : Keeps o s) : KeepsO o (execGraftApply copy s) := by
  unfold execGraftApply
  repeat' first | with_reducible apply keepsO_guard | with_reducible assumption | with_reducible apply keeps_bayApply

theorem keeps_execBayRetire {o s : State} {bay} (h : Keeps o s) : KeepsO o (execBayRetire bay s) := by
  unfold execBayRetire
  repeat' first | with_reducible apply keepsO_guard | with_reducible assumption | with_reducible apply keeps_bayApply

theorem keeps_execBootStep {o s : State} {report} (h : Keeps o s) : KeepsO o (execBootStep report s) :=
  keepsO_next (keeps_serveWaiting (keeps_bootStep h))

theorem keeps_execBootReady {o s : State} (h : Keeps o s) : KeepsO o (execBootReady s) :=
  keepsO_next (keeps_serveWaiting (keeps_bootReady h))

theorem keeps_execWaitConditionMet {o s : State} {col row} (h : Keeps o s) : KeepsO o (execWaitConditionMet col row s) := by
  unfold execWaitConditionMet
  repeat' first
    | with_reducible apply keepsO_guard
    | with_reducible assumption
    | with_reducible apply keeps_unlessPaused
    | with_reducible apply keeps_waitMet

theorem keeps_execWaitBoundExpiry {o s : State} {col row} (h : Keeps o s) : KeepsO o (execWaitBoundExpiry col row s) := by
  unfold execWaitBoundExpiry
  repeat' first
    | with_reducible apply keepsO_guard
    | with_reducible assumption
    | with_reducible apply keeps_unlessPaused
    | with_reducible apply keeps_waitExpiry

theorem keeps_execDotBlock {o s : State} {col row} (h : Keeps o s) : KeepsO o (execDotBlock col row s) := by
  unfold execDotBlock
  repeat' first
    | with_reducible apply keepsO_guard
    | with_reducible assumption
    | with_reducible apply keeps_unlessPaused
    | with_reducible apply keeps_dotBlock

theorem keeps_execLateResult {o s : State} {col row} (h : Keeps o s) : KeepsO o (execLateResult col row s) := by
  unfold execLateResult
  repeat' first
    | with_reducible apply keepsO_guard
    | with_reducible assumption
    | with_reducible apply keeps_unlessPaused
    | with_reducible apply keeps_lateResult

theorem keeps_execTokenArrival {o s : State} {col row dir parityOk} (h : Keeps o s) :
    KeepsO o (execTokenArrival col row dir parityOk s) := by
  unfold execTokenArrival
  repeat' first
    | with_reducible apply keepsO_guard
    | with_reducible assumption
    | with_reducible apply keeps_unlessPaused
    | with_reducible apply keeps_tokenArrival

theorem keeps_execPassTokenDepart {o s : State} {col row dir ctx} (h : Keeps o s) : KeepsO o (execPassTokenDepart col row dir ctx s) := by
  unfold execPassTokenDepart
  repeat' first
    | with_reducible apply keepsO_guard
    | with_reducible assumption
    | with_reducible apply keeps_unlessPaused
    | with_reducible apply keeps_passDepart

theorem keeps_execCreditReturn {o s : State} {col row dir} (h : Keeps o s) : KeepsO o (execCreditReturn col row dir s) := by
  unfold execCreditReturn
  repeat' first
    | with_reducible apply keepsO_guard
    | with_reducible assumption
    | with_reducible apply keeps_unlessPaused
    | with_reducible apply keeps_creditReturn

theorem keeps_execVaultService {o s : State} {col row} (h : Keeps o s) : KeepsO o (execVaultService col row s) := by
  unfold execVaultService
  repeat' first
    | with_reducible apply keepsO_guard
    | with_reducible assumption
    | with_reducible apply keeps_unlessPaused
    | with_reducible apply keeps_vaultService

theorem keeps_execVaultLoadReturn {o s : State} {col row} (h : Keeps o s) : KeepsO o (execVaultLoadReturn col row s) := by
  unfold execVaultLoadReturn
  repeat' first
    | with_reducible apply keepsO_guard
    | with_reducible assumption
    | with_reducible apply keeps_unlessPaused
    | with_reducible apply keeps_vaultLoadReturn

theorem keeps_execNopInstr {o s : State} {col row} (h : Keeps o s) : KeepsO o (execNopInstr col row s) :=
  keepsO_guard (keeps_issueTile h)

theorem keeps_execSwitch {o s : State} {col row} (h : Keeps o s) : KeepsO o (execSwitch col row s) :=
  keepsO_guard (keeps_issueTile h)

theorem keeps_execWait {o s : State} {col row} (h : Keeps o s) : KeepsO o (execWait col row s) :=
  keepsO_guard (keeps_issueTile h)

theorem keeps_execLoop {o s : State} {col row} (h : Keeps o s) : KeepsO o (execLoop col row s) :=
  keepsO_guard (keeps_issueTile h)

theorem keeps_execFoldCut {o s : State} {col row} (h : Keeps o s) : KeepsO o (execFoldCut col row s) :=
  keepsO_guard (keeps_issueTile h)

theorem keeps_execSeqset {o s : State} {col row} (h : Keeps o s) : KeepsO o (execSeqset col row s) :=
  keepsO_guard (keeps_issueTile h)

theorem keeps_execVadd {o s : State} {col row} (h : Keeps o s) : KeepsO o (execVadd col row s) :=
  keepsO_guard (keeps_issueTile h)

theorem keeps_execVsub {o s : State} {col row} (h : Keeps o s) : KeepsO o (execVsub col row s) :=
  keepsO_guard (keeps_issueTile h)

theorem keeps_execVmul {o s : State} {col row} (h : Keeps o s) : KeepsO o (execVmul col row s) :=
  keepsO_guard (keeps_issueTile h)

theorem keeps_execVfma {o s : State} {col row} (h : Keeps o s) : KeepsO o (execVfma col row s) :=
  keepsO_guard (keeps_issueTile h)

theorem keeps_execVmin {o s : State} {col row} (h : Keeps o s) : KeepsO o (execVmin col row s) :=
  keepsO_guard (keeps_issueTile h)

theorem keeps_execVmax {o s : State} {col row} (h : Keeps o s) : KeepsO o (execVmax col row s) :=
  keepsO_guard (keeps_issueTile h)

theorem keeps_execVfn {o s : State} {col row} (h : Keeps o s) : KeepsO o (execVfn col row s) :=
  keepsO_guard (keeps_issueTile h)

theorem keeps_execVcvt {o s : State} {col row} (h : Keeps o s) : KeepsO o (execVcvt col row s) :=
  keepsO_guard (keeps_issueTile h)

theorem keeps_execIadd {o s : State} {col row} (h : Keeps o s) : KeepsO o (execIadd col row s) :=
  keepsO_guard (keeps_issueTile h)

theorem keeps_execIsub {o s : State} {col row} (h : Keeps o s) : KeepsO o (execIsub col row s) :=
  keepsO_guard (keeps_issueTile h)

theorem keeps_execAnd {o s : State} {col row} (h : Keeps o s) : KeepsO o (execAnd col row s) :=
  keepsO_guard (keeps_issueTile h)

theorem keeps_execOr {o s : State} {col row} (h : Keeps o s) : KeepsO o (execOr col row s) :=
  keepsO_guard (keeps_issueTile h)

theorem keeps_execXor {o s : State} {col row} (h : Keeps o s) : KeepsO o (execXor col row s) :=
  keepsO_guard (keeps_issueTile h)

theorem keeps_execShl {o s : State} {col row} (h : Keeps o s) : KeepsO o (execShl col row s) :=
  keepsO_guard (keeps_issueTile h)

theorem keeps_execShr {o s : State} {col row} (h : Keeps o s) : KeepsO o (execShr col row s) :=
  keepsO_guard (keeps_issueTile h)

theorem keeps_execSar {o s : State} {col row} (h : Keeps o s) : KeepsO o (execSar col row s) :=
  keepsO_guard (keeps_issueTile h)

theorem keeps_execFcmp {o s : State} {col row} (h : Keeps o s) : KeepsO o (execFcmp col row s) :=
  keepsO_guard (keeps_issueTile h)

theorem keeps_execIcmp {o s : State} {col row} (h : Keeps o s) : KeepsO o (execIcmp col row s) :=
  keepsO_guard (keeps_issueTile h)

theorem keeps_execSelect {o s : State} {col row} (h : Keeps o s) : KeepsO o (execSelect col row s) :=
  keepsO_guard (keeps_issueTile h)

theorem keeps_execMov {o s : State} {col row} (h : Keeps o s) : KeepsO o (execMov col row s) :=
  keepsO_guard (keeps_issueTile h)

theorem keeps_execSend {o s : State} {col row} (h : Keeps o s) : KeepsO o (execSend col row s) :=
  keepsO_guard (keeps_issueTile h)

theorem keeps_execLdv {o s : State} {col row} (h : Keeps o s) : KeepsO o (execLdv col row s) :=
  keepsO_guard (keeps_issueTile h)

theorem keeps_execStv {o s : State} {col row} (h : Keeps o s) : KeepsO o (execStv col row s) :=
  keepsO_guard (keeps_issueTile h)

theorem keeps_execDot {o s : State} {col row} (h : Keeps o s) : KeepsO o (execDot col row s) :=
  keepsO_guard (keeps_issueTile h)

theorem keeps_execMxcvt {o s : State} {col row} (h : Keeps o s) : KeepsO o (execMxcvt col row s) :=
  keepsO_guard (keeps_issueTile h)

theorem keeps_execMxexp {o s : State} {col row} (h : Keeps o s) : KeepsO o (execMxexp col row s) :=
  keepsO_guard (keeps_issueTile h)

end Sys2Proof.Laws
end

