-- ==== Sys2Proof/Laws/State.lean ====
section
/-! SUPPORT. Each update of the state: what it leaves, field by field, and what reads back. -/

namespace Sys2Proof.Laws

open Sys2Proof Sys2Proof.Machine

/-! ### updSession -/

section

variable (s : State) (i : Nat) (f : Session → Session)

@[simp] theorem updSession_pending : (updSession i f s).pending = s.pending := rfl
@[simp] theorem updSession_part : (updSession i f s).part = s.part := rfl
@[simp] theorem updSession_fresh : (updSession i f s).fresh = s.fresh := rfl
@[simp] theorem updSession_clk : (updSession i f s).clk = s.clk := rfl
@[simp] theorem updSession_time : (updSession i f s).time = s.time := rfl
@[simp] theorem updSession_canopy : (updSession i f s).canopy = s.canopy := rfl
@[simp] theorem updSession_vaults : (updSession i f s).vaults = s.vaults := rfl
@[simp] theorem updSession_queues : (updSession i f s).queues = s.queues := rfl
@[simp] theorem updSession_ring : (updSession i f s).ring = s.ring := rfl
@[simp] theorem updSession_fabric : (updSession i f s).fabric = s.fabric := rfl
@[simp] theorem updSession_arbor : (updSession i f s).arbor = s.arbor := rfl
@[simp] theorem updSession_trig : (updSession i f s).trig = s.trig := rfl
@[simp] theorem updSession_eth : (updSession i f s).eth = s.eth := rfl
@[simp] theorem updSession_power : (updSession i f s).power = s.power := rfl
@[simp] theorem updSession_flash : (updSession i f s).flash = s.flash := rfl
@[simp] theorem updSession_boot : (updSession i f s).boot = s.boot := rfl
@[simp] theorem updSession_pins : (updSession i f s).pins = s.pins := rfl
@[simp] theorem updSession_mgmt : (updSession i f s).mgmt = s.mgmt := rfl
@[simp] theorem updSession_host_flights : (updSession i f s).host.flights = s.host.flights := rfl
@[simp] theorem updSession_host_nextId : (updSession i f s).host.nextId = s.host.nextId := rfl
@[simp] theorem updSession_host_steps : (updSession i f s).host.steps = s.host.steps := rfl
@[simp] theorem updSession_host_malformed : (updSession i f s).host.malformed = s.host.malformed := rfl
@[simp] theorem updSession_host_cycleStart : (updSession i f s).host.cycleStart = s.host.cycleStart := rfl
@[simp] theorem updSession_host_sent : (updSession i f s).host.sent = s.host.sent := rfl

@[simp] theorem getSession_updSession (j : Nat) : getSession (updSession i f s) j = if j = i then f (getSession s i) else getSession s j := by
  simp [getSession, updSession]

end

/-! ### updFlight -/

section

variable (s : State) (id : Nat) (f : Flight → Flight)

@[simp] theorem updFlight_pending : (updFlight id f s).pending = s.pending := rfl
@[simp] theorem updFlight_part : (updFlight id f s).part = s.part := rfl
@[simp] theorem updFlight_fresh : (updFlight id f s).fresh = s.fresh := rfl
@[simp] theorem updFlight_clk : (updFlight id f s).clk = s.clk := rfl
@[simp] theorem updFlight_time : (updFlight id f s).time = s.time := rfl
@[simp] theorem updFlight_canopy : (updFlight id f s).canopy = s.canopy := rfl
@[simp] theorem updFlight_vaults : (updFlight id f s).vaults = s.vaults := rfl
@[simp] theorem updFlight_queues : (updFlight id f s).queues = s.queues := rfl
@[simp] theorem updFlight_ring : (updFlight id f s).ring = s.ring := rfl
@[simp] theorem updFlight_fabric : (updFlight id f s).fabric = s.fabric := rfl
@[simp] theorem updFlight_arbor : (updFlight id f s).arbor = s.arbor := rfl
@[simp] theorem updFlight_trig : (updFlight id f s).trig = s.trig := rfl
@[simp] theorem updFlight_eth : (updFlight id f s).eth = s.eth := rfl
@[simp] theorem updFlight_power : (updFlight id f s).power = s.power := rfl
@[simp] theorem updFlight_flash : (updFlight id f s).flash = s.flash := rfl
@[simp] theorem updFlight_boot : (updFlight id f s).boot = s.boot := rfl
@[simp] theorem updFlight_pins : (updFlight id f s).pins = s.pins := rfl
@[simp] theorem updFlight_mgmt : (updFlight id f s).mgmt = s.mgmt := rfl
@[simp] theorem updFlight_host_sessions : (updFlight id f s).host.sessions = s.host.sessions := rfl
@[simp] theorem updFlight_host_nextId : (updFlight id f s).host.nextId = s.host.nextId := rfl
@[simp] theorem updFlight_host_steps : (updFlight id f s).host.steps = s.host.steps := rfl
@[simp] theorem updFlight_host_malformed : (updFlight id f s).host.malformed = s.host.malformed := rfl
@[simp] theorem updFlight_host_cycleStart : (updFlight id f s).host.cycleStart = s.host.cycleStart := rfl
@[simp] theorem updFlight_host_sent : (updFlight id f s).host.sent = s.host.sent := rfl

end

/-! ### updPart -/

section

variable (s : State) (i : Nat) (f : Partition → Partition)

@[simp] theorem updPart_pending : (updPart i f s).pending = s.pending := rfl
@[simp] theorem updPart_part : (updPart i f s).part = s.part := rfl
@[simp] theorem updPart_fresh : (updPart i f s).fresh = s.fresh := rfl
@[simp] theorem updPart_clk : (updPart i f s).clk = s.clk := rfl
@[simp] theorem updPart_time : (updPart i f s).time = s.time := rfl
@[simp] theorem updPart_host : (updPart i f s).host = s.host := rfl
@[simp] theorem updPart_vaults : (updPart i f s).vaults = s.vaults := rfl
@[simp] theorem updPart_queues : (updPart i f s).queues = s.queues := rfl
@[simp] theorem updPart_ring : (updPart i f s).ring = s.ring := rfl
@[simp] theorem updPart_fabric : (updPart i f s).fabric = s.fabric := rfl
@[simp] theorem updPart_arbor : (updPart i f s).arbor = s.arbor := rfl
@[simp] theorem updPart_trig : (updPart i f s).trig = s.trig := rfl
@[simp] theorem updPart_eth : (updPart i f s).eth = s.eth := rfl
@[simp] theorem updPart_power : (updPart i f s).power = s.power := rfl
@[simp] theorem updPart_flash : (updPart i f s).flash = s.flash := rfl
@[simp] theorem updPart_boot : (updPart i f s).boot = s.boot := rfl
@[simp] theorem updPart_pins : (updPart i f s).pins = s.pins := rfl
@[simp] theorem updPart_mgmt : (updPart i f s).mgmt = s.mgmt := rfl
@[simp] theorem updPart_canopy_now : (updPart i f s).canopy.now = s.canopy.now := rfl
@[simp] theorem updPart_canopy_paused : (updPart i f s).canopy.paused = s.canopy.paused := rfl
@[simp] theorem updPart_canopy_throttled : (updPart i f s).canopy.throttled = s.canopy.throttled := rfl
@[simp] theorem updPart_canopy_pausedAt : (updPart i f s).canopy.pausedAt = s.canopy.pausedAt := rfl
@[simp] theorem updPart_canopy_pauses : (updPart i f s).canopy.pauses = s.canopy.pauses := rfl
@[simp] theorem updPart_canopy_tiles : (updPart i f s).canopy.tiles = s.canopy.tiles := rfl
@[simp] theorem updPart_canopy_grafts : (updPart i f s).canopy.grafts = s.canopy.grafts := rfl
@[simp] theorem updPart_canopy_edges : (updPart i f s).canopy.edges = s.canopy.edges := rfl
@[simp] theorem updPart_canopy_taken : (updPart i f s).canopy.taken = s.canopy.taken := rfl

@[simp] theorem getPart_updPart (j : Nat) : getPart (updPart i f s) j = if j = i then f (getPart s i) else getPart s j := by
  simp [getPart, updPart]

end

/-! ### updTile -/

section

variable (s : State) (c r : Nat) (f : Tile → Tile)

@[simp] theorem updTile_pending : (updTile c r f s).pending = s.pending := rfl
@[simp] theorem updTile_part : (updTile c r f s).part = s.part := rfl
@[simp] theorem updTile_fresh : (updTile c r f s).fresh = s.fresh := rfl
@[simp] theorem updTile_clk : (updTile c r f s).clk = s.clk := rfl
@[simp] theorem updTile_time : (updTile c r f s).time = s.time := rfl
@[simp] theorem updTile_host : (updTile c r f s).host = s.host := rfl
@[simp] theorem updTile_vaults : (updTile c r f s).vaults = s.vaults := rfl
@[simp] theorem updTile_queues : (updTile c r f s).queues = s.queues := rfl
@[simp] theorem updTile_ring : (updTile c r f s).ring = s.ring := rfl
@[simp] theorem updTile_fabric : (updTile c r f s).fabric = s.fabric := rfl
@[simp] theorem updTile_arbor : (updTile c r f s).arbor = s.arbor := rfl
@[simp] theorem updTile_trig : (updTile c r f s).trig = s.trig := rfl
@[simp] theorem updTile_eth : (updTile c r f s).eth = s.eth := rfl
@[simp] theorem updTile_power : (updTile c r f s).power = s.power := rfl
@[simp] theorem updTile_flash : (updTile c r f s).flash = s.flash := rfl
@[simp] theorem updTile_boot : (updTile c r f s).boot = s.boot := rfl
@[simp] theorem updTile_pins : (updTile c r f s).pins = s.pins := rfl
@[simp] theorem updTile_mgmt : (updTile c r f s).mgmt = s.mgmt := rfl
@[simp] theorem updTile_canopy_now : (updTile c r f s).canopy.now = s.canopy.now := rfl
@[simp] theorem updTile_canopy_paused : (updTile c r f s).canopy.paused = s.canopy.paused := rfl
@[simp] theorem updTile_canopy_throttled : (updTile c r f s).canopy.throttled = s.canopy.throttled := rfl
@[simp] theorem updTile_canopy_pausedAt : (updTile c r f s).canopy.pausedAt = s.canopy.pausedAt := rfl
@[simp] theorem updTile_canopy_pauses : (updTile c r f s).canopy.pauses = s.canopy.pauses := rfl
@[simp] theorem updTile_canopy_parts : (updTile c r f s).canopy.parts = s.canopy.parts := rfl
@[simp] theorem updTile_canopy_grafts : (updTile c r f s).canopy.grafts = s.canopy.grafts := rfl
@[simp] theorem updTile_canopy_edges : (updTile c r f s).canopy.edges = s.canopy.edges := rfl
@[simp] theorem updTile_canopy_taken : (updTile c r f s).canopy.taken = s.canopy.taken := rfl

@[simp] theorem getTile_updTile (c2 r2 : Nat) : getTile (updTile c r f s) c2 r2 = if tileKey c2 r2 = tileKey c r then f (getTile s c r) else getTile s c2 r2 := by
  simp [getTile, updTile]

end

/-! ### updEdge -/

section

variable (s : State) (i k : Nat) (f : List WireTok → List WireTok)

@[simp] theorem updEdge_pending : (updEdge i k f s).pending = s.pending := rfl
@[simp] theorem updEdge_part : (updEdge i k f s).part = s.part := rfl
@[simp] theorem updEdge_fresh : (updEdge i k f s).fresh = s.fresh := rfl
@[simp] theorem updEdge_clk : (updEdge i k f s).clk = s.clk := rfl
@[simp] theorem updEdge_time : (updEdge i k f s).time = s.time := rfl
@[simp] theorem updEdge_host : (updEdge i k f s).host = s.host := rfl
@[simp] theorem updEdge_vaults : (updEdge i k f s).vaults = s.vaults := rfl
@[simp] theorem updEdge_queues : (updEdge i k f s).queues = s.queues := rfl
@[simp] theorem updEdge_ring : (updEdge i k f s).ring = s.ring := rfl
@[simp] theorem updEdge_fabric : (updEdge i k f s).fabric = s.fabric := rfl
@[simp] theorem updEdge_arbor : (updEdge i k f s).arbor = s.arbor := rfl
@[simp] theorem updEdge_trig : (updEdge i k f s).trig = s.trig := rfl
@[simp] theorem updEdge_eth : (updEdge i k f s).eth = s.eth := rfl
@[simp] theorem updEdge_power : (updEdge i k f s).power = s.power := rfl
@[simp] theorem updEdge_flash : (updEdge i k f s).flash = s.flash := rfl
@[simp] theorem updEdge_boot : (updEdge i k f s).boot = s.boot := rfl
@[simp] theorem updEdge_pins : (updEdge i k f s).pins = s.pins := rfl
@[simp] theorem updEdge_mgmt : (updEdge i k f s).mgmt = s.mgmt := rfl
@[simp] theorem updEdge_canopy_now : (updEdge i k f s).canopy.now = s.canopy.now := rfl
@[simp] theorem updEdge_canopy_paused : (updEdge i k f s).canopy.paused = s.canopy.paused := rfl
@[simp] theorem updEdge_canopy_throttled : (updEdge i k f s).canopy.throttled = s.canopy.throttled := rfl
@[simp] theorem updEdge_canopy_pausedAt : (updEdge i k f s).canopy.pausedAt = s.canopy.pausedAt := rfl
@[simp] theorem updEdge_canopy_pauses : (updEdge i k f s).canopy.pauses = s.canopy.pauses := rfl
@[simp] theorem updEdge_canopy_parts : (updEdge i k f s).canopy.parts = s.canopy.parts := rfl
@[simp] theorem updEdge_canopy_tiles : (updEdge i k f s).canopy.tiles = s.canopy.tiles := rfl
@[simp] theorem updEdge_canopy_grafts : (updEdge i k f s).canopy.grafts = s.canopy.grafts := rfl
@[simp] theorem updEdge_canopy_taken : (updEdge i k f s).canopy.taken = s.canopy.taken := rfl

@[simp] theorem getEdge_updEdge (i2 k2 : Nat) : getEdge (updEdge i k f s) i2 k2 = if edgeKey i2 k2 = edgeKey i k then f (getEdge s i k) else getEdge s i2 k2 := by
  simp [getEdge, updEdge]

end

/-! ### updQueue -/

section

variable (s : State) (i : Nat) (f : Spill → Spill)

@[simp] theorem updQueue_pending : (updQueue i f s).pending = s.pending := rfl
@[simp] theorem updQueue_part : (updQueue i f s).part = s.part := rfl
@[simp] theorem updQueue_fresh : (updQueue i f s).fresh = s.fresh := rfl
@[simp] theorem updQueue_clk : (updQueue i f s).clk = s.clk := rfl
@[simp] theorem updQueue_time : (updQueue i f s).time = s.time := rfl
@[simp] theorem updQueue_host : (updQueue i f s).host = s.host := rfl
@[simp] theorem updQueue_canopy : (updQueue i f s).canopy = s.canopy := rfl
@[simp] theorem updQueue_vaults : (updQueue i f s).vaults = s.vaults := rfl
@[simp] theorem updQueue_ring : (updQueue i f s).ring = s.ring := rfl
@[simp] theorem updQueue_fabric : (updQueue i f s).fabric = s.fabric := rfl
@[simp] theorem updQueue_arbor : (updQueue i f s).arbor = s.arbor := rfl
@[simp] theorem updQueue_trig : (updQueue i f s).trig = s.trig := rfl
@[simp] theorem updQueue_eth : (updQueue i f s).eth = s.eth := rfl
@[simp] theorem updQueue_power : (updQueue i f s).power = s.power := rfl
@[simp] theorem updQueue_flash : (updQueue i f s).flash = s.flash := rfl
@[simp] theorem updQueue_boot : (updQueue i f s).boot = s.boot := rfl
@[simp] theorem updQueue_pins : (updQueue i f s).pins = s.pins := rfl
@[simp] theorem updQueue_mgmt : (updQueue i f s).mgmt = s.mgmt := rfl

@[simp] theorem getQueue_updQueue (j : Nat) : getQueue (updQueue i f s) j = if j = i then f (getQueue s i) else getQueue s j := by
  simp [getQueue, updQueue]

end

/-! ### updEngine -/

section

variable (s : State) (i : Nat) (f : Engine → Engine)

@[simp] theorem updEngine_pending : (updEngine i f s).pending = s.pending := rfl
@[simp] theorem updEngine_part : (updEngine i f s).part = s.part := rfl
@[simp] theorem updEngine_fresh : (updEngine i f s).fresh = s.fresh := rfl
@[simp] theorem updEngine_clk : (updEngine i f s).clk = s.clk := rfl
@[simp] theorem updEngine_time : (updEngine i f s).time = s.time := rfl
@[simp] theorem updEngine_host : (updEngine i f s).host = s.host := rfl
@[simp] theorem updEngine_canopy : (updEngine i f s).canopy = s.canopy := rfl
@[simp] theorem updEngine_vaults : (updEngine i f s).vaults = s.vaults := rfl
@[simp] theorem updEngine_queues : (updEngine i f s).queues = s.queues := rfl
@[simp] theorem updEngine_ring : (updEngine i f s).ring = s.ring := rfl
@[simp] theorem updEngine_fabric : (updEngine i f s).fabric = s.fabric := rfl
@[simp] theorem updEngine_trig : (updEngine i f s).trig = s.trig := rfl
@[simp] theorem updEngine_eth : (updEngine i f s).eth = s.eth := rfl
@[simp] theorem updEngine_power : (updEngine i f s).power = s.power := rfl
@[simp] theorem updEngine_flash : (updEngine i f s).flash = s.flash := rfl
@[simp] theorem updEngine_boot : (updEngine i f s).boot = s.boot := rfl
@[simp] theorem updEngine_pins : (updEngine i f s).pins = s.pins := rfl
@[simp] theorem updEngine_mgmt : (updEngine i f s).mgmt = s.mgmt := rfl
@[simp] theorem updEngine_arbor_ensembles : (updEngine i f s).arbor.ensembles = s.arbor.ensembles := rfl
@[simp] theorem updEngine_arbor_stopped : (updEngine i f s).arbor.stopped = s.arbor.stopped := rfl
@[simp] theorem updEngine_arbor_nodeCorrected : (updEngine i f s).arbor.nodeCorrected = s.arbor.nodeCorrected := rfl
@[simp] theorem updEngine_arbor_nodeUncorrected : (updEngine i f s).arbor.nodeUncorrected = s.arbor.nodeUncorrected := rfl
@[simp] theorem updEngine_arbor_tcamMiss : (updEngine i f s).arbor.tcamMiss = s.arbor.tcamMiss := rfl
@[simp] theorem updEngine_arbor_poison : (updEngine i f s).arbor.poison = s.arbor.poison := rfl
@[simp] theorem updEngine_arbor_failed : (updEngine i f s).arbor.failed = s.arbor.failed := rfl
@[simp] theorem updEngine_arbor_late : (updEngine i f s).arbor.late = s.arbor.late := rfl
@[simp] theorem updEngine_arbor_toReply : (updEngine i f s).arbor.toReply = s.arbor.toReply := rfl

@[simp] theorem getEngine_updEngine (j : Nat) : getEngine (updEngine i f s) j = if j = i then f (getEngine s i) else getEngine s j := by
  simp [getEngine, updEngine]

end

/-! ### updEns -/

section

variable (s : State) (i : Nat) (f : Ensemble → Ensemble)

@[simp] theorem updEns_pending : (updEns i f s).pending = s.pending := rfl
@[simp] theorem updEns_part : (updEns i f s).part = s.part := rfl
@[simp] theorem updEns_fresh : (updEns i f s).fresh = s.fresh := rfl
@[simp] theorem updEns_clk : (updEns i f s).clk = s.clk := rfl
@[simp] theorem updEns_time : (updEns i f s).time = s.time := rfl
@[simp] theorem updEns_host : (updEns i f s).host = s.host := rfl
@[simp] theorem updEns_canopy : (updEns i f s).canopy = s.canopy := rfl
@[simp] theorem updEns_vaults : (updEns i f s).vaults = s.vaults := rfl
@[simp] theorem updEns_queues : (updEns i f s).queues = s.queues := rfl
@[simp] theorem updEns_ring : (updEns i f s).ring = s.ring := rfl
@[simp] theorem updEns_fabric : (updEns i f s).fabric = s.fabric := rfl
@[simp] theorem updEns_trig : (updEns i f s).trig = s.trig := rfl
@[simp] theorem updEns_eth : (updEns i f s).eth = s.eth := rfl
@[simp] theorem updEns_power : (updEns i f s).power = s.power := rfl
@[simp] theorem updEns_flash : (updEns i f s).flash = s.flash := rfl
@[simp] theorem updEns_boot : (updEns i f s).boot = s.boot := rfl
@[simp] theorem updEns_pins : (updEns i f s).pins = s.pins := rfl
@[simp] theorem updEns_mgmt : (updEns i f s).mgmt = s.mgmt := rfl
@[simp] theorem updEns_arbor_engines : (updEns i f s).arbor.engines = s.arbor.engines := rfl
@[simp] theorem updEns_arbor_stopped : (updEns i f s).arbor.stopped = s.arbor.stopped := rfl
@[simp] theorem updEns_arbor_nodeCorrected : (updEns i f s).arbor.nodeCorrected = s.arbor.nodeCorrected := rfl
@[simp] theorem updEns_arbor_nodeUncorrected : (updEns i f s).arbor.nodeUncorrected = s.arbor.nodeUncorrected := rfl
@[simp] theorem updEns_arbor_tcamMiss : (updEns i f s).arbor.tcamMiss = s.arbor.tcamMiss := rfl
@[simp] theorem updEns_arbor_poison : (updEns i f s).arbor.poison = s.arbor.poison := rfl
@[simp] theorem updEns_arbor_failed : (updEns i f s).arbor.failed = s.arbor.failed := rfl
@[simp] theorem updEns_arbor_late : (updEns i f s).arbor.late = s.arbor.late := rfl
@[simp] theorem updEns_arbor_toReply : (updEns i f s).arbor.toReply = s.arbor.toReply := rfl

@[simp] theorem getEns_updEns (j : Nat) : getEns (updEns i f s) j = if j = i then f (getEns s i) else getEns s j := by
  simp [getEns, updEns]

end

/-! ### updChan -/

section

variable (s : State) (i : Nat) (f : Channel → Channel)

@[simp] theorem updChan_pending : (updChan i f s).pending = s.pending := rfl
@[simp] theorem updChan_part : (updChan i f s).part = s.part := rfl
@[simp] theorem updChan_fresh : (updChan i f s).fresh = s.fresh := rfl
@[simp] theorem updChan_clk : (updChan i f s).clk = s.clk := rfl
@[simp] theorem updChan_time : (updChan i f s).time = s.time := rfl
@[simp] theorem updChan_host : (updChan i f s).host = s.host := rfl
@[simp] theorem updChan_canopy : (updChan i f s).canopy = s.canopy := rfl
@[simp] theorem updChan_vaults : (updChan i f s).vaults = s.vaults := rfl
@[simp] theorem updChan_queues : (updChan i f s).queues = s.queues := rfl
@[simp] theorem updChan_ring : (updChan i f s).ring = s.ring := rfl
@[simp] theorem updChan_arbor : (updChan i f s).arbor = s.arbor := rfl
@[simp] theorem updChan_trig : (updChan i f s).trig = s.trig := rfl
@[simp] theorem updChan_eth : (updChan i f s).eth = s.eth := rfl
@[simp] theorem updChan_power : (updChan i f s).power = s.power := rfl
@[simp] theorem updChan_flash : (updChan i f s).flash = s.flash := rfl
@[simp] theorem updChan_boot : (updChan i f s).boot = s.boot := rfl
@[simp] theorem updChan_pins : (updChan i f s).pins = s.pins := rfl
@[simp] theorem updChan_mgmt : (updChan i f s).mgmt = s.mgmt := rfl
@[simp] theorem updChan_fabric_ports : (updChan i f s).fabric.ports = s.fabric.ports := rfl
@[simp] theorem updChan_fabric_coord : (updChan i f s).fabric.coord = s.fabric.coord := rfl
@[simp] theorem updChan_fabric_sizes : (updChan i f s).fabric.sizes = s.fabric.sizes := rfl
@[simp] theorem updChan_fabric_isBridge : (updChan i f s).fabric.isBridge = s.fabric.isBridge := rfl
@[simp] theorem updChan_fabric_members : (updChan i f s).fabric.members = s.fabric.members := rfl
@[simp] theorem updChan_fabric_unroutable : (updChan i f s).fabric.unroutable = s.fabric.unroutable := rfl
@[simp] theorem updChan_fabric_stray : (updChan i f s).fabric.stray = s.fabric.stray := rfl
@[simp] theorem updChan_fabric_foreign : (updChan i f s).fabric.foreign = s.fabric.foreign := rfl
@[simp] theorem updChan_fabric_hostDrop : (updChan i f s).fabric.hostDrop = s.fabric.hostDrop := rfl

@[simp] theorem getChan_updChan (j : Nat) : getChan (updChan i f s) j = if j = i then f (getChan s i) else getChan s j := by
  simp [getChan, updChan]

end

/-! ### updPort -/

section

variable (s : State) (i : Nat) (f : FPort → FPort)

@[simp] theorem updPort_pending : (updPort i f s).pending = s.pending := rfl
@[simp] theorem updPort_part : (updPort i f s).part = s.part := rfl
@[simp] theorem updPort_fresh : (updPort i f s).fresh = s.fresh := rfl
@[simp] theorem updPort_clk : (updPort i f s).clk = s.clk := rfl
@[simp] theorem updPort_time : (updPort i f s).time = s.time := rfl
@[simp] theorem updPort_host : (updPort i f s).host = s.host := rfl
@[simp] theorem updPort_canopy : (updPort i f s).canopy = s.canopy := rfl
@[simp] theorem updPort_vaults : (updPort i f s).vaults = s.vaults := rfl
@[simp] theorem updPort_queues : (updPort i f s).queues = s.queues := rfl
@[simp] theorem updPort_ring : (updPort i f s).ring = s.ring := rfl
@[simp] theorem updPort_arbor : (updPort i f s).arbor = s.arbor := rfl
@[simp] theorem updPort_trig : (updPort i f s).trig = s.trig := rfl
@[simp] theorem updPort_eth : (updPort i f s).eth = s.eth := rfl
@[simp] theorem updPort_power : (updPort i f s).power = s.power := rfl
@[simp] theorem updPort_flash : (updPort i f s).flash = s.flash := rfl
@[simp] theorem updPort_boot : (updPort i f s).boot = s.boot := rfl
@[simp] theorem updPort_pins : (updPort i f s).pins = s.pins := rfl
@[simp] theorem updPort_mgmt : (updPort i f s).mgmt = s.mgmt := rfl
@[simp] theorem updPort_fabric_coord : (updPort i f s).fabric.coord = s.fabric.coord := rfl
@[simp] theorem updPort_fabric_sizes : (updPort i f s).fabric.sizes = s.fabric.sizes := rfl
@[simp] theorem updPort_fabric_isBridge : (updPort i f s).fabric.isBridge = s.fabric.isBridge := rfl
@[simp] theorem updPort_fabric_members : (updPort i f s).fabric.members = s.fabric.members := rfl
@[simp] theorem updPort_fabric_unroutable : (updPort i f s).fabric.unroutable = s.fabric.unroutable := rfl
@[simp] theorem updPort_fabric_stray : (updPort i f s).fabric.stray = s.fabric.stray := rfl
@[simp] theorem updPort_fabric_foreign : (updPort i f s).fabric.foreign = s.fabric.foreign := rfl
@[simp] theorem updPort_fabric_hostDrop : (updPort i f s).fabric.hostDrop = s.fabric.hostDrop := rfl
@[simp] theorem updPort_fabric_channels : (updPort i f s).fabric.channels = s.fabric.channels := rfl

@[simp] theorem getPort_updPort (j : Nat) : getPort (updPort i f s) j = if j = i then f (getPort s i) else getPort s j := by
  simp [getPort, updPort]

end

/-! ### updMac -/

section

variable (s : State) (i : Nat) (f : Mac → Mac)

@[simp] theorem updMac_pending : (updMac i f s).pending = s.pending := rfl
@[simp] theorem updMac_part : (updMac i f s).part = s.part := rfl
@[simp] theorem updMac_fresh : (updMac i f s).fresh = s.fresh := rfl
@[simp] theorem updMac_clk : (updMac i f s).clk = s.clk := rfl
@[simp] theorem updMac_time : (updMac i f s).time = s.time := rfl
@[simp] theorem updMac_host : (updMac i f s).host = s.host := rfl
@[simp] theorem updMac_canopy : (updMac i f s).canopy = s.canopy := rfl
@[simp] theorem updMac_vaults : (updMac i f s).vaults = s.vaults := rfl
@[simp] theorem updMac_queues : (updMac i f s).queues = s.queues := rfl
@[simp] theorem updMac_ring : (updMac i f s).ring = s.ring := rfl
@[simp] theorem updMac_fabric : (updMac i f s).fabric = s.fabric := rfl
@[simp] theorem updMac_arbor : (updMac i f s).arbor = s.arbor := rfl
@[simp] theorem updMac_trig : (updMac i f s).trig = s.trig := rfl
@[simp] theorem updMac_power : (updMac i f s).power = s.power := rfl
@[simp] theorem updMac_flash : (updMac i f s).flash = s.flash := rfl
@[simp] theorem updMac_boot : (updMac i f s).boot = s.boot := rfl
@[simp] theorem updMac_pins : (updMac i f s).pins = s.pins := rfl
@[simp] theorem updMac_mgmt : (updMac i f s).mgmt = s.mgmt := rfl
@[simp] theorem updMac_eth_ports : (updMac i f s).eth.ports = s.eth.ports := rfl

@[simp] theorem getMac_updMac (j : Nat) : getMac (updMac i f s) j = if j = i then f (getMac s i) else getMac s j := by
  simp [getMac, updMac]

end

/-! ### updEPort -/

section

variable (s : State) (i : Nat) (f : EPort → EPort)

@[simp] theorem updEPort_pending : (updEPort i f s).pending = s.pending := rfl
@[simp] theorem updEPort_part : (updEPort i f s).part = s.part := rfl
@[simp] theorem updEPort_fresh : (updEPort i f s).fresh = s.fresh := rfl
@[simp] theorem updEPort_clk : (updEPort i f s).clk = s.clk := rfl
@[simp] theorem updEPort_time : (updEPort i f s).time = s.time := rfl
@[simp] theorem updEPort_host : (updEPort i f s).host = s.host := rfl
@[simp] theorem updEPort_canopy : (updEPort i f s).canopy = s.canopy := rfl
@[simp] theorem updEPort_vaults : (updEPort i f s).vaults = s.vaults := rfl
@[simp] theorem updEPort_queues : (updEPort i f s).queues = s.queues := rfl
@[simp] theorem updEPort_ring : (updEPort i f s).ring = s.ring := rfl
@[simp] theorem updEPort_fabric : (updEPort i f s).fabric = s.fabric := rfl
@[simp] theorem updEPort_arbor : (updEPort i f s).arbor = s.arbor := rfl
@[simp] theorem updEPort_trig : (updEPort i f s).trig = s.trig := rfl
@[simp] theorem updEPort_power : (updEPort i f s).power = s.power := rfl
@[simp] theorem updEPort_flash : (updEPort i f s).flash = s.flash := rfl
@[simp] theorem updEPort_boot : (updEPort i f s).boot = s.boot := rfl
@[simp] theorem updEPort_pins : (updEPort i f s).pins = s.pins := rfl
@[simp] theorem updEPort_mgmt : (updEPort i f s).mgmt = s.mgmt := rfl
@[simp] theorem updEPort_eth_macs : (updEPort i f s).eth.macs = s.eth.macs := rfl

@[simp] theorem getEPort_updEPort (j : Nat) : getEPort (updEPort i f s) j = if j = i then f (getEPort s i) else getEPort s j := by
  simp [getEPort, updEPort]

end

/-! ### updPtp -/

section

variable (s : State) (i : Nat) (f : PtpMac → PtpMac)

@[simp] theorem updPtp_pending : (updPtp i f s).pending = s.pending := rfl
@[simp] theorem updPtp_part : (updPtp i f s).part = s.part := rfl
@[simp] theorem updPtp_fresh : (updPtp i f s).fresh = s.fresh := rfl
@[simp] theorem updPtp_clk : (updPtp i f s).clk = s.clk := rfl
@[simp] theorem updPtp_host : (updPtp i f s).host = s.host := rfl
@[simp] theorem updPtp_canopy : (updPtp i f s).canopy = s.canopy := rfl
@[simp] theorem updPtp_vaults : (updPtp i f s).vaults = s.vaults := rfl
@[simp] theorem updPtp_queues : (updPtp i f s).queues = s.queues := rfl
@[simp] theorem updPtp_ring : (updPtp i f s).ring = s.ring := rfl
@[simp] theorem updPtp_fabric : (updPtp i f s).fabric = s.fabric := rfl
@[simp] theorem updPtp_arbor : (updPtp i f s).arbor = s.arbor := rfl
@[simp] theorem updPtp_trig : (updPtp i f s).trig = s.trig := rfl
@[simp] theorem updPtp_eth : (updPtp i f s).eth = s.eth := rfl
@[simp] theorem updPtp_power : (updPtp i f s).power = s.power := rfl
@[simp] theorem updPtp_flash : (updPtp i f s).flash = s.flash := rfl
@[simp] theorem updPtp_boot : (updPtp i f s).boot = s.boot := rfl
@[simp] theorem updPtp_pins : (updPtp i f s).pins = s.pins := rfl
@[simp] theorem updPtp_mgmt : (updPtp i f s).mgmt = s.mgmt := rfl
@[simp] theorem updPtp_time_sec : (updPtp i f s).time.sec = s.time.sec := rfl
@[simp] theorem updPtp_time_ns : (updPtp i f s).time.ns = s.time.ns := rfl
@[simp] theorem updPtp_time_frac : (updPtp i f s).time.frac = s.time.frac := rfl
@[simp] theorem updPtp_time_inc : (updPtp i f s).time.inc = s.time.inc := rfl
@[simp] theorem updPtp_time_valid : (updPtp i f s).time.valid = s.time.valid := rfl
@[simp] theorem updPtp_time_refused : (updPtp i f s).time.refused = s.time.refused := rfl
@[simp] theorem updPtp_time_refLost : (updPtp i f s).time.refLost = s.time.refLost := rfl
@[simp] theorem updPtp_time_pllLocked : (updPtp i f s).time.pllLocked = s.time.pllLocked := rfl
@[simp] theorem updPtp_time_tref : (updPtp i f s).time.tref = s.time.tref := rfl
@[simp] theorem updPtp_time_owner : (updPtp i f s).time.owner = s.time.owner := rfl
@[simp] theorem updPtp_time_log : (updPtp i f s).time.log = s.time.log := rfl
@[simp] theorem updPtp_time_edges : (updPtp i f s).time.edges = s.time.edges := rfl
@[simp] theorem updPtp_time_jumpLimit : (updPtp i f s).time.jumpLimit = s.time.jumpLimit := rfl
@[simp] theorem updPtp_time_jumps : (updPtp i f s).time.jumps = s.time.jumps := rfl
@[simp] theorem updPtp_time_refusedCount : (updPtp i f s).time.refusedCount = s.time.refusedCount := rfl
@[simp] theorem updPtp_time_ppsInCount : (updPtp i f s).time.ppsInCount = s.time.ppsInCount := rfl
@[simp] theorem updPtp_time_ppsInSec : (updPtp i f s).time.ppsInSec = s.time.ppsInSec := rfl
@[simp] theorem updPtp_time_ppsInNs : (updPtp i f s).time.ppsInNs = s.time.ppsInNs := rfl
@[simp] theorem updPtp_time_ppsWidth : (updPtp i f s).time.ppsWidth = s.time.ppsWidth := rfl
@[simp] theorem updPtp_time_ppsEnable : (updPtp i f s).time.ppsEnable = s.time.ppsEnable := rfl
@[simp] theorem updPtp_time_ppsEnd : (updPtp i f s).time.ppsEnd = s.time.ppsEnd := rfl
@[simp] theorem updPtp_time_trims : (updPtp i f s).time.trims = s.time.trims := rfl

@[simp] theorem getPtp_updPtp (j : Nat) : getPtp (updPtp i f s) j = if j = i then f (getPtp s i) else getPtp s j := by
  simp [getPtp, updPtp]

end

/-! ### updStream -/

section

variable (s : State) (i : Nat) (f : Stream → Stream)

@[simp] theorem updStream_pending : (updStream i f s).pending = s.pending := rfl
@[simp] theorem updStream_part : (updStream i f s).part = s.part := rfl
@[simp] theorem updStream_fresh : (updStream i f s).fresh = s.fresh := rfl
@[simp] theorem updStream_clk : (updStream i f s).clk = s.clk := rfl
@[simp] theorem updStream_time : (updStream i f s).time = s.time := rfl
@[simp] theorem updStream_host : (updStream i f s).host = s.host := rfl
@[simp] theorem updStream_canopy : (updStream i f s).canopy = s.canopy := rfl
@[simp] theorem updStream_vaults : (updStream i f s).vaults = s.vaults := rfl
@[simp] theorem updStream_queues : (updStream i f s).queues = s.queues := rfl
@[simp] theorem updStream_ring : (updStream i f s).ring = s.ring := rfl
@[simp] theorem updStream_fabric : (updStream i f s).fabric = s.fabric := rfl
@[simp] theorem updStream_arbor : (updStream i f s).arbor = s.arbor := rfl
@[simp] theorem updStream_eth : (updStream i f s).eth = s.eth := rfl
@[simp] theorem updStream_power : (updStream i f s).power = s.power := rfl
@[simp] theorem updStream_flash : (updStream i f s).flash = s.flash := rfl
@[simp] theorem updStream_boot : (updStream i f s).boot = s.boot := rfl
@[simp] theorem updStream_pins : (updStream i f s).pins = s.pins := rfl
@[simp] theorem updStream_mgmt : (updStream i f s).mgmt = s.mgmt := rfl
@[simp] theorem updStream_trig_owner : (updStream i f s).trig.owner = s.trig.owner := rfl
@[simp] theorem updStream_trig_unbound : (updStream i f s).trig.unbound = s.trig.unbound := rfl
@[simp] theorem updStream_trig_lanes : (updStream i f s).trig.lanes = s.trig.lanes := rfl
@[simp] theorem updStream_trig_decEnableReg : (updStream i f s).trig.decEnableReg = s.trig.decEnableReg := rfl
@[simp] theorem updStream_trig_decQueueReg : (updStream i f s).trig.decQueueReg = s.trig.decQueueReg := rfl
@[simp] theorem updStream_trig_decEnable : (updStream i f s).trig.decEnable = s.trig.decEnable := rfl
@[simp] theorem updStream_trig_decQueue : (updStream i f s).trig.decQueue = s.trig.decQueue := rfl
@[simp] theorem updStream_trig_nan : (updStream i f s).trig.nan = s.trig.nan := rfl
@[simp] theorem updStream_trig_poison : (updStream i f s).trig.poison = s.trig.poison := rfl
@[simp] theorem updStream_trig_suppressed : (updStream i f s).trig.suppressed = s.trig.suppressed := rfl
@[simp] theorem updStream_trig_decLost : (updStream i f s).trig.decLost = s.trig.decLost := rfl
@[simp] theorem updStream_trig_capLost : (updStream i f s).trig.capLost = s.trig.capLost := rfl
@[simp] theorem updStream_trig_chans : (updStream i f s).trig.chans = s.trig.chans := rfl
@[simp] theorem updStream_trig_outs : (updStream i f s).trig.outs = s.trig.outs := rfl
@[simp] theorem updStream_trig_caps : (updStream i f s).trig.caps = s.trig.caps := rfl
@[simp] theorem updStream_trig_pins : (updStream i f s).trig.pins = s.trig.pins := rfl
@[simp] theorem updStream_trig_waiting : (updStream i f s).trig.waiting = s.trig.waiting := rfl
@[simp] theorem updStream_trig_ended : (updStream i f s).trig.ended = s.trig.ended := rfl
@[simp] theorem updStream_trig_records : (updStream i f s).trig.records = s.trig.records := rfl

@[simp] theorem getStream_updStream (j : Nat) : getStream (updStream i f s) j = if j = i then f (getStream s i) else getStream s j := by
  simp [getStream, updStream]

end

/-! ### updChanT -/

section

variable (s : State) (i : Nat) (f : TrigChan → TrigChan)

@[simp] theorem updChanT_pending : (updChanT i f s).pending = s.pending := rfl
@[simp] theorem updChanT_part : (updChanT i f s).part = s.part := rfl
@[simp] theorem updChanT_fresh : (updChanT i f s).fresh = s.fresh := rfl
@[simp] theorem updChanT_clk : (updChanT i f s).clk = s.clk := rfl
@[simp] theorem updChanT_time : (updChanT i f s).time = s.time := rfl
@[simp] theorem updChanT_host : (updChanT i f s).host = s.host := rfl
@[simp] theorem updChanT_canopy : (updChanT i f s).canopy = s.canopy := rfl
@[simp] theorem updChanT_vaults : (updChanT i f s).vaults = s.vaults := rfl
@[simp] theorem updChanT_queues : (updChanT i f s).queues = s.queues := rfl
@[simp] theorem updChanT_ring : (updChanT i f s).ring = s.ring := rfl
@[simp] theorem updChanT_fabric : (updChanT i f s).fabric = s.fabric := rfl
@[simp] theorem updChanT_arbor : (updChanT i f s).arbor = s.arbor := rfl
@[simp] theorem updChanT_eth : (updChanT i f s).eth = s.eth := rfl
@[simp] theorem updChanT_power : (updChanT i f s).power = s.power := rfl
@[simp] theorem updChanT_flash : (updChanT i f s).flash = s.flash := rfl
@[simp] theorem updChanT_boot : (updChanT i f s).boot = s.boot := rfl
@[simp] theorem updChanT_pins : (updChanT i f s).pins = s.pins := rfl
@[simp] theorem updChanT_mgmt : (updChanT i f s).mgmt = s.mgmt := rfl
@[simp] theorem updChanT_trig_owner : (updChanT i f s).trig.owner = s.trig.owner := rfl
@[simp] theorem updChanT_trig_streams : (updChanT i f s).trig.streams = s.trig.streams := rfl
@[simp] theorem updChanT_trig_unbound : (updChanT i f s).trig.unbound = s.trig.unbound := rfl
@[simp] theorem updChanT_trig_lanes : (updChanT i f s).trig.lanes = s.trig.lanes := rfl
@[simp] theorem updChanT_trig_decEnableReg : (updChanT i f s).trig.decEnableReg = s.trig.decEnableReg := rfl
@[simp] theorem updChanT_trig_decQueueReg : (updChanT i f s).trig.decQueueReg = s.trig.decQueueReg := rfl
@[simp] theorem updChanT_trig_decEnable : (updChanT i f s).trig.decEnable = s.trig.decEnable := rfl
@[simp] theorem updChanT_trig_decQueue : (updChanT i f s).trig.decQueue = s.trig.decQueue := rfl
@[simp] theorem updChanT_trig_nan : (updChanT i f s).trig.nan = s.trig.nan := rfl
@[simp] theorem updChanT_trig_poison : (updChanT i f s).trig.poison = s.trig.poison := rfl
@[simp] theorem updChanT_trig_suppressed : (updChanT i f s).trig.suppressed = s.trig.suppressed := rfl
@[simp] theorem updChanT_trig_decLost : (updChanT i f s).trig.decLost = s.trig.decLost := rfl
@[simp] theorem updChanT_trig_capLost : (updChanT i f s).trig.capLost = s.trig.capLost := rfl
@[simp] theorem updChanT_trig_outs : (updChanT i f s).trig.outs = s.trig.outs := rfl
@[simp] theorem updChanT_trig_caps : (updChanT i f s).trig.caps = s.trig.caps := rfl
@[simp] theorem updChanT_trig_pins : (updChanT i f s).trig.pins = s.trig.pins := rfl
@[simp] theorem updChanT_trig_waiting : (updChanT i f s).trig.waiting = s.trig.waiting := rfl
@[simp] theorem updChanT_trig_ended : (updChanT i f s).trig.ended = s.trig.ended := rfl
@[simp] theorem updChanT_trig_records : (updChanT i f s).trig.records = s.trig.records := rfl

@[simp] theorem getChanT_updChanT (j : Nat) : getChanT (updChanT i f s) j = if j = i then f (getChanT s i) else getChanT s j := by
  simp [getChanT, updChanT]

end

/-! ### updOutT -/

section

variable (s : State) (i : Nat) (f : TrigOut → TrigOut)

@[simp] theorem updOutT_pending : (updOutT i f s).pending = s.pending := rfl
@[simp] theorem updOutT_part : (updOutT i f s).part = s.part := rfl
@[simp] theorem updOutT_fresh : (updOutT i f s).fresh = s.fresh := rfl
@[simp] theorem updOutT_clk : (updOutT i f s).clk = s.clk := rfl
@[simp] theorem updOutT_time : (updOutT i f s).time = s.time := rfl
@[simp] theorem updOutT_host : (updOutT i f s).host = s.host := rfl
@[simp] theorem updOutT_canopy : (updOutT i f s).canopy = s.canopy := rfl
@[simp] theorem updOutT_vaults : (updOutT i f s).vaults = s.vaults := rfl
@[simp] theorem updOutT_queues : (updOutT i f s).queues = s.queues := rfl
@[simp] theorem updOutT_ring : (updOutT i f s).ring = s.ring := rfl
@[simp] theorem updOutT_fabric : (updOutT i f s).fabric = s.fabric := rfl
@[simp] theorem updOutT_arbor : (updOutT i f s).arbor = s.arbor := rfl
@[simp] theorem updOutT_eth : (updOutT i f s).eth = s.eth := rfl
@[simp] theorem updOutT_power : (updOutT i f s).power = s.power := rfl
@[simp] theorem updOutT_flash : (updOutT i f s).flash = s.flash := rfl
@[simp] theorem updOutT_boot : (updOutT i f s).boot = s.boot := rfl
@[simp] theorem updOutT_pins : (updOutT i f s).pins = s.pins := rfl
@[simp] theorem updOutT_mgmt : (updOutT i f s).mgmt = s.mgmt := rfl
@[simp] theorem updOutT_trig_owner : (updOutT i f s).trig.owner = s.trig.owner := rfl
@[simp] theorem updOutT_trig_streams : (updOutT i f s).trig.streams = s.trig.streams := rfl
@[simp] theorem updOutT_trig_unbound : (updOutT i f s).trig.unbound = s.trig.unbound := rfl
@[simp] theorem updOutT_trig_lanes : (updOutT i f s).trig.lanes = s.trig.lanes := rfl
@[simp] theorem updOutT_trig_decEnableReg : (updOutT i f s).trig.decEnableReg = s.trig.decEnableReg := rfl
@[simp] theorem updOutT_trig_decQueueReg : (updOutT i f s).trig.decQueueReg = s.trig.decQueueReg := rfl
@[simp] theorem updOutT_trig_decEnable : (updOutT i f s).trig.decEnable = s.trig.decEnable := rfl
@[simp] theorem updOutT_trig_decQueue : (updOutT i f s).trig.decQueue = s.trig.decQueue := rfl
@[simp] theorem updOutT_trig_nan : (updOutT i f s).trig.nan = s.trig.nan := rfl
@[simp] theorem updOutT_trig_poison : (updOutT i f s).trig.poison = s.trig.poison := rfl
@[simp] theorem updOutT_trig_suppressed : (updOutT i f s).trig.suppressed = s.trig.suppressed := rfl
@[simp] theorem updOutT_trig_decLost : (updOutT i f s).trig.decLost = s.trig.decLost := rfl
@[simp] theorem updOutT_trig_capLost : (updOutT i f s).trig.capLost = s.trig.capLost := rfl
@[simp] theorem updOutT_trig_chans : (updOutT i f s).trig.chans = s.trig.chans := rfl
@[simp] theorem updOutT_trig_caps : (updOutT i f s).trig.caps = s.trig.caps := rfl
@[simp] theorem updOutT_trig_pins : (updOutT i f s).trig.pins = s.trig.pins := rfl
@[simp] theorem updOutT_trig_waiting : (updOutT i f s).trig.waiting = s.trig.waiting := rfl
@[simp] theorem updOutT_trig_ended : (updOutT i f s).trig.ended = s.trig.ended := rfl
@[simp] theorem updOutT_trig_records : (updOutT i f s).trig.records = s.trig.records := rfl

@[simp] theorem getOut_updOutT (j : Nat) : getOut (updOutT i f s) j = if j = i then f (getOut s i) else getOut s j := by
  simp [getOut, updOutT]

end

/-! ### updCap -/

section

variable (s : State) (i : Nat) (f : Capture → Capture)

@[simp] theorem updCap_pending : (updCap i f s).pending = s.pending := rfl
@[simp] theorem updCap_part : (updCap i f s).part = s.part := rfl
@[simp] theorem updCap_fresh : (updCap i f s).fresh = s.fresh := rfl
@[simp] theorem updCap_clk : (updCap i f s).clk = s.clk := rfl
@[simp] theorem updCap_time : (updCap i f s).time = s.time := rfl
@[simp] theorem updCap_host : (updCap i f s).host = s.host := rfl
@[simp] theorem updCap_canopy : (updCap i f s).canopy = s.canopy := rfl
@[simp] theorem updCap_vaults : (updCap i f s).vaults = s.vaults := rfl
@[simp] theorem updCap_queues : (updCap i f s).queues = s.queues := rfl
@[simp] theorem updCap_ring : (updCap i f s).ring = s.ring := rfl
@[simp] theorem updCap_fabric : (updCap i f s).fabric = s.fabric := rfl
@[simp] theorem updCap_arbor : (updCap i f s).arbor = s.arbor := rfl
@[simp] theorem updCap_eth : (updCap i f s).eth = s.eth := rfl
@[simp] theorem updCap_power : (updCap i f s).power = s.power := rfl
@[simp] theorem updCap_flash : (updCap i f s).flash = s.flash := rfl
@[simp] theorem updCap_boot : (updCap i f s).boot = s.boot := rfl
@[simp] theorem updCap_pins : (updCap i f s).pins = s.pins := rfl
@[simp] theorem updCap_mgmt : (updCap i f s).mgmt = s.mgmt := rfl
@[simp] theorem updCap_trig_owner : (updCap i f s).trig.owner = s.trig.owner := rfl
@[simp] theorem updCap_trig_streams : (updCap i f s).trig.streams = s.trig.streams := rfl
@[simp] theorem updCap_trig_unbound : (updCap i f s).trig.unbound = s.trig.unbound := rfl
@[simp] theorem updCap_trig_lanes : (updCap i f s).trig.lanes = s.trig.lanes := rfl
@[simp] theorem updCap_trig_decEnableReg : (updCap i f s).trig.decEnableReg = s.trig.decEnableReg := rfl
@[simp] theorem updCap_trig_decQueueReg : (updCap i f s).trig.decQueueReg = s.trig.decQueueReg := rfl
@[simp] theorem updCap_trig_decEnable : (updCap i f s).trig.decEnable = s.trig.decEnable := rfl
@[simp] theorem updCap_trig_decQueue : (updCap i f s).trig.decQueue = s.trig.decQueue := rfl
@[simp] theorem updCap_trig_nan : (updCap i f s).trig.nan = s.trig.nan := rfl
@[simp] theorem updCap_trig_poison : (updCap i f s).trig.poison = s.trig.poison := rfl
@[simp] theorem updCap_trig_suppressed : (updCap i f s).trig.suppressed = s.trig.suppressed := rfl
@[simp] theorem updCap_trig_decLost : (updCap i f s).trig.decLost = s.trig.decLost := rfl
@[simp] theorem updCap_trig_capLost : (updCap i f s).trig.capLost = s.trig.capLost := rfl
@[simp] theorem updCap_trig_chans : (updCap i f s).trig.chans = s.trig.chans := rfl
@[simp] theorem updCap_trig_outs : (updCap i f s).trig.outs = s.trig.outs := rfl
@[simp] theorem updCap_trig_pins : (updCap i f s).trig.pins = s.trig.pins := rfl
@[simp] theorem updCap_trig_waiting : (updCap i f s).trig.waiting = s.trig.waiting := rfl
@[simp] theorem updCap_trig_ended : (updCap i f s).trig.ended = s.trig.ended := rfl
@[simp] theorem updCap_trig_records : (updCap i f s).trig.records = s.trig.records := rfl

@[simp] theorem getCap_updCap (j : Nat) : getCap (updCap i f s) j = if j = i then f (getCap s i) else getCap s j := by
  simp [getCap, updCap]

end

/-! ### updPmbus -/

section

variable (s : State) (f : Pmbus → Pmbus)

@[simp] theorem updPmbus_pending : (updPmbus f s).pending = s.pending := rfl
@[simp] theorem updPmbus_part : (updPmbus f s).part = s.part := rfl
@[simp] theorem updPmbus_fresh : (updPmbus f s).fresh = s.fresh := rfl
@[simp] theorem updPmbus_clk : (updPmbus f s).clk = s.clk := rfl
@[simp] theorem updPmbus_time : (updPmbus f s).time = s.time := rfl
@[simp] theorem updPmbus_host : (updPmbus f s).host = s.host := rfl
@[simp] theorem updPmbus_canopy : (updPmbus f s).canopy = s.canopy := rfl
@[simp] theorem updPmbus_vaults : (updPmbus f s).vaults = s.vaults := rfl
@[simp] theorem updPmbus_queues : (updPmbus f s).queues = s.queues := rfl
@[simp] theorem updPmbus_ring : (updPmbus f s).ring = s.ring := rfl
@[simp] theorem updPmbus_fabric : (updPmbus f s).fabric = s.fabric := rfl
@[simp] theorem updPmbus_arbor : (updPmbus f s).arbor = s.arbor := rfl
@[simp] theorem updPmbus_trig : (updPmbus f s).trig = s.trig := rfl
@[simp] theorem updPmbus_eth : (updPmbus f s).eth = s.eth := rfl
@[simp] theorem updPmbus_power : (updPmbus f s).power = s.power := rfl
@[simp] theorem updPmbus_flash : (updPmbus f s).flash = s.flash := rfl
@[simp] theorem updPmbus_boot : (updPmbus f s).boot = s.boot := rfl
@[simp] theorem updPmbus_pins : (updPmbus f s).pins = s.pins := rfl
@[simp] theorem updPmbus_mgmt_jtag : (updPmbus f s).mgmt.jtag = s.mgmt.jtag := rfl

end

/-! ### updJtag -/

section

variable (s : State) (f : Jtag → Jtag)

@[simp] theorem updJtag_pending : (updJtag f s).pending = s.pending := rfl
@[simp] theorem updJtag_part : (updJtag f s).part = s.part := rfl
@[simp] theorem updJtag_fresh : (updJtag f s).fresh = s.fresh := rfl
@[simp] theorem updJtag_clk : (updJtag f s).clk = s.clk := rfl
@[simp] theorem updJtag_time : (updJtag f s).time = s.time := rfl
@[simp] theorem updJtag_host : (updJtag f s).host = s.host := rfl
@[simp] theorem updJtag_canopy : (updJtag f s).canopy = s.canopy := rfl
@[simp] theorem updJtag_vaults : (updJtag f s).vaults = s.vaults := rfl
@[simp] theorem updJtag_queues : (updJtag f s).queues = s.queues := rfl
@[simp] theorem updJtag_ring : (updJtag f s).ring = s.ring := rfl
@[simp] theorem updJtag_fabric : (updJtag f s).fabric = s.fabric := rfl
@[simp] theorem updJtag_arbor : (updJtag f s).arbor = s.arbor := rfl
@[simp] theorem updJtag_trig : (updJtag f s).trig = s.trig := rfl
@[simp] theorem updJtag_eth : (updJtag f s).eth = s.eth := rfl
@[simp] theorem updJtag_power : (updJtag f s).power = s.power := rfl
@[simp] theorem updJtag_flash : (updJtag f s).flash = s.flash := rfl
@[simp] theorem updJtag_boot : (updJtag f s).boot = s.boot := rfl
@[simp] theorem updJtag_pins : (updJtag f s).pins = s.pins := rfl
@[simp] theorem updJtag_mgmt_pmbus : (updJtag f s).mgmt.pmbus = s.mgmt.pmbus := rfl

end

/-! ### Reset -/

theorem reset_pending : State.reset.pending = [] := rfl

theorem reset_mem_wf : Memory.wf State.reset.vaults.mem = true := rfl

/-- Distinct logical tiles have distinct indexes. -/
theorem tileKey_inj (c r c2 r2 : Nat) (h : r < 512) (h2 : r2 < 512) : tileKey c r = tileKey c2 r2 ↔ c = c2 ∧ r = r2 := by
  unfold tileKey; omega

end Sys2Proof.Laws
end

