-- ==== Sys2Proof/Laws/Ops.lean ====
section
/-! SUPPORT. What each shared operation does, said once: a command's stop, events, completions, stopping a partition and raising a fault. -/

namespace Sys2Proof.Laws

open Sys2Proof Sys2Proof.Machine Sys2Proof.Safety

/-- A command with a unit operand goes on exactly where the unit exists. -/
theorem guardUnit_next {ok : Bool} {t u : State} : guardUnit ok t = .next u ↔ ok = true ∧ t = u := by
  unfold guardUnit
  split <;> simp_all

/-- A session with one more event: queued while fewer than 256 wait, else counted as lost (R338, R341). -/
def posted (code : Nat) (data : List Byte) (s : State) (x : Session) : Session :=
  if (x.outbox.filter OutItem.isEvent).length < 256 then
    { x with nextSeq := x.nextSeq + 1
             outbox := x.outbox ++ [.event { code := code, seq := x.nextSeq, sec := s.time.sec, ns := s.time.ns, data := padTo 32 data }] }
  else { x with nextSeq := x.nextSeq + 1, eventsLost := satAdd x.eventsLost 1 }

/-- An event for a session changes that session alone, if it is open. -/
theorem postEvent_eq (i code : Nat) (data : List Byte) (s : State) :
    postEvent i code data s = if (getSession s i).isOpen then updSession i (posted code data s) s else s := rfl

/-- What every session is after an event for one of them. -/
theorem getSession_postEvent (i code : Nat) (data : List Byte) (s : State) (j : Nat) :
    getSession (postEvent i code data s) j =
      if j = i ∧ (getSession s i).isOpen = true then posted code data s (getSession s i) else getSession s j := by
  rw [postEvent_eq]
  split
  · rw [getSession_updSession]
    simp [*]
  · simp [*]

/-- An event changes nothing but sessions. -/
theorem postEvent_frame (i code : Nat) (data : List Byte) (s : State) :
    postEvent i code data s = { s with host := { s.host with sessions := (postEvent i code data s).host.sessions } } := by
  rw [postEvent_eq]
  split <;> rfl

/-- An event for an owner changes nothing but sessions. -/
theorem postOwner_frame (o : Option Nat) (code : Nat) (data : List Byte) (s : State) :
    postOwner o code data s = { s with host := { s.host with sessions := (postOwner o code data s).host.sessions } } := by
  cases o with
  | none => rfl
  | some i => exact postEvent_frame i code data s

/-- Events for a list of sessions change nothing but sessions. -/
theorem postEvents_frame (l : List Nat) (code : Nat) (data : List Byte) (s : State) :
    l.foldl (fun s i => postEvent i code data s) s =
      { s with host := { s.host with sessions := (l.foldl (fun s i => postEvent i code data s) s).host.sessions } } := by
  induction l generalizing s with
  | nil => rfl
  | cons i l ih =>
    rw [List.foldl_cons, ih, postEvent_frame]

/-- An event for every session changes nothing but sessions. -/
theorem postAll_frame (code : Nat) (data : List Byte) (s : State) :
    postAll code data s = { s with host := { s.host with sessions := (postAll code data s).host.sessions } } := by
  unfold postAll
  exact postEvents_frame (List.range 8) code data s

/-- A completion, in full: of no command in flight, or of one already complete, nothing; else the command is complete at the
present cycle with the reply that its ABORT leaves it, its terminal reply waits in its session's output after what waits there
already, and an ABORT it was faster than answers LATE (R337, R348). -/
theorem complete_cases (id : Nat) (r : Reply) (s : State) :
    (findFlight s id = none ∧ complete id r s = s) ∨
    (∃ f, findFlight s id = some f ∧ f.phase.isDone = true ∧ complete id r s = s) ∨
    ∃ f, findFlight s id = some f ∧ f.phase.isDone = false ∧
      complete id r s = updSession f.pkt.session.toNat (fun x => { x with outbox := x.outbox ++ [.terminal id] })
        (updFlight id (fun g => { g with phase := .done s.clk.cclk (f.settled s.clk.cclk (s.host.flights.any (fun g => g.abortsIn s.clk.cclk id)) r) })
          (if (f.settled s.clk.cclk (s.host.flights.any (fun g => g.abortsIn s.clk.cclk id)) r).abortLate then abortsLate id s else s)) := by
  unfold complete
  cases h : findFlight s id with
  | none => exact .inl ⟨rfl, rfl⟩
  | some f =>
    cases hf : f.phase.isDone with
    | true => exact .inr (.inl ⟨f, rfl, hf, by simp [hf]⟩)
    | false =>
      refine .inr (.inr ⟨f, rfl, hf, ?_⟩)
      simp only [hf, Bool.false_eq_true, if_false]
      split <;> rfl

/-- A completion changes nothing but sessions' outputs and the commands in flight. -/
theorem complete_frame (id : Nat) (r : Reply) (s : State) :
    complete id r s = { s with host := { s.host with
      sessions := (complete id r s).host.sessions, flights := (complete id r s).host.flights } } := by
  obtain ⟨_, e⟩ | ⟨_, _, _, e⟩ | ⟨f, _, _, e⟩ := complete_cases id r s
  · rw [e]
  · rw [e]
  · rw [e]
    split <;> rfl

/-- Stopping a partition changes that partition alone. -/
theorem getPart_stopPartition (p : Nat) (s : State) (q : Nat) (h : q ≠ p) : getPart (stopPartition p s) q = getPart s q := by
  unfold stopPartition
  rw [getPart_updPart, if_neg h]

/-- After a change of the contexts listed, one by one. -/
theorem ctx_foldl_updCtx (g : Ctx → Ctx) (l : List Nat) (x : Partition) (c : Nat) (hl : l.Nodup) :
    (l.foldl (fun x c => x.updCtx c g) x).ctx c = if c ∈ l then g (x.ctx c) else x.ctx c := by
  induction l generalizing x with
  | nil => simp
  | cons d l ih =>
    have hd := List.nodup_cons.mp hl
    rw [List.foldl_cons, ih _ hd.2]
    have e : (x.updCtx d g).ctx c = if c = d then g (x.ctx d) else x.ctx c := table_get_upd _ _ _ _ _
    rw [e]
    by_cases hc : c = d
    · subst hc
      simp [hd.1]
    · simp [hc]

/-- After a change of the contexts listed nothing else of the partition has changed. -/
theorem foldl_updCtx_frame (g : Ctx → Ctx) (l : List Nat) (x : Partition) :
    l.foldl (fun x c => x.updCtx c g) x = { x with ctxs := (l.foldl (fun x c => x.updCtx c g) x).ctxs } := by
  induction l generalizing x with
  | nil => rfl
  | cons d l ih =>
    rw [List.foldl_cons, ih]
    rfl

/-- What a stop leaves of a context: one that ran or drained is LOADED, and may still issue in this cycle (R163). -/
theorem ctx_stopPartition (p : Nat) (s : State) (c : Nat) (h : c < 4) :
    (getPart (stopPartition p s) p).ctx c =
      if ((getPart s p).ctx c).state.issues then
        { (getPart s p).ctx c with state := .loaded, tail := some s.canopy.now, drainEnd := none }
      else (getPart s p).ctx c := by
  unfold stopPartition
  rw [getPart_updPart]
  simp only [if_true]
  have e := ctx_foldl_updCtx
    (fun k : Ctx => if k.state.issues then { k with state := .loaded, tail := some s.canopy.now, drainEnd := none } else k)
    (List.range 4) (getPart s p) c List.nodup_range
  have m : c ∈ List.range 4 := List.mem_range.mpr h
  simp only [m, if_true] at e
  generalize List.range 4 = l at e ⊢
  exact e

/-- Steps that each change nothing but the command engine, one after another. -/
theorem foldl_frame {α : Type} (f : State → α → State) (hf : ∀ s x, f s x = { s with host := (f s x).host }) (l : List α) (s : State) :
    l.foldl f s = { s with host := (l.foldl f s).host } := by
  induction l generalizing s with
  | nil => rfl
  | cons x l ih =>
    rw [List.foldl_cons, ih, hf]

/-- Steps that each change nothing but the partitions and the command engine, one after another. -/
theorem foldl_frame_parts {α : Type} (f : State → α → State)
    (hf : ∀ s x, f s x = { s with canopy := { s.canopy with parts := (f s x).canopy.parts }, host := (f s x).host }) (l : List α) (s : State) :
    l.foldl f s = { s with canopy := { s.canopy with parts := (l.foldl f s).canopy.parts }, host := (l.foldl f s).host } := by
  induction l generalizing s with
  | nil => rfl
  | cons x l ih =>
    rw [List.foldl_cons, ih, hf]

/-- Ending the drains of a partition changes nothing but the partitions and the command engine. -/
theorem endDrains_frame (p : Nat) (s : State) :
    endDrains p s = { s with canopy := { s.canopy with parts := (endDrains p s).canopy.parts }, host := (endDrains p s).host } := by
  refine foldl_frame_parts _ (fun s f => ?_) _ s
  split
  · split
    · simp only
      rw [complete_frame]
      rfl
    · simp only
      rw [complete_frame]
  · rfl

/-- A fault changes nothing but the partitions and the command engine (R163). -/
theorem raiseFault_frame (p code col row rc index : Nat) (detail : W32) (others : List Nat) (count : Bool) (s : State) :
    raiseFault p code col row rc index detail others count s =
      { s with canopy := { s.canopy with parts := (raiseFault p code col row rc index detail others count s).canopy.parts }
               host := (raiseFault p code col row rc index detail others count s).host } := by
  obtain ⟨f, c, e⟩ : ∃ (f : Partition → Partition) (c : Bool), raiseFault p code col row rc index detail others count s =
      endDrains p (updPart p f (if c then stopPartition p s else s)) := ⟨_, _, rfl⟩
  rw [e, endDrains_frame]
  cases c <;> rfl

end Sys2Proof.Laws
end

