-- ==== Sys2Proof/Laws/PerInstr.lean ====
section
/-! SUPPORT. A property of every command as it is written, one lemma per constructor: a command whose operands name units of a part
names units of one with more memory dies. -/

namespace Sys2Proof.Laws.Larger

open Sys2Proof

/-- The operands name units of a part with as many dies a stack, or more (R2, R3). -/
def Statement (i : Instr) : Prop := ∀ d e : Nat, d ≤ e → i.units d = true → i.units e = true

theorem nop (p : Packet) : Statement (.nop p) := fun _ _ _ h => h
theorem identify (p : Packet) : Statement (.identify p) := fun _ _ _ h => h
theorem getStatus (p : Packet) : Statement (.getStatus p) := fun _ _ _ h => h
theorem openSession (p : Packet) : Statement (.openSession p) := fun _ _ _ h => h
theorem closeSession (p : Packet) : Statement (.closeSession p) := fun _ _ _ h => h
theorem resetDomain (p : Packet) : Statement (.resetDomain p) := fun _ _ _ h => h
theorem readCsr (p : Packet) : Statement (.readCsr p) := fun _ _ _ h => h
theorem writeCsr (p : Packet) : Statement (.writeCsr p) := fun _ _ _ h => h
theorem selectProfile (p : Packet) : Statement (.selectProfile p) := fun _ _ _ h => h
theorem readProfile (p : Packet) : Statement (.readProfile p) := fun _ _ _ h => h
theorem writeProfile (p : Packet) : Statement (.writeProfile p) := fun _ _ _ h => h
theorem loadImage (p : Packet) : Statement (.loadImage p) := fun _ _ _ h => h
theorem unloadContext (p : Packet) : Statement (.unloadContext p) := fun _ _ _ h => h
theorem start (p : Packet) : Statement (.start p) := fun _ _ _ h => h
theorem stop (p : Packet) : Statement (.stop p) := fun _ _ _ h => h
theorem abort (p : Packet) : Statement (.abort p) := fun _ _ _ h => h
theorem step (p : Packet) : Statement (.step p) := fun _ _ _ h => h
theorem drain (p : Packet) : Statement (.drain p) := fun _ _ _ h => h
theorem memRead (p : Packet) : Statement (.memRead p) := fun _ _ _ h => h
theorem memWrite (p : Packet) : Statement (.memWrite p) := fun _ _ _ h => h
theorem memFill (p : Packet) : Statement (.memFill p) := fun _ _ _ h => h
theorem scrub (p : Packet) : Statement (.scrub p) := fun _ _ _ h => h
theorem sqConfig (p : Packet) : Statement (.sqConfig p) := fun _ _ _ h => h
theorem sqWrite (p : Packet) : Statement (.sqWrite p) := fun _ _ _ h => h
theorem sqRead (p : Packet) : Statement (.sqRead p) := fun _ _ _ h => h
theorem sqMark (p : Packet) : Statement (.sqMark p) := fun _ _ _ h => h
theorem sqRewind (p : Packet) : Statement (.sqRewind p) := fun _ _ _ h => h
theorem sqRelease (p : Packet) : Statement (.sqRelease p) := fun _ _ _ h => h
theorem sqFlush (p : Packet) : Statement (.sqFlush p) := fun _ _ _ h => h
theorem sqReset (p : Packet) : Statement (.sqReset p) := fun _ _ _ h => h
theorem arbLoad (p : Packet) : Statement (.arbLoad p) := fun _ _ _ h => h
theorem arbRead (p : Packet) : Statement (.arbRead p) := fun _ _ _ h => h
theorem arbVerify (p : Packet) : Statement (.arbVerify p) := fun _ _ _ h => h
theorem arbTcamLoad (p : Packet) : Statement (.arbTcamLoad p) := fun _ _ _ h => h
theorem arbEnsemble (p : Packet) : Statement (.arbEnsemble p) := fun _ _ _ h => h
theorem arbMode (p : Packet) : Statement (.arbMode p) := fun _ _ _ h => h
theorem arbEval (p : Packet) : Statement (.arbEval p) := fun _ _ _ h => h
theorem streamConfig (p : Packet) : Statement (.streamConfig p) := fun _ _ _ h => h
theorem trigArm (p : Packet) : Statement (.trigArm p) := fun _ _ _ h => h
theorem trigDisarm (p : Packet) : Statement (.trigDisarm p) := fun _ _ _ h => h
theorem trigRearm (p : Packet) : Statement (.trigRearm p) := fun _ _ _ h => h
theorem macConfig (p : Packet) : Statement (.macConfig p) := fun _ _ _ h => h
theorem macFilter (p : Packet) : Statement (.macFilter p) := fun _ _ _ h => h
theorem gateListLoad (p : Packet) : Statement (.gateListLoad p) := fun _ _ _ h => h
theorem extractConfig (p : Packet) : Statement (.extractConfig p) := fun _ _ _ h => h
theorem templateLoad (p : Packet) : Statement (.templateLoad p) := fun _ _ _ h => h
theorem replyConfig (p : Packet) : Statement (.replyConfig p) := fun _ _ _ h => h
theorem countersRead (p : Packet) : Statement (.countersRead p) := fun _ _ _ h => h
theorem fportPower (p : Packet) : Statement (.fportPower p) := fun _ _ _ h => h
theorem laneControl (p : Packet) : Statement (.laneControl p) := fun _ _ _ h => h
theorem fabricConfig (p : Packet) : Statement (.fabricConfig p) := fun _ _ _ h => h
theorem reduceGroup (p : Packet) : Statement (.reduceGroup p) := fun _ _ _ h => h
theorem timeRead (p : Packet) : Statement (.timeRead p) := fun _ _ _ h => h
theorem timeSet (p : Packet) : Statement (.timeSet p) := fun _ _ _ h => h
theorem timeStep (p : Packet) : Statement (.timeStep p) := fun _ _ _ h => h
theorem timeAdjFreq (p : Packet) : Statement (.timeAdjFreq p) := fun _ _ _ h => h
theorem timeInvalidate (p : Packet) : Statement (.timeInvalidate p) := fun _ _ _ h => h
theorem timeSource (p : Packet) : Statement (.timeSource p) := fun _ _ _ h => h
theorem ptpPortConfig (p : Packet) : Statement (.ptpPortConfig p) := fun _ _ _ h => h
theorem ppsConfig (p : Packet) : Statement (.ppsConfig p) := fun _ _ _ h => h
theorem powerStop (p : Packet) : Statement (.powerStop p) := fun _ _ _ h => h
theorem marginReplan (p : Packet) : Statement (.marginReplan p) := fun _ _ _ h => h
theorem healthTest (p : Packet) : Statement (.healthTest p) := fun _ _ _ h => h
theorem columnFail (p : Packet) : Statement (.columnFail p) := fun _ _ _ h => h
theorem attest (p : Packet) : Statement (.attest p) := fun _ _ _ h => h
theorem getCert (p : Packet) : Statement (.getCert p) := fun _ _ _ h => h
theorem fwUpdate (p : Packet) : Statement (.fwUpdate p) := fun _ _ _ h => h
theorem fwRecover (p : Packet) : Statement (.fwRecover p) := fun _ _ _ h => h
theorem safeModelStore (p : Packet) : Statement (.safeModelStore p) := fun _ _ _ h => h
theorem ringStart (p : Packet) : Statement (.ringStart p) := fun _ _ _ h => h
theorem ringStop (p : Packet) : Statement (.ringStop p) := fun _ _ _ h => h
theorem ringRead (p : Packet) : Statement (.ringRead p) := fun _ _ _ h => h
theorem ringSealRead (p : Packet) : Statement (.ringSealRead p) := fun _ _ _ h => h
theorem foldRead (p : Packet) : Statement (.foldRead p) := fun _ _ _ h => h
theorem cmdMalformed (body : List Byte) : Statement (.cmdMalformed body) := fun _ _ _ h => h
theorem unknownOpcode (opcode : BitVec 16) (p : Packet) : Statement (.unknownOpcode opcode p) := fun _ _ _ h => h
theorem uartFrame (bytes : List Byte) : Statement (.uartFrame bytes) := fun _ _ _ h => h
theorem terminalReply (id : Nat) : Statement (.terminalReply id) := fun _ _ _ h => h
theorem longOperationStep (id : Nat) (found : List Nat) : Statement (.longOperationStep id found) := fun _ _ _ h => h
theorem canopyCommandApply (id : Nat) : Statement (.canopyCommandApply id) := fun _ _ _ h => h
theorem faultStatusClear (part : Nat) : Statement (.faultStatusClear part) := fun _ _ _ h => h
theorem poisonSeenClear (q : Nat) : Statement (.poisonSeenClear q) := fun _ _ _ h => h
theorem ctrlRejectedClear (q : Nat) : Statement (.ctrlRejectedClear q) := fun _ _ _ h => h
theorem overrunClear (q : Nat) : Statement (.overrunClear q) := fun _ _ _ h => h
theorem refusedClear : Statement (.refusedClear) := fun _ _ _ h => h
theorem samplerEnable (part : Nat) (on : Bool) : Statement (.samplerEnable part on) := fun _ _ _ h => h
theorem scrubEnable (on : Bool) : Statement (.scrubEnable on) := fun _ _ _ h => h
theorem ppsCfgEnable (on : Bool) : Statement (.ppsCfgEnable on) := fun _ _ _ h => h
theorem laneSlipGo (port : Nat) (lane : Nat) (offset : Nat) : Statement (.laneSlipGo port lane offset) := fun _ _ _ h => h
theorem laneSlipTestDone (port : Nat) (lane : Nat) (bits : BitVec 2312) : Statement (.laneSlipTestDone port lane bits) := fun _ _ _ h => h
theorem nopInstr (col : Nat) (row : Nat) : Statement (.nopInstr col row) := fun _ _ _ h => h
theorem switch (col : Nat) (row : Nat) : Statement (.switch col row) := fun _ _ _ h => h
theorem wait (col : Nat) (row : Nat) : Statement (.wait col row) := fun _ _ _ h => h
theorem waitConditionMet (col : Nat) (row : Nat) : Statement (.waitConditionMet col row) := fun _ _ _ h => h
theorem waitBoundExpiry (col : Nat) (row : Nat) : Statement (.waitBoundExpiry col row) := fun _ _ _ h => h
theorem loop (col : Nat) (row : Nat) : Statement (.loop col row) := fun _ _ _ h => h
theorem foldCut (col : Nat) (row : Nat) : Statement (.foldCut col row) := fun _ _ _ h => h
theorem seqset (col : Nat) (row : Nat) : Statement (.seqset col row) := fun _ _ _ h => h
theorem vadd (col : Nat) (row : Nat) : Statement (.vadd col row) := fun _ _ _ h => h
theorem vsub (col : Nat) (row : Nat) : Statement (.vsub col row) := fun _ _ _ h => h
theorem vmul (col : Nat) (row : Nat) : Statement (.vmul col row) := fun _ _ _ h => h
theorem vfma (col : Nat) (row : Nat) : Statement (.vfma col row) := fun _ _ _ h => h
theorem vmin (col : Nat) (row : Nat) : Statement (.vmin col row) := fun _ _ _ h => h
theorem vmax (col : Nat) (row : Nat) : Statement (.vmax col row) := fun _ _ _ h => h
theorem vfn (col : Nat) (row : Nat) : Statement (.vfn col row) := fun _ _ _ h => h
theorem vcvt (col : Nat) (row : Nat) : Statement (.vcvt col row) := fun _ _ _ h => h
theorem iadd (col : Nat) (row : Nat) : Statement (.iadd col row) := fun _ _ _ h => h
theorem isub (col : Nat) (row : Nat) : Statement (.isub col row) := fun _ _ _ h => h
theorem and (col : Nat) (row : Nat) : Statement (.and col row) := fun _ _ _ h => h
theorem or (col : Nat) (row : Nat) : Statement (.or col row) := fun _ _ _ h => h
theorem xor (col : Nat) (row : Nat) : Statement (.xor col row) := fun _ _ _ h => h
theorem shl (col : Nat) (row : Nat) : Statement (.shl col row) := fun _ _ _ h => h
theorem shr (col : Nat) (row : Nat) : Statement (.shr col row) := fun _ _ _ h => h
theorem sar (col : Nat) (row : Nat) : Statement (.sar col row) := fun _ _ _ h => h
theorem fcmp (col : Nat) (row : Nat) : Statement (.fcmp col row) := fun _ _ _ h => h
theorem icmp (col : Nat) (row : Nat) : Statement (.icmp col row) := fun _ _ _ h => h
theorem select (col : Nat) (row : Nat) : Statement (.select col row) := fun _ _ _ h => h
theorem mov (col : Nat) (row : Nat) : Statement (.mov col row) := fun _ _ _ h => h
theorem send (col : Nat) (row : Nat) : Statement (.send col row) := fun _ _ _ h => h
theorem ldv (col : Nat) (row : Nat) : Statement (.ldv col row) := fun _ _ _ h => h
theorem stv (col : Nat) (row : Nat) : Statement (.stv col row) := fun _ _ _ h => h
theorem dot (col : Nat) (row : Nat) : Statement (.dot col row) := fun _ _ _ h => h
theorem dotBlock (col : Nat) (row : Nat) : Statement (.dotBlock col row) := fun _ _ _ h => h
theorem mxcvt (col : Nat) (row : Nat) : Statement (.mxcvt col row) := fun _ _ _ h => h
theorem mxexp (col : Nat) (row : Nat) : Statement (.mxexp col row) := fun _ _ _ h => h
theorem lateResult (col : Nat) (row : Nat) : Statement (.lateResult col row) := fun _ _ _ h => h
theorem tokenArrival (col : Nat) (row : Nat) (dir : Nat) (parityOk : Bool) : Statement (.tokenArrival col row dir parityOk) := fun _ _ _ h => h
theorem passTokenDepart (col : Nat) (row : Nat) (dir : Nat) (ctx : Nat) : Statement (.passTokenDepart col row dir ctx) := fun _ _ _ h => h
theorem creditReturn (col : Nat) (row : Nat) (dir : Nat) : Statement (.creditReturn col row dir) := fun _ _ _ h => h
theorem vaultService (col : Nat) (row : Nat) : Statement (.vaultService col row) := fun _ _ _ h => h
theorem vaultLoadReturn (col : Nat) (row : Nat) : Statement (.vaultLoadReturn col row) := fun _ _ _ h => h
theorem refresh (vault : Nat) (bank : Nat) (die : Nat) (row : Nat) : Statement (.refresh vault bank die row) := by
  intro d e h hu
  simp only [Instr.units, Bool.and_eq_true, decide_eq_true_eq] at hu ⊢
  omega
theorem scrubVisit : Statement (.scrubVisit) := fun _ _ _ h => h
theorem rowRepairCopy : Statement (.rowRepairCopy) := fun _ _ _ h => h
theorem sqCellToRegion (q : Nat) : Statement (.sqCellToRegion q) := fun _ _ _ h => h
theorem sqCellToHead (q : Nat) : Statement (.sqCellToHead q) := fun _ _ _ h => h
theorem sqDataToken (q : Nat) : Statement (.sqDataToken q) := fun _ _ _ h => h
theorem sqControlWord (q : Nat) : Statement (.sqControlWord q) := fun _ _ _ h => h
theorem sqReadDelivery (q : Nat) (parityOk : Bool) : Statement (.sqReadDelivery q parityOk) := fun _ _ _ h => h
theorem samplerSnapshot (part : Nat) : Statement (.samplerSnapshot part) := fun _ _ _ h => h
theorem deadlockDetect (part : Nat) : Statement (.deadlockDetect part) := fun _ _ _ h => h
theorem deadlockReinject (col : Nat) (row : Nat) (dir : Nat) : Statement (.deadlockReinject col row dir) := fun _ _ _ h => h
theorem drainEmpty (part : Nat) (ctx : Nat) : Statement (.drainEmpty part ctx) := fun _ _ _ h => h
theorem drainLimit (part : Nat) (ctx : Nat) : Statement (.drainLimit part ctx) := fun _ _ _ h => h
theorem stepEnd (part : Nat) : Statement (.stepEnd part) := fun _ _ _ h => h
theorem partitionQuiescent (part : Nat) : Statement (.partitionQuiescent part) := fun _ _ _ h => h
theorem reduceBlockEntry (channel : Nat) : Statement (.reduceBlockEntry channel) := fun _ _ _ h => h
theorem reducePass1Up (channel : Nat) : Statement (.reducePass1Up channel) := fun _ _ _ h => h
theorem reducePass2Up (channel : Nat) : Statement (.reducePass2Up channel) := fun _ _ _ h => h
theorem reducePass1Down (channel : Nat) : Statement (.reducePass1Down channel) := fun _ _ _ h => h
theorem reducePass2Down (channel : Nat) : Statement (.reducePass2Down channel) := fun _ _ _ h => h
theorem ringRecordWrite : Statement (.ringRecordWrite) := fun _ _ _ h => h
theorem arbSampleToken (first : Nat) : Statement (.arbSampleToken first) := fun _ _ _ h => h
theorem arbSampleStart (first : Nat) : Statement (.arbSampleStart first) := fun _ _ _ h => h
theorem arbResult (first : Nat) : Statement (.arbResult first) := fun _ _ _ h => h
theorem streamFrameEnd (lane : Nat) (start : StreamBlock) (header : StreamBlock) (words : List StreamBlock) (finish : StreamBlock) (since : Nat) : Statement (.streamFrameEnd lane start header words finish since) := fun _ _ _ h => h
theorem streamDelivery (endpoint : Nat) : Statement (.streamDelivery endpoint) := fun _ _ _ h => h
theorem trigScoreToken (channel : Nat) : Statement (.trigScoreToken channel) := fun _ _ _ h => h
theorem trigInChange (pin : Nat) (level : Bool) (since : Nat) : Statement (.trigInChange pin level since) := fun _ _ _ h => h
theorem trigOutputDecide (out : Nat) : Statement (.trigOutputDecide out) := fun _ _ _ h => h
theorem trigOutPulseEnd (out : Nat) : Statement (.trigOutPulseEnd out) := fun _ _ _ h => h
theorem captureFreeze (out : Nat) : Statement (.captureFreeze out) := fun _ _ _ h => h
theorem macLinkChange (mac : Nat) (up : Bool) : Statement (.macLinkChange mac up) := fun _ _ _ h => h
theorem macRxVerdict (mac : Nat) (bytes : List Byte) (codeError : Bool) (since : Nat) : Statement (.macRxVerdict mac bytes codeError since) := fun _ _ _ h => h
theorem extractSampleComplete (mac : Nat) (bytes : List Byte) (ended : Bool) (since : Nat) : Statement (.extractSampleComplete mac bytes ended since) := fun _ _ _ h => h
theorem replyReady (mac : Nat) : Statement (.replyReady mac) := fun _ _ _ h => h
theorem replyStart (mac : Nat) : Statement (.replyStart mac) := fun _ _ _ h => h
theorem replyFcsHandover (mac : Nat) : Statement (.replyFcsHandover mac) := fun _ _ _ h => h
theorem txItemReady (mac : Nat) (cls : Nat) : Statement (.txItemReady mac cls) := fun _ _ _ h => h
theorem txFrameStart (mac : Nat) : Statement (.txFrameStart mac) := fun _ _ _ h => h
theorem gateListTakesForce (mac : Nat) : Statement (.gateListTakesForce mac) := fun _ _ _ h => h
theorem gateEntryAdvance (mac : Nat) : Statement (.gateEntryAdvance mac) := fun _ _ _ h => h
theorem alignGroupReceive (port : Nat) (lane : Nat) (group : BitVec 257) (rest : Option (BitVec 5183)) : Statement (.alignGroupReceive port lane group rest) := fun _ _ _ h => h
theorem txCountdownEnd (port : Nat) (lane : Nat) : Statement (.txCountdownEnd port lane) := fun _ _ _ h => h
theorem txDeafTimeout (port : Nat) : Statement (.txDeafTimeout port) := fun _ _ _ h => h
theorem fomWindow (port : Nat) (lane : Nat) (fom : Nat) : Statement (.fomWindow port lane fom) := fun _ _ _ h => h
theorem laneLost (port : Nat) (lane : Nat) (cause : Nat) : Statement (.laneLost port lane cause) := fun _ _ _ h => h
theorem flitReceive (port : Nat) (lane : Nat) (slot : Nat) (groups : BitVec 5140) (parity : BitVec 300) (next : Option (BitVec 5440)) : Statement (.flitReceive port lane slot groups parity next) := fun _ _ _ h => h
theorem nakRepeat (port : Nat) : Statement (.nakRepeat port) := fun _ _ _ h => h
theorem retryTimeout (port : Nat) : Statement (.retryTimeout port) := fun _ _ _ h => h
theorem portDownFlush (port : Nat) : Statement (.portDownFlush port) := fun _ _ _ h => h
theorem deepDrainDone (port : Nat) : Statement (.deepDrainDone port) := fun _ _ _ h => h
theorem deepDrainTimeout (port : Nat) : Statement (.deepDrainTimeout port) := fun _ _ _ h => h
theorem activityWake (port : Nat) : Statement (.activityWake port) := fun _ _ _ h => h
theorem fabricPacket (port : Nat) (vc : Nat) : Statement (.fabricPacket port vc) := fun _ _ _ h => h
theorem secondCarry : Statement (.secondCarry) := fun _ _ _ h => h
theorem ppsOutEnd : Statement (.ppsOutEnd) := fun _ _ _ h => h
theorem ppsInEdge : Statement (.ppsInEdge) := fun _ _ _ h => h
theorem refLost : Statement (.refLost) := fun _ _ _ h => h
theorem pllLock : Statement (.pllLock) := fun _ _ _ h => h
theorem governorSample (rails : List (Nat × Nat)) (maxC : Nat) : Statement (.governorSample rails maxC) := fun _ _ _ h => h
theorem emergencyStopEnd : Statement (.emergencyStopEnd) := fun _ _ _ h => h
theorem vcoreWarning (mv : Nat) : Statement (.vcoreWarning mv) := fun _ _ _ h => h
theorem pauseEnd (mv : Nat) : Statement (.pauseEnd mv) := fun _ _ _ h => h
theorem supplyReset (rail : Nat) (mv : Nat) : Statement (.supplyReset rail mv) := fun _ _ _ h => h
theorem supplyResetHoldEnd : Statement (.supplyResetHoldEnd) := fun _ _ _ h => h
theorem thermalTrip (maxC : Nat) : Statement (.thermalTrip maxC) := fun _ _ _ h => h
theorem ageingMeasure (periods : List Nat) : Statement (.ageingMeasure periods) := fun _ _ _ h => h
theorem autoReplan : Statement (.autoReplan) := fun _ _ _ h => h
theorem avsAck : Statement (.avsAck) := fun _ _ _ h => h
theorem avsRetry : Statement (.avsRetry) := fun _ _ _ h => h
theorem graftApply (copy : GraftStep) : Statement (.graftApply copy) := fun _ _ _ h => h
theorem bayRetire (bay : Nat) : Statement (.bayRetire bay) := fun _ _ _ h => h
theorem resetNAssert : Statement (.resetNAssert) := fun _ _ _ h => h
theorem resetTakesEffect : Statement (.resetTakesEffect) := fun _ _ _ h => h
theorem resetNRelease (sel : BitVec 2) (addr : BitVec 3) (pwrGood : Bool) : Statement (.resetNRelease sel addr pwrGood) := fun _ _ _ h => h
theorem pwrGoodLow : Statement (.pwrGoodLow) := fun _ _ _ h => h
theorem bootStep (report : BootReport) : Statement (.bootStep report) := fun _ _ _ h => h
theorem bootReady : Statement (.bootReady) := fun _ _ _ h => h
theorem page (write : Option Byte) (pecOk : Bool) : Statement (.page write pecOk) := fun _ _ _ h => h
theorem clearFaults (pecOk : Bool) : Statement (.clearFaults pecOk) := fun _ _ _ h => h
theorem voutMode : Statement (.voutMode) := fun _ _ _ h => h
theorem statusWord : Statement (.statusWord) := fun _ _ _ h => h
theorem readVout : Statement (.readVout) := fun _ _ _ h => h
theorem readIout : Statement (.readIout) := fun _ _ _ h => h
theorem readTemperature1 : Statement (.readTemperature1) := fun _ _ _ h => h
theorem readPout : Statement (.readPout) := fun _ _ _ h => h
theorem pmbusRevision : Statement (.pmbusRevision) := fun _ _ _ h => h
theorem idcode : Statement (.idcode) := fun _ _ _ h => h
theorem samplePreload (pins : BitVec 42) (preload : BitVec 42) : Statement (.samplePreload pins preload) := fun _ _ _ h => h
theorem extest (scan : BoundaryScan) : Statement (.extest scan) := fun _ _ _ h => h
theorem bypass (code : Byte) : Statement (.bypass code) := fun _ _ _ h => h
theorem streamLaneBlockLock (lane : Nat) (headers : List (BitVec 2)) : Statement (.streamLaneBlockLock lane headers) := fun _ _ _ h => h
theorem snapshotDrain (part : Nat) : Statement (.snapshotDrain part) := fun _ _ _ h => h
theorem testLogicReset : Statement (.testLogicReset) := fun _ _ _ h => h
theorem pmbusOtherCommand (code : Byte) (write : Bool) : Statement (.pmbusOtherCommand code write) := fun _ _ _ h => h

end Sys2Proof.Laws.Larger
end

