-- ==== Sys2Proof/Tests/Slice0.lean ====
section
/-! SUPPORT. Tests: ill-formed commands, worked examples of the spec, and for each statement states and operands that meet its
hypotheses, clause by clause. Expected results are the spec's or follow from it by hand. -/

namespace Sys2Proof.Tests

set_option Elab.async false

open Sys2Proof Sys2Proof.Machine Sys2Proof.Safety

/-! ### Small states -/

/-- A device that is ready, with session 0 open over port 32. -/
def ready : State :=
  { boot := { stage := .ready }, host := { sessions := [(0, { isOpen := true, src := 0xFFFF, origin := 32, reserve := 4 })] } }

/-- A command of session 0 with these parameter bytes and this payload. -/
def pk (params : List Byte) (payload : List Byte := []) : Packet :=
  { params := BitVec.ofNat 384 (leNat params), payload := payload, payloadLength := BitVec.ofNat 16 payload.length }

/-- The device with one command in flight, active. -/
def busy (op : Op) (p : Packet) (g : Flight → Flight := id) (s : State := ready) : State :=
  { s with host := { s.host with flights := [g { id := 0, op := op, pkt := p, phase := .active }], nextId := 1 } }

/-- The command of such a state. -/
def only (s : State) : Flight := s.host.flights.headD { id := 0, op := .nop, pkt := {}, phase := .waiting }

/-- A partition of one bay. -/
def part0 : Partition := { valid := true, bays := 1 }

/-- The device with partition 0 as given. -/
def withPart (x : Partition) (s : State := ready) : State := { s with canopy := { s.canopy with parts := [(0, x)] } }

/-- An image whose every tile holds these words. -/
def imageOf (ws : List (BitVec 96)) : Image :=
  { code := [ws], tiles := [{ colFirst := 0, colLast := 31, rowFirst := 0, rowLast := 511, code := 0, route := 0, split := 0, sched := 0 }]
    routes := [8], scheds := [BitVec.allOnes 256] }

/-- Partition 0 runs that image in context 0, in cycle 100. -/
def running (ws : List (BitVec 96)) : State :=
  let s := withPart { part0 with ctxs := [(0, { state := .running, image := imageOf ws })] }
  { s with canopy := { s.canopy with now := 100 } }

/-- An instruction word from its fields, at the places of R110; selectors not given are NONE. -/
def word (opc : Nat) (dst : Nat := 31) (a : Nat := 31) (b : Nat := 31) (c : Nat := 31) (d : Nat := 31) (mode : Nat := 0)
    (addr : Nat := 0) (count : Nat := 0) (imm : Nat := 0) (pred : Nat := 0) (pneg : Nat := 0) : BitVec 96 :=
  BitVec.ofNat 96 (opc * 2 ^ 90 + pred * 2 ^ 87 + pneg * 2 ^ 86 + dst * 2 ^ 81 + a * 2 ^ 76 + b * 2 ^ 71 + c * 2 ^ 66 + d * 2 ^ 61
    + mode * 2 ^ 52 + addr * 2 ^ 42 + count * 2 ^ 35 + imm)

/-- The place of tile (3, 2) in context 0 and cycle 100. -/
def here : At := { p := 0, col := 3, row := 2, c := 0, index := 0, tag := 100 }

/-- Parameters of a memory command on one word. -/
def oneWord : List Byte := leBytes 8 64 ++ leBytes 8 32

/-! ### Worked examples of the spec -/

/-- The example after R17. -/
theorem test_vault_of_tile : vaultOf 417 300 = 13362 ∧ 417 / 32 = 13 := by decide +kernel

/-- The example of the vault address: its fields, its device memory address and its physical vault with grafts at 32. -/
theorem test_word_address :
    bankOf 0x81A35 = 5 ∧ columnOf 0x81A35 = 35 ∧ rowOf 0x81A35 = 6 ∧ dieOf 0x81A35 = 2 ∧ devVault (0x68650346A0 / 32) = 13362 ∧
      devWord (0x68650346A0 / 32) = 0x81A35 ∧ physVault State.reset 13362 = 13778 := by decide +kernel

/-- The example after R378: bay 13 with position 7 failed. -/
theorem test_graft :
    physCol State.reset 440 = 453 ∧ physVault State.reset 14085 = 14501 ∧
    (let s : State := { canopy := { grafts := [(13, { failedPos := 7 })] } }
     physCol s 422 = 435 ∧ physCol s 423 = 437 ∧ physCol s 447 = 461 ∧ physCol s 440 = 454 ∧ physVault s 14085 = 14533 ∧ physCol s 417 = 430) := by
  decide +kernel

/-- The same with the bay retired: 19 bays, and logical column 417 on physical column 463. -/
theorem test_retired_bay :
    let s : State := { canopy := { grafts := [(13, { failedPos := 7, retired := true })] } }
    logicalVaults s = 19456 ∧ physCol s 417 = 463 := by decide +kernel

/-- The example after R90. -/
theorem test_x12 : x12Of 4 0x01 0x7F = 0x010 ∧ x12Of 5 0x7F 0x7F = 0x3FF ∧ x12Of 3 0x7E 0x7F = 0x5F0 ∧ x12Of 3 0x7E 0xFF = 0x800 := by decide +kernel

/-- The example after R92: the block result 2.5, and its addition to 16,777,216.0. -/
theorem test_block_result : blockResult 0 0 0x80 0x7D 0x280E47 0x6771D3 = 0x40200000 ∧ fAdd32 0x4B800000 0x40200000 = 0x4B800001 := by decide +kernel

/-- The first example of R96: COMPUTE mode and RNE. -/
theorem test_mx_convert :
    mxConvert 0 none false (fun _ => 0) ([0x41500000, 0x40A00000, 0xC0E00000, 0x3F000000, 0xBE800000, 0x3FC00000] ++ List.replicate 26 0) =
      { scale := 0x80, codes := [0x7, 0x4, 0xE, 0x0, 0x8, 0x2] ++ List.replicate 26 0, saturated := 1 } := by decide +kernel

/-- The second example of R96: 2.75 under SR on both sides of the draw, and under RNE. -/
theorem test_quant_sr :
    (mxConvertElem 0 0x7F true 0xBFFFFF (fpDec 23 0x40300000)).1 = 5 ∧ (mxConvertElem 0 0x7F true 0xC00000 (fpDec 23 0x40300000)).1 = 4 ∧
      (mxConvertElem 0 0x7F false 0 (fpDec 23 0x40300000)).1 = 5 := by decide +kernel

/-- The example of the tile instruction word: the DOT of context C1 in tile (205, 64). -/
theorem test_dot_fields :
    fieldsOf 0xC00948886404000800000000 =
      { opc := 0x30, pred := 0, pneg := false, dst := 4, a := 20, b := 17, c := 2, d := 3, mode := 0x040, addr := 256, count := 1, imm := 0, ireg := 0, reserved := 0 } := by
  decide +kernel

/-- The CRC-64 check value of R206. -/
theorem test_crc64 : crc64 0 [0x31, 0x32, 0x33, 0x34, 0x35, 0x36, 0x37, 0x38, 0x39] = 0x6C40DF5F0B497347 := by decide +kernel

/-- Tokens of a binary32 block of four elements followed by zeros. -/
def fpBlock (a b c d : Nat) : List SqWord := [{ v := BitVec.ofNat 64 (a + b * 2 ^ 32) }, { v := BitVec.ofNat 64 (c + d * 2 ^ 32) }] ++ List.replicate 14 { v := 0 }

/-- The three devices' blocks of the example after R205. -/
def fpBlock0 : List SqWord := fpBlock 0x40400000 0xBF400000 0x37000000 0x39000000
def fpBlock1 : List SqWord := fpBlock 0xBFA00000 0x40B00000 0x37000000 0x39C00000
def fpBlock2 : List SqWord := fpBlock 0x3F000000 0x80000000 0x37400000 0x39800000

theorem test_block_codes : pass1Code 7 fpBlock0 = 0x0097 ∧ pass1Code 7 fpBlock1 = 0x0098 ∧ pass1Code 7 fpBlock2 = 0x0095 := by decide +kernel

theorem test_block_reduction :
    let own (t : List SqWord) : List Int := alignedOwn { no := 0, desc := 7, tokens := t, code := 0 } 0x0098
    let sums := addSums (own fpBlock2) (addSums (own fpBlock1) (own fpBlock0))
    sums.take 4 = [9216, 19456, 0, 3] ∧ (resultTokens 7 0x0098 sums).take 2 = [{ v := 0x4098000040100000 }, { v := 0x3A40000000000000 }] := by decide +kernel

/-- The node words of the arbor's example: children, and the chain of a leaf. -/
theorem test_node_words :
    nodeNext 0x0000FF0000002000 = [8192, 8193] ∧ nodeNext 0x8000FA0000004000 = [16384] ∧ nodeNext 0x8002FE000003FFFF = [] := by decide +kernel

/-- The fabric's example: from (14, 2, 5, 0) by W+, over the dateline after 15, then by Y+. -/
theorem test_dimension_order :
    let s : State := { fabric := { sizes := 0xFFFF } }
    dimOrder s 0x052E 0x0D21 = some 0 ∧ crosses s 0x052E 0 = false ∧ crosses s 0x052F 0 = true ∧ dimOrder s 0x0521 0x0D21 = some 4 ∧
      crosses s 0x0521 4 = false ∧ dimOrder s 0x0D21 0x0D21 = none := by decide +kernel

/-- The supply levels of the example after R371, with the setpoint at 750 mV. -/
theorem test_supply_levels :
    let s : State := { power := { setpoint := 750 } }
    belowWarning s 704 = true ∧ belowWarning s 705 = false ∧ atRecovery s 720 = true ∧ atRecovery s 719 = false := by decide +kernel

/-- SHA-384 of "abc", as FIPS 180-4 gives it. -/
theorem test_sha384 :
    sha384 [0x61, 0x62, 0x63] = beBytes 48 0xcb00753f45a35e8bb5a03d699ac65007272c32ab0eded1631a8b605a43ff5bed8086072ba1e7cc2358baeca134c825a7 := by
  decide +kernel

/-- The CRC-32 of a frame's FCS, by its check value. -/
theorem test_crc32 : crc32 [0x31, 0x32, 0x33, 0x34, 0x35, 0x36, 0x37, 0x38, 0x39] = 0xCBF43926 := by decide +kernel

/-! ### The block and its queue -/

theorem witness_EmptyQueuePassesOneCycle :
    (ready.pending = [] ∧ inReset ready = false) ∧
    (let s : State := { boot := { phase := .inReset } }
     s.pending = [] ∧ inReset s = true) := by decide

theorem witness_CommandsStopOnlyForAbsentUnits :
    (Instr.iadd 639 511).units 4 = true ∧ (Instr.iadd 640 0).units 4 = false ∧
      (Instr.refresh 0 0 2 0).units 2 = false ∧ (Instr.refresh 0 0 2 0).units 4 = true := by decide

/-- The invariant holds of a state in which a step runs. -/
theorem witness_EveryStepKeepsInvariant :
    ∃ s t : State, Inv s ∧ step s = .next t := by
  refine ⟨{ pending := [.ppsInEdge] }, _, ⟨rfl, rfl, rfl, rfl, rfl, ?_, by decide, by decide, by decide⟩, rfl⟩
  intro i
  show (([] : List OutItem).filter OutItem.isEvent).length ≤ 256
  decide

theorem witness_StepConsumesOneCommand : ∃ t : State, step { ready with pending := [.ppsInEdge, .refLost] } = .next t := ⟨_, rfl⟩

/-! ### Arrival -/

/-- The device with a command of tag 5 in flight, and with as many as there is room for. -/
def tagged (n : Nat) : State :=
  { ready with host := { ready.host with
    sessions := [(0, { isOpen := true, src := 0xFFFF, origin := 32, reserve := 0 })]
    flights := (List.range n).map (fun k => { id := k, op := .nop, pkt := { pk [] with tag := BitVec.ofNat 12 k }, phase := .active }), nextId := n } }

theorem witness_ArrivalTestsInOrder :
    deaf (pk []) ready = false ∧
    ({ pk [] with payloadLength := 3 } : Packet).payload.length ≠ ({ pk [] with payloadLength := 3 } : Packet).payloadLength.toNat ∧
    badHeader { pk [] with flags := 4 } = true ∧
    (badHeader (pk [1]) = false ∧ (pk [1]).strays .nop = true) ∧
    ((pk []).strays .memRead = false ∧ (getSession ready 1).isOpen = false) ∧
    ((getSession ready 0).isOpen = true ∧ openHere ready { pk [] with origin := 33 } = false) ∧
    (openHere (tagged 6) { pk [] with tag := 5 } = true ∧ ∃ g ∈ (tagged 6).host.flights, g.sess = 0 ∧ g.pkt.tag = 5) := by decide +kernel

/-- Another session has reserved all but four of the 4,096 commands, and this one has those four in flight. -/
theorem witness_ArrivalTestsInOrder_full :
    let s : State := { tagged 4 with host := { (tagged 4).host with
      sessions := [(0, { isOpen := true, src := 0xFFFF, origin := 32, reserve := 0 }), (1, { isOpen := true, reserve := 4092 })] } }
    let p : Packet := { pk [] with tag := 0xFFF }
    openHere s p = true ∧ (∀ g ∈ s.host.flights, g.sess = 0 → g.pkt.tag ≠ p.tag) ∧ tagFree s 0 = false := by decide +kernel

theorem witness_MalformedAndUnknownCommands :
    (inReset ready = false ∧ bodyShort [] = true) ∧
    (opOf 0xFFFF = none ∧ deaf (pk []) ready = false ∧ (pk []).payload.length = (pk []).payloadLength.toNat) ∧
    (let s : State := { boot := { stage := .recovery } }
     let body : List Byte := List.replicate 64 0
     s.boot.stage = .recovery ∧ inReset s = false ∧ body.length = 64) := by decide +kernel

/-! ### Commands that report -/

theorem witness_ReportingCommandsAnswer :
    servedAtOnce .nop (pk []) ready = true ∧ servedAtOnce .identify (pk []) ready = true ∧ servedAtOnce .getStatus (pk []) ready = true ∧
    servedAtOnce .readProfile (pk [3]) ready = true ∧ servedAtOnce .getCert (pk []) ready = true ∧
    (servedAtOnce .arbRead (pk [63]) ready = true ∧ free (getEngine ready 63).owner (pk [63]) = true) ∧
    (servedAtOnce .countersRead (pk [0]) ready = true ∧ free (macOwner ready 0) (pk [0]) = true) ∧
    (List.replicate 13 (0 : Byte)).length = 13 := by decide +kernel

theorem witness_RegisterAccess :
    (let p (a : Nat) : Packet := pk (leBytes 4 a ++ [1])
     servedAtOnce .readCsr (p 0x00B00004) ready = true ∧ (p 0x00B00004).at_ 4 2 = 1 ∧ (p 0x00B00004).at_ 0 4 = 0x00B00004 ∧
     servedAtOnce .readCsr (p 0x00C00100) ready = true ∧ servedAtOnce .readCsr (p 2) ready = true ∧
     csrAt (inService .readCsr (p 0x7FFFFFFC) ready) 0x7FFFFFFC = none) ∧
    (let p (a : Nat) : Packet := pk (leBytes 4 a) [1, 2, 3, 4]
     servedAtOnce .writeCsr (p 0x00B00004) ready = true ∧ (p 0x00B00004).payload.length = 4 ∧ servedAtOnce .writeCsr (p 0x00C00000) ready = true ∧
     ringForeign ready 0 = false ∧ servedAtOnce .writeCsr (p 2) ready = true) := by decide +kernel

/-! ### Sessions -/

theorem witness_OpenSessionOpens :
    (let p : Packet := { pk (leBytes 2 4092) with session := 1 }
     servedAtOnce .openSession p ready = true ∧ p.at_ 0 2 + 4 ≤ 4096 ∧ (getSession ready 1).isOpen = false) ∧
    (let p : Packet := { pk (leBytes 2 4093) with session := 1 }
     servedAtOnce .openSession p ready = true ∧ 4096 < p.at_ 0 2 + reserveOf ready 0) := by decide +kernel

theorem witness_CloseSessionReleases :
    servedAtOnce .closeSession (pk []) ready = true ∧ (∀ g ∈ ready.host.flights, g.sess ≠ 0) ∧ Table.wf {} ready.queues = true ∧
      Table.wf {} ready.arbor.engines = true ∧ Table.wf {} ready.fabric.channels = true := by decide +kernel

/-- A completed command whose reply is first of its session's output, in CCLK cycle `n`. -/
def answered (n : Nat) : State :=
  { ready with
    clk := { cclk := n }
    host := { sessions := [(0, { isOpen := true, src := 0xFFFF, origin := 32, reserve := 4, outbox := [.terminal 0] })], nextId := 1
              flights := [{ id := 0, op := .nop, pkt := pk [], phase := .done 7 {} }] } }

theorem witness_TerminalReplyFreesTag :
    (answered 8).host.flights = [only (answered 8)] ∧ (only (answered 8)).phase = .done 7 {} ∧
      (getSession (answered 8) (only (answered 8)).sess).outbox = .terminal (only (answered 8)).id :: [] ∧
      7 < (answered 8).clk.cclk ∧ (answered 7).clk.cclk ≤ 7 := by decide +kernel

/-! ### Long operations -/

/-- A profile whose digest is right: the built-in one with its SHA-384. -/
def profile : List Byte := builtInProfile.take 976 ++ beBytes 48
  0x196bcc8fe93aafc0deb894e0bd431f693fd2e3813d051dc94475f72bb07752a42431b52dc3c43b8b686250c2d1ed74f7

theorem profile_digest : sha384 (slice profile 0 976) = slice profile 976 48 := by decide +kernel

theorem profile_ok : profileOk profile = true := by
  simp only [profileOk, profile_digest]
  decide +kernel

/-- The device with that profile in slot 1. -/
def stored : State :=
  { ready with flash := { slots := [(1, { bytes := some profile })] }, fabric := { ports := (List.range 8).map (fun i => (32 + i, { role := 3 })) } }

theorem stored_valid : slotValid (getSlot stored 1) = true := profile_ok

theorem witness_SteppedCommandsBegin :
    servedAtOnce .loadImage (pk []) ready = true ∧ servedAtOnce .attest (pk []) ready = true ∧
    servedAtOnce .marginReplan (pk []) ready = true ∧
    (servedAtOnce .safeModelStore (pk [3, 1]) ready = true ∧ free (getEngine ready 3).owner (pk [3, 1]) = true) ∧
    (let s : State := { ready with arbor := { engines := [(3, { safeLoaded := true })] } }
     servedAtOnce .safeModelStore (pk [3, 0]) s = true ∧ (getEngine s 3).safeLoaded = true ∧ free (getEngine s 3).owner (pk [3, 0]) = true) ∧
    (let p := pk (leBytes 5 64 ++ leBytes 4 1024)
     servedAtOnce .fwUpdate p ready = true ∧ fwRefused (taken .fwUpdate p ready) ready = none) ∧
    (servedAtOnce .memRead (pk oneWord) ready = true ∧ memRefused (taken .memRead (pk oneWord) ready) ready = none) ∧
    (let p := pk (leBytes 8 64) (List.replicate 32 7)
     servedAtOnce .memWrite p ready = true ∧ memRefused (taken .memWrite p ready) ready = none) ∧
    (servedAtOnce .memFill (pk oneWord) ready = true ∧ memRefused (taken .memFill (pk oneWord) ready) ready = none) ∧
    (servedAtOnce .scrub (pk oneWord) ready = true ∧ memRefused (taken .scrub (pk oneWord) ready) ready = none) ∧
    (servedAtOnce .healthTest (pk [1]) ready = true ∧ (List.range 20).filter (fun b => (pk [1]).params.getLsbD b) = [0] ∧
      (graftOf ready 0).retired = false ∧ physBayParts ready 0 = []) := by decide +kernel

theorem witness_SteppedCommandsBegin_select :
    servedAtOnce .selectProfile (pk [1]) stored = true ∧ selectRefused (taken .selectProfile (pk [1]) stored) (inService .selectProfile (pk [1]) stored) = none := by
  have h : getSlot (inService .selectProfile (pk [1]) stored) ((taken .selectProfile (pk [1]) stored).pkt.at_ 0 1) = getSlot stored 1 := by decide +kernel
  refine ⟨by decide +kernel, ?_⟩
  simp only [selectRefused, h, stored_valid]
  decide +kernel

theorem witness_SteppedCommandsBegin_write :
    servedAtOnce .writeProfile (pk [2] profile) ready = true ∧ writeRefused (taken .writeProfile (pk [2] profile) ready) ready = none := by
  have h : (taken .writeProfile (pk [2] profile) ready).pkt.payload.take 1024 = profile := by decide +kernel
  refine ⟨by decide +kernel, ?_⟩
  simp only [writeRefused, h, profile_ok]
  decide +kernel

theorem witness_MemoryStepAdvances :
    ([Op.memWrite, .memFill, .scrub] : List Op).all (fun o =>
      let s := busy o (pk oneWord (List.replicate 32 7)) (fun g => { g with total := 32 })
      let f := only s
      s.host.flights == [f] && f.phase == .active && !f.aborting && f.pkt.flags == 0 && decide (f.progress < f.total)
        && f.progress % 32 == 0 && f.total % 32 == 0 && f.op == o) = true := by decide +kernel

theorem witness_StoringStepsComplete :
    (let s := busy .safeModelStore (pk [3, 1])
     s.host.flights = [only s] ∧ (only s).phase = .active ∧ (only s).aborting = false ∧ safeRefused (only s) s = none) ∧
    (let s := busy .resetDomain (pk [3])
     s.host.flights = [only s] ∧ (only s).op = .resetDomain) := by decide +kernel

theorem witness_StoringStepsComplete_profile :
    let s := busy .writeProfile (pk [2] profile)
    s.host.flights = [only s] ∧ (only s).phase = .active ∧ (only s).aborting = false ∧ writeRefused (only s) s = none := by decide +kernel

/-! ### Partitions and contexts -/

/-- Partition 0 with context 0 in this state. -/
def ctx0 (st : CtxState) : State := withPart { part0 with ctxs := [(0, { state := st })] }

theorem witness_CanopyCommandsBegin :
    (let p := pk [0, 1]
     let s := ctx0 .loaded
     servedAtOnce .start p s = true ∧ partDefined s 0 = true ∧ free (getPart s 0).owner p = true ∧ p.bits 1 4 2 = 0 ∧
       (List.range 4).filter (fun c => p.bits 1 c 1 == 1) = [0] ∧ ((getPart s 0).ctx 0).state = .loaded) ∧
    (let p := pk ([0, 1] ++ leBytes 4 5)
     let s := ctx0 .drained
     servedAtOnce .step p s = true ∧ (getPart s 0).busy = false ∧ p.at_ 2 4 ≠ 0) ∧
    (servedAtOnce .step (pk [0, 1]) (ctx0 .loaded) = true ∧ (pk [0, 1]).at_ 2 4 = 0) ∧
    (servedAtOnce .stop (pk [0]) (ctx0 .running) = true ∧ (getPart (ctx0 .running) 0).busy = true) ∧
    (servedAtOnce .stop (pk [0]) (ctx0 .loaded) = true ∧ (getPart (ctx0 .loaded) 0).busy = false) ∧
    (let p := pk ([0, 0] ++ leBytes 4 5)
     servedAtOnce .drain p (ctx0 .running) = true ∧ p.at_ 1 1 < 4 ∧ p.at_ 2 4 ≠ 0 ∧ ((getPart (ctx0 .running) 0).ctx 0).state.issues = true) ∧
    (let p := pk [1, 0, 0, 0]
     servedAtOnce .abort p (ctx0 .running) = true ∧ p.at_ 0 1 = 1 ∧ partDefined (ctx0 .running) (p.at_ 3 1) = true) := by decide +kernel

/-- A START of context 0 waits for its handshake, with the fill at its level. -/
def starting (st : CtxState) : State :=
  let s := busy .start (pk [0, 1]) id (ctx0 st)
  { s with power := { s.power with fill := [(0, 80 * 730)] } }

theorem witness_StartApplies :
    ([CtxState.loaded, .drained, .running].all (fun st =>
      let s := starting st
      let f := only s
      s.host.flights.find? (fun g => g.id == f.id) == some f && f.phase == .active && f.stage == 0 && f.op == .start
        && !s.canopy.paused && s.power.estop == none && decide (fillTarget s f.part ≤ Table.get 0 s.power.fill f.part)
        && f.contexts.contains 0 && !f.contexts.contains 1)) = true ∧
    (getPart (starting .loaded) 0).busy = false ∧ (getPart (starting .loaded) 0).hasCol 31 = true ∧
    Table.wf {} (starting .loaded).canopy.tiles = true := by decide +kernel

theorem witness_StopAndDrainApply :
    (let s := busy .stop (pk [0]) id (ctx0 .running)
     let f := only s
     s.host.flights = [f] ∧ f.phase = .active ∧ f.stage = 0 ∧ s.canopy.paused = false ∧ f.op = .stop ∧ (getPart s f.part).busy = true ∧
       ((getPart s f.part).ctx 0).state.issues = true) ∧
    (let s := busy .drain (pk ([0, 0] ++ leBytes 4 5)) id (ctx0 .running)
     let f := only s
     s.host.flights = [f] ∧ f.phase = .active ∧ f.stage = 0 ∧ s.canopy.paused = false ∧ f.op = .drain) ∧
    (let s := busy .stop (pk [0]) id { ctx0 .running with canopy := { (ctx0 .running).canopy with paused := true } }
     s.host.flights = [only s] ∧ s.canopy.paused = true) := by decide +kernel

theorem witness_AbortCases :
    (let p := pk [0, 9, 0]
     servedAtOnce .abort p ready = true ∧ p.at_ 0 1 = 0 ∧ p.bits 1 0 12 ≠ p.tag.toNat ∧ ready.host.flights = []) ∧
    (let p := pk [0, 0, 0]
     servedAtOnce .abort p ready = true ∧ p.at_ 0 1 = 0 ∧ p.bits 1 0 12 = p.tag.toNat) ∧
    (servedAtOnce .abort (pk [2]) ready = true ∧ 1 < (pk [2]).at_ 0 1) ∧
    (servedAtOnce .abort (pk [1, 0, 0, 7]) ready = true ∧ partDefined ready ((pk [1, 0, 0, 7]).at_ 3 1) = false) ∧
    (let s := withPart { part0 with owner := some 1 }
     servedAtOnce .abort (pk [1]) s = true ∧ partDefined s 0 = true ∧ free (getPart s 0).owner (pk [1]) = false) := by decide +kernel

theorem witness_UnloadContextEmpties :
    (let s := ctx0 .running
     servedAtOnce .unloadContext (pk [0, 0]) s = true ∧ partDefined s 0 = true ∧ ((getPart s 0).ctx 0).state.issues = true) ∧
    (let s := ctx0 .loaded
     servedAtOnce .unloadContext (pk [0, 0]) s = true ∧ free (getPart s 0).owner (pk [0, 0]) = true ∧ ((getPart s 0).ctx 0).state ≠ .faulted ∧
       tokensPresent s 0 0 = false) ∧
    (let s := { ctx0 .loaded with canopy := { (ctx0 .loaded).canopy with tiles := [(0, { ins := [(0, { queues := [(0, [{ data := 1, ctx := 0 }])] })] })] } }
     servedAtOnce .unloadContext (pk [0, 0]) s = true ∧ tokensPresent s 0 0 = true) := by decide +kernel

theorem witness_RunsEnd :
    (((getPart (ctx0 .draining) 0).ctx 0).state = .draining ∧ tokensPresent (ctx0 .draining) 0 0 = false) ∧
    (let s := withPart { part0 with ctxs := [(0, { state := .draining, drainEnd := some 0 })] }
       { ready with canopy := { tiles := [(0, { ins := [(0, { queues := [(0, [{ data := 1, ctx := 0 }])] })] })] } }
     ((getPart s 0).ctx 0).drainEnd = some 0 ∧ tokensPresent s 0 0 = true) ∧
    (let s := withPart { part0 with stepEnd := some 0, ctxs := [(0, { state := .running })] }
     (getPart s 0).stepEnd = some s.canopy.now ∧ (getPart s 0).busy = true) ∧
    (let s := withPart { part0 with stopped := some 3 } { ready with canopy := { now := 4 } }
     quiescent s 0 = true ∧ (getPart s 0).stopped.isSome = true ∧ (getPart s 0).firstRec = none ∧ s.host.flights = []) := by decide +kernel

theorem witness_FaultEventAtQuiescence :
    let r : FaultRec := { code := 11, secondary := false, col := 3, row := 2, ctx := 0, index := 0, cycle := 3, imageId := 0, detail := 0 }
    let s := withPart { part0 with stopped := some 3, firstRec := some r, owner := some 0, log := [r] } { ready with canopy := { now := 4 } }
    s.host.flights = [] ∧ quiescent s 0 = true ∧ (getPart s 0).stopped.isSome = true ∧ (getPart s 0).firstRec = some r ∧
      (getPart s 0).owner = some 0 ∧ (getSession s 0).isOpen = true ∧ ((getSession s 0).outbox.filter OutItem.isEvent).length < 256 := by decide +kernel

/-! ### Spill queues -/

/-- Queue 5 as given. -/
def queue5 (x : Spill) (s : State := ready) : State := { s with queues := [(5, x)] }

/-- A cell of eight words. -/
def cell : SqCell := { words := List.replicate 8 { v := 9 } }

theorem witness_SpillControlCommands :
    let p := pk [5]
    (let s := queue5 { wr := 3, rd := 2, mkCell := 1, markValid := true, writer := 2, reader := 2 }
     free (getQueue s 5).owner p = true ∧ ingressOf s 5 = false ∧ servedAtOnce .sqMark p s = true ∧ servedAtOnce .sqRewind p s = true ∧
       (getQueue s 5).markValid = true ∧ servedAtOnce .sqRelease (pk ([5] ++ leBytes 4 2)) s = true ∧ servedAtOnce .sqFlush p s = true ∧
       servedAtOnce .sqReset p s = true) ∧
    (let s := queue5 { wr := 3, rd := 2 }
     servedAtOnce .sqRewind p s = true ∧ (getQueue s 5).markValid = false) ∧
    (let s := queue5 { writer := 1, assembly := [{}] }
     servedAtOnce .sqFlush p s = true ∧ (getQueue s 5).assembly ≠ [] ∧ (getQueue s 5).writer = 1 ∧ (getQueue s 5).frozen = false ∧
       (getQueue s 5).full = false) := by decide +kernel

theorem witness_SpillConfigWriteRead :
    (let p := pk [5, 2 + 8 * 2]
     servedAtOnce .sqConfig p ready = true ∧ p.bits 1 0 3 ≤ 5 ∧ p.bits 1 3 3 ≤ 3 ∧ p.bits 1 7 1 = 0 ∧ p.at_ 4 2 = 0 ∧ p.at_ 2 2 = 0 ∧
       p.at_ 6 2 = 0 ∧ p.at_ 8 2 = 0 ∧ ingressOf ready 5 = false ∧ (getQueue ready 5).wr = (getQueue ready 5).rel ∧
       (getQueue ready 5).assembly = [] ∧ queueBound ready 5 = false ∧ free (getQueue ready 5).owner p = true) ∧
    (let p := pk [5] (List.replicate 64 1)
     let s := queue5 { writer := 2 }
     servedAtOnce .sqWrite p s = true ∧ p.payload.length = 64 ∧ (getQueue s 5).writer = 2 ∧ (getQueue s 5).frozen = false ∧
       (getQueue s 5).full = false ∧ sqReady (getQueue s 5) = true) ∧
    (servedAtOnce .sqRead (pk [5, 1]) ready = true ∧ (getQueue ready 5).reader ≠ 2) ∧
    (let s := queue5 { reader := 2 }
     servedAtOnce .sqRead (pk [5, 1]) s = true ∧ (getQueue s 5).reader = 2 ∧ (getQueue s 5).rd = (getQueue s 5).wr ∧
       servedAtOnce .sqRead (pk [5, 65]) s = true) := by decide +kernel

theorem witness_SpillEvents :
    (let s := queue5 { vaults := 1, pages := 1, tail := [(0, cell)], wr := 1 }
     (getQueue s 5).vaults ≠ 0 ∧ s.vaults.retraining = false ∧ (getQueue s 5).tail.find? (fun kv => kv.1 == (getQueue s 5).moved) = some (0, cell) ∧
       (getQueue s 5).filled ≤ (getQueue s 5).rd ∧ (getQueue s 5).rd < (getQueue s 5).wr ∧ (getQueue s 5).moved ≤ (getQueue s 5).rd) ∧
    (let w : WireTok := { tok := { data := 0x1000000000000000, ctx := 0 }, at_ := 3 }
     let s : State := { ready with canopy := { now := 4, edges := [(edgeKey 1 5, [w]), (edgeKey 1 261, [w])] } }
     getEdge s 1 5 = [w] ∧ getEdge s 1 261 = [w] ∧ w.at_ + 1 ≤ s.canopy.now ∧ (getQueue s 5).assembly.length < 7 ∧
       fldN w.tok.data 0 60 = 0 ∧ fldN w.tok.data 60 4 = 1 ∧ w.tok.poison = false) ∧
    (let s := queue5 { reader := 1, wr := 1, tail := [(0, cell)] }
     (getQueue s 5).rd < (getQueue s 5).wr ∧ (getQueue s 5).tail.find? (fun kv => kv.1 == (getQueue s 5).rd) = some (0, cell)) := by decide +kernel

/-- Partition 0 whose tile (3, 0) is bound to an endpoint by its N port. -/
def bound (unit index : Nat) (s : State := ready) : State :=
  withPart { part0 with ctxs := [(0, { state := .running, image := { imageOf [] with ports := [{ col := 3, side := 0, unit := unit, index := index }] } })] } s

/-- A word is delivered at a queue's read endpoint. -/
theorem witness_SpillEvents_delivery :
    (edgeDeliver 2 5 9 false (bound 2 5 (queue5 { reader := 1, wr := 1, tail := [(0, cell)] }))).isSome = true := by decide +kernel

/-! ### The timebase -/

/-- A valid timebase of session 0 at second 10. -/
def timed : State := { ready with time := { valid := true, sec := 10, ns := 5, owner := some 0 } }

theorem witness_TimeCommands :
    servedAtOnce .timeRead (pk []) ready = true ∧ free ready.time.owner (pk []) = true ∧
    (let p := pk (leBytes 5 0x00FF000000)
     servedAtOnce .timeAdjFreq p ready = true ∧ 0x00FF000000 ≤ p.at_ 0 5 ∧ p.at_ 0 5 ≤ 0x0100FFFFFF) ∧
    servedAtOnce .timeInvalidate (pk []) ready = true ∧ (servedAtOnce .timeSource (pk [1]) ready = true ∧ (pk [1]).at_ 0 1 ≤ 1) ∧
    (let p := pk ([1, 0] ++ leBytes 2 500)
     servedAtOnce .ppsConfig p ready = true ∧ 1 ≤ p.at_ 2 2 ∧ p.at_ 2 2 ≤ 500) ∧
    (let s : State := { ready with time := { owner := some 1 } }
     free s.time.owner (pk []) = false ∧ servedAtOnce .timeSet (pk []) s = true ∧ servedAtOnce .timeStep (pk []) s = true ∧
       servedAtOnce .timeAdjFreq (pk []) s = true) := by decide +kernel

theorem witness_TimeIsSetOrRefused :
    free timed.time.owner (pk []) = true ∧
    (let p := pk (leBytes 6 10 ++ leBytes 4 999999999)
     servedAtOnce .timeSet p timed = true ∧ p.at_ 6 4 < 1000000000 ∧ servedAtOnce .timeSet p ready = true ∧ ready.time.valid = false ∧
       timed.time.valid = true ∧ timed.time.jumpLimit.toNat < (p.at_ 0 6 * 1000000000 + p.at_ 6 4 - timed.time.tick.1.total)) ∧
    (let p := pk (leBytes 6 10 ++ leBytes 4 1006)
     servedAtOnce .timeSet p timed = true ∧ p.at_ 0 6 * 1000000000 + p.at_ 6 4 - timed.time.tick.1.total = timed.time.jumpLimit.toNat) ∧
    (let p := pk (leBytes 8 (2 ^ 64 - 1000))
     servedAtOnce .timeStep p timed = true ∧ signed 64 (p.at_ 0 8) = -1000 ∧ (signed 64 (p.at_ 0 8)).natAbs ≤ timed.time.jumpLimit.toNat ∧
       0 ≤ (timed.time.tick.1.total : Int) + signed 64 (p.at_ 0 8)) := by decide +kernel

theorem witness_TimebaseEvents :
    ({ ns := 999999999 } : Timebase).tick.2 = true ∧ ({ ppsEnd := some 0 } : Timebase).ppsEnd = some 0 := by decide +kernel

theorem witness_TimeAdvancesAndIsCaptured :
    let b : Timebase := { ns := 999999999, frac := 0xFFFFFFFF, inc := 0x200000000 }
    b.ns.toNat < 1000000000 ∧ b.inc.toNat ≤ 2 ^ 33 ∧ b.tick.2 = true ∧ inReset ready = false := by decide +kernel

/-! ### Ports: configuration -/

/-- E-port 0 in mode 1 and of session 0, port 1 of session 1. -/
def ports : State := { ready with eth := { ports := [(0, { mode := 1, owner := some 0 }), (1, { mode := 1, owner := some 1 })] } }

theorem witness_MacConfiguration :
    macPresent ports 0 = true ∧ free (macOwner ports 0) (pk []) = true ∧
    (servedAtOnce .macFilter (pk [0, 15]) ports = true ∧ (pk [0, 15]).at_ 1 1 ≤ 15) ∧
    (let p := pk ([0, 0] ++ leBytes 2 9600)
     servedAtOnce .macConfig p ports = true ∧ 1518 ≤ p.at_ 2 2 ∧ p.at_ 2 2 ≤ 9600 ∧ p.bits 1 3 1 = 0 ∧ p.bits 1 4 1 = 0 ∧ p.at_ 7 1 = 0 ∧
       ((getMac ports 0).conf.cfg.enable && p.bits 1 0 1 == 1) = false) ∧
    (let p := pk ([0, 0, 0, 0, 0, 0] ++ leBytes 6 10 ++ leBytes 4 999999999 ++ leBytes 4 1000) (leBytes 4 (256 * 1000 + 255))
     servedAtOnce .gateListLoad p ports = true ∧ p.payload.length = 4 * (p.at_ 1 1 + 1) ∧ 1000 ≤ p.at_ 16 4 ∧ p.at_ 12 4 < 1000000000 ∧
       (bytesW32 p.payload).all (fun e => fldN e 8 24 != 0) = true) ∧
    (servedAtOnce .extractConfig (pk [0, 0xFF]) ports = true ∧ (pk [0, 0xFF]).at_ 1 1 = 0xFF) ∧
    (let p := pk [0, 0, 0xFF, 0xFF]
     servedAtOnce .replyConfig p ports = true ∧ p.at_ 1 1 = 0 ∧ p.at_ 2 1 = 0xFF ∧ p.at_ 3 1 = 0xFF ∧ p.at_ 4 4 = 0 ∧ p.at_ 8 4 = 0) ∧
    servedAtOnce .ptpPortConfig (pk [0, 1]) ports = true ∧
    (let b := leBytes 2 60 ++ List.replicate 99 0
     let p := pk [0, 63] b
     servedAtOnce .templateLoad p ports = true ∧ p.at_ 1 1 ≤ 63 ∧ 60 ≤ leAt b 0 2 ∧ b.length = 41 + leAt b 0 2 ∧ leAt b 2 1 ≤ 7 ∧ leAt b 3 1 = 0 ∧
       leAt b 8 1 = 0 ∧ templateInUse ports 0 63 = false ∧ free (getEPort ports 0).owner p = true) := by decide +kernel

theorem witness_UnfitCommandsRefused :
    (servedAtOnce .memFill (pk []) ready = true ∧ (pk []).at_ 8 8 = 0) ∧
    (let s := withPart { part0 with owner := some 1 }
     servedAtOnce .memFill (pk oneWord) s = true ∧ rangeValid s 64 32 = true ∧ (rangeParts s 64 32).any (fun q => partForeign s q 0) = true) ∧
    (let s := queue5 { owner := some 1 }
     free (getQueue s 5).owner (pk [5]) = false ∧ servedAtOnce .sqConfig (pk [5]) s = true ∧ servedAtOnce .sqWrite (pk [5]) s = true ∧
       servedAtOnce .sqRead (pk [5]) s = true ∧ servedAtOnce .sqRelease (pk [5]) s = true) ∧
    (let s : State := { ready with trig := { streams := [(2, { enable := true, queue := 5 })] } }
     free (getQueue s 5).owner (pk [5]) = true ∧ ingressOf s 5 = true ∧ servedAtOnce .sqMark (pk [5]) s = true ∧ servedAtOnce .sqReset (pk [5]) s = true) ∧
    (servedAtOnce .macFilter (pk [64]) ready = true ∧ servedAtOnce .gateListLoad (pk [64]) ready = true ∧ servedAtOnce .countersRead (pk [64]) ready = true) ∧
    (free (macOwner ports 8) (pk [8]) = false ∧ servedAtOnce .macConfig (pk [8]) ports = true ∧ servedAtOnce .extractConfig (pk [8]) ports = true ∧
      servedAtOnce .replyConfig (pk [8]) ports = true) := by decide +kernel

/-! ### The fabric -/

/-- A device with a coordinate, in a grove of 4 by 1 by 1 by 1. -/
def placed : State := { ready with fabric := { coord := some 0, sizes := 0x0003, ports := [(0, { role := 1 }), (32, { role := 3 })] } }

theorem witness_FabricCommands :
    (let p := pk (leBytes 2 3 ++ leBytes 2 3)
     servedAtOnce .fabricConfig p ready = true ∧ (List.range 40).all (fun q => free (getPort ready q).owner p) = true ∧ p.payload = [] ∧ p.bits 4 0 1 = 0 ∧
       inSizes { ready with fabric := { ready.fabric with sizes := BitVec.ofNat 16 (p.at_ 2 2) } } (BitVec.ofNat 16 (p.at_ 0 2)) = true) ∧
    (let p := pk ([63, 1] ++ leBytes 4 0x10)
     servedAtOnce .reduceGroup p placed = true ∧ free (getChan placed 63).owner p = true ∧
       (List.range 4).all (fun j => decide (boxLen (BitVec.ofNat 32 (p.at_ 2 4)) j ≤ sizeOf placed j)) = true ∧
       inBox placed (BitVec.ofNat 32 (p.at_ 2 4)) 0 = true ∧ channelBound placed 63 = false) ∧
    (let p := pk [0, 8, 1]
     servedAtOnce .laneControl p placed = true ∧ p.at_ 1 1 ≤ 8 ∧ p.at_ 2 1 = 1 ∧ free (getPort placed 0).owner p = true ∧
       (linkPorts (inService .laneControl p placed) p).contains 0 = false) ∧
    (let p := pk [0, 1]
     servedAtOnce .fportPower p placed = true ∧ p.at_ 1 1 = 1 ∧ (getPort placed 0).role ≠ 0 ∧ (getPort placed 0).power = .active ∧
       (linkPorts (inService .fportPower p placed) p).contains 0 = false) := by decide +kernel

/-! ### The arbor -/

/-- Engine 3 as given. -/
def engine3 (x : Engine) (s : State := ready) : State := { s with arbor := { s.arbor with engines := [(3, x)] } }

/-- Engine 3 as the one engine of an ensemble. -/
def ensemble3 (e : Ensemble) (x : Engine := {}) (s : State := ready) : State :=
  { s with arbor := { s.arbor with engines := Table.set {} [] 3 x, ensembles := Table.set {} [] 3 e } }

theorem witness_ArborCommands :
    (free (getEngine ready 3).owner (pk [3]) = true) ∧
    (let p := pk ([3] ++ leBytes 4 196607) (List.replicate 8 0)
     servedAtOnce .arbLoad p ready = true ∧ (getEngine ready 3).mode ≠ .node ∧ p.payload ≠ [] ∧ p.payload.length % 8 = 0 ∧ p.payload.length ≤ 4096 ∧
       p.at_ 1 4 + p.payload.length / 8 ≤ 196608) ∧
    (let s := ensemble3 { engines := 1, features := 2, depth := 1 }
     servedAtOnce .arbVerify (pk [3]) s = true ∧ ensembleOf s 3 = some 3) ∧
    (servedAtOnce .arbVerify (pk [3]) ready = true ∧ ensembleOf ready 3 = none) ∧
    (servedAtOnce .arbMode (pk [3, 0]) ready = true ∧ (getEngine ready 3).mode ≠ .retired) ∧
    (servedAtOnce .arbMode (pk [3, 1]) (engine3 { verified := true }) = true ∧ (getEngine (engine3 { verified := true }) 3).verified = true) ∧
    (servedAtOnce .arbMode (pk [3, 2]) (engine3 { safeLoaded := true }) = true ∧ (getEngine (engine3 { safeLoaded := true }) 3).safeLoaded = true) ∧
    (servedAtOnce .arbMode (pk [3, 3]) ready = true ∧ servedAtOnce .arbMode (pk [3, 1]) ready = true ∧ servedAtOnce .arbMode (pk [3, 2]) ready = true) ∧
    (let p := pk ([3, 0] ++ leBytes 2 511) (List.replicate 8 0)
     servedAtOnce .arbTcamLoad p ready = true ∧ (getEngine ready 3).mode ≠ .ternary ∧ (getEngine ready 3).tcamFailed = false ∧ p.at_ 4 1 = 0 ∧
       p.bits 1 0 1 = 0 ∧ p.bits 1 1 1 = 0 ∧ p.payload.length = 8 ∧ p.at_ 2 2 < 512) ∧
    (let s := ensemble3 { engines := 1, features := 2, depth := 1 }
     servedAtOnce .arbEnsemble (pk [3, 0]) s = true ∧ (getEns s 3).engines = 1 ∧ ensembleBound s 3 = false) ∧
    (let s := ensemble3 { engines := 1, features := 2, depth := 1 }
     let p := pk [3, 0] (List.replicate 8 0)
     servedAtOnce .arbEval p s = true ∧ p.bits 1 0 1 = 0 ∧ p.at_ 2 2 = 0 ∧ (getEns s 3).engines ≠ 0 ∧ p.payload.length % 4 = 0 ∧ p.payload ≠ [] ∧
       p.payload.length / 4 ≤ (getEns s 3).features) := by decide +kernel

/-- A node word of a leaf, and a sample that has all its features. -/
def sample (p : Bool := false) : Sample := { source := .endpoint, features := [1, 2], poison := p }

theorem witness_ArborOperationsAdvance :
    (let s := busy .arbLoad (pk ([3] ++ leBytes 4 0) (List.replicate 16 0)) (fun g => { g with total := 2 })
     let f := only s
     s.host.flights = [f] ∧ f.phase = .active ∧ f.aborting = false ∧ f.pkt.flags = 0 ∧ f.total = f.pkt.payload.length / 8 ∧
       f.pkt.payload.length % 8 = 0 ∧ f.progress < f.total) ∧
    (let w : WireTok := { tok := { data := 0x4000000000000000, ctx := 0 }, at_ := 3 }
     let s := ensemble3 { engines := 1, features := 2 } {} { ready with canopy := { now := 4, edges := [(edgeKey 3 3, [w])] } }
     (getEns s 3).engines ≠ 0 ∧ s.arbor.stopped = false ∧ s.arbor.toReply = [] ∧ s.canopy.paused = false ∧ getEdge s 3 3 = [w] ∧ w.at_ + 1 ≤ s.canopy.now ∧
       (getEns s 3).slots < 64) ∧
    (let s := ensemble3 { engines := 1, features := 2, samples := [sample] }
     (getEns s 3).samples = [sample] ∧ sample.started = none ∧ (getEns s 3).startedAt ≠ some s.canopy.now ∧ sample.poison = false ∧
       (∃ i, i < (getEns s 3).engines ∧ (getEngine s (3 + i)).mode = .idle)) ∧
    (sample true).poison = true := by decide +kernel

/-- A verified engine whose root is a leaf walks unbroken. -/
theorem witness_ArborOperationsAdvance_walk :
    ∃ w : W64, let s := ensemble3 { engines := 1, features := 2, samples := [sample] } { mode := .node, nodes := [(0, { data := w })] }
      (getEngine s 3).mode = .node ∧ (walkNodes (getEngine s 3) sample.features 24 (getEngine s 3).root {}).broken = false := by
  exact ⟨0x4000000000000000, by decide +kernel⟩

/-- Results whose sample started at cycle 4, in an ensemble of depth 1: due in cycle 11. -/
def resulting (src : SampleSource) (now : Nat) (s : State := ready) : State :=
  ensemble3 { engines := 1, features := 2, depth := 1, samples := [{ source := src, features := [], started := some (4, 7, false) }] } {}
    { s with canopy := { s.canopy with now := now } }

theorem witness_ArborOperationsAdvance_result :
    ((resulting (.frame 0 0) 10).canopy.now < 4 + 1 + 6 ∧ (getEns (resulting (.frame 0 0) 10) 3).depth = 1) ∧
    (resulting .endpoint 11).canopy.now = 4 + 1 + 6 ∧ boundTo (resulting .endpoint 11) 4 3 = none ∧
    (edgeDeliver 4 3 7 false (resulting .endpoint 11 (bound 4 3))).isSome = true := by decide +kernel

/-! ### Streams and the trigger: commands -/

theorem witness_TriggerCommands :
    (let p := pk [15]
     servedAtOnce .streamConfig p ready = true ∧ p.at_ 0 1 ≤ 15 ∧ p.bits 4 0 1 = 0 ∧ boundTo ready 8 15 = none ∧ boundTo ready 8 31 = none ∧
       free ready.trig.owner p = true) ∧
    (let p := pk (leBytes 8 (2 ^ 63))
     let s : State := { ready with trig := { chans := [(63, { reg := { source := 2 } })] } }
     servedAtOnce .trigArm p s = true ∧ p.at_ 0 8 = 2 ^ 63 ∧ p.at_ 8 1 = 0 ∧ (getChanT s 63).armed = false ∧ chanOk s (getChanT s 63).reg = true ∧
       s.trig.decEnableReg = false ∧ servedAtOnce .trigDisarm p s = true) ∧
    (let s : State := { ready with trig := { chans := [(0, { armed := true })] } }
     servedAtOnce .trigArm (pk [1]) s = true ∧ (getChanT s 0).armed = true) ∧
    (let s : State := { ready with trig := { caps := [(3, { state := .frozen })] } }
     servedAtOnce .trigRearm (pk [8]) s = true ∧ (pk [8]).at_ 0 1 = 2 ^ 3 ∧ (getCap s 3).state = .frozen) := by decide +kernel

/-! ### The ring log -/

/-- The payload of a RING_START of partition 0 by one device. -/
def ringPayload (devices : Nat := 1) : List Byte :=
  List.replicate 48 0 ++ leBytes 8 3 ++ leBytes 4 0 ++ leBytes 4 devices ++ List.replicate 16 0 ++ [0, 0] ++ leBytes 2 16 ++ leBytes 2 0xFFFF ++ [0, 0]

theorem witness_RingLogCommands :
    (let s := withPart part0
     let b := ringPayload
     servedAtOnce .ringStart (pk [] b) s = true ∧ b.length = 88 ∧ partDefined s (leAt b 80 1) = true ∧ leAt b 60 4 = 1 ∧ leAt b 56 4 = 0 ∧
       leAt b 82 2 ≤ 4096 ∧ leAt b 84 2 = 0xFFFF ∧ leAt b 81 1 = 0 ∧ leAt b 86 2 = 0 ∧ free (getPart s 0).owner (pk []) = true ∧
       s.ring.active = false ∧ (getPart s 0).busy = false) ∧
    (let s := withPart part0
     servedAtOnce .ringStart (pk [] (ringPayload 0)) s = true ∧ leAt (ringPayload 0) 60 4 = 0) ∧
    (let s := withPart { part0 with owner := some 1 }
     servedAtOnce .ringStart (pk [] ringPayload) s = true ∧ free (getPart s 0).owner (pk []) = false) ∧
    (let s := { withPart part0 with ring := { active := true, part := some 0 } }
     servedAtOnce .ringStart (pk [] ringPayload) s = true ∧ s.ring.active = true ∧ ringForeign s 0 = false ∧ servedAtOnce .ringStop (pk []) s = true ∧
       s.ring.part.isSome = true ∧ servedAtOnce .ringRead (pk [0, 0, 0, 0, 0, 0, 0, 0, 16]) s = true ∧
       servedAtOnce .ringSealRead (pk [0, 0, 0, 0, 0, 0, 0, 0, 1]) s = true) ∧
    (let s := { withPart { part0 with ctxs := [(0, { state := .loaded, image := { imageOf [] with layers := 4 } })] } with ring := { part := some 0 } }
     let p := pk ([0, 0] ++ leBytes 4 3 ++ leBytes 4 1)
     servedAtOnce .foldRead p s = true ∧ s.ring.part = some 0 ∧ p.at_ 0 1 = 0 ∧ p.at_ 6 4 = 1 ∧ p.at_ 2 4 < layersOf s 0) := by decide +kernel

/-! ### Power, sparing, recovery, domains -/

theorem witness_PowerAndSparingCommands :
    (servedAtOnce .powerStop (pk []) ready = true ∧ ready.power.estop = none) ∧
    (let s : State := { ready with power := { estop := some .power } }
     servedAtOnce .powerStop (pk []) s = true ∧ s.power.estop.isSome = true) ∧
    (let p := pk (leBytes 2 660)
     servedAtOnce .columnFail p ready = true ∧ 659 < p.at_ 0 2) ∧
    (let p := pk (leBytes 2 658)
     servedAtOnce .columnFail p ready = true ∧ p.at_ 0 2 ≤ 659 ∧ p.at_ 0 2 % 33 < 32 ∧ (graftOf ready 19).retired = false ∧
       (graftOf ready 19).failedPos = 32 ∧ ready.power.noSpare.getLsbD 19 = false ∧
       (physBayParts ready 19).any (fun q => partForeign ready q 0) = false) := by decide +kernel

/-- A device in recovery. -/
def recovering (c : Option (BitVec 16 × BitVec 8) := none) : State := { boot := { stage := .recovery, cause := 1, claim := c } }

theorem witness_FirmwareRecovery :
    (servedAtOnce .fwRecover (pk []) ready = true ∧ ready.boot.stage ≠ .recovery ∧ ({ recovering with boot := { recovering.boot with restart := true } } : State).boot.restart = true) ∧
    (let s := recovering (some (0, 33))
     servedAtOnce .fwRecover (pk [] [1]) s = true ∧ s.boot.claim.isSome = true ∧ s.boot.claim ≠ some (0xFFFF, 32) ∧ s.boot.restart = false) ∧
    (let s := recovering
     servedAtOnce .fwRecover (pk [] [1]) s = true ∧ s.boot.claim = none ∧ (pk [] [1]).at_ 0 4 = s.boot.received ∧ (pk [] [1]).bits 4 0 1 = 0 ∧
       servedAtOnce .fwRecover (pk [4] [1]) s = true ∧ (pk [4] [1]).at_ 0 4 ≠ s.boot.received) := by decide +kernel

theorem witness_TripAndRecoveryEndCommands :
    ([({ ready with power := { trip := true } }, Op.sqRead, pk [5]), (recovering, Op.sqRead, pk [5])] : List (State × Op × Packet)).all (fun x =>
      let s := x.1
      let f := arriving x.2.1 x.2.2 s
      let u := withFlight f s
      !deaf x.2.2 s && x.2.2.payload.length == x.2.2.payloadLength.toNat && !badHeader x.2.2 && refusal x.2.1 x.2.2 (noteCommand x.2.2 s) == none
        && serialsBelow s && !blocked f u && !firmwareHeld f u && (endings x.2.2.session.toNat u).isEmpty && (s.power.trip || s.boot.stage == .recovery) && !x.2.1.servedAlways) = true := by
  decide +kernel

theorem witness_ResetDomainCommand :
    ready.host.flights = [] ∧ servedAtOnce .resetDomain (pk [0]) ready = true ∧ servedAtOnce .resetDomain (pk [8]) ready = true ∧
      (servedAtOnce .resetDomain (pk [4]) ready = true ∧ (definedParts ready).any (fun q => partForeign ready q 0) = false) ∧
      (let s := ctx0 .loaded
       servedAtOnce .resetDomain (pk [3]) s = true ∧ (definedParts s).any (fun q => (getPart s q).busy) = false ∧
         servedAtOnce .resetDomain (pk [2]) s = true) := by decide +kernel

/-! ### Instructions of a tile -/

/-- An instruction issues and acts, alone in its partition (the hypothesis of every statement about instructions). -/
def acts (w : BitVec 96) : Bool := Safety.issues (running [w]) here

theorem witness_IntegerInstructionsWriteNow :
    (([0x18, 0x19, 0x1A, 0x1B, 0x1C, 0x1D, 0x1E, 0x1F, 0x22, 0x28] : List Nat).all (fun o =>
      acts (word o (dst := 15) (a := 0) (b := if o == 0x28 then 31 else 1)))
      && acts (word 0x21 (dst := 23) (a := 0) (b := 1))) = true := by decide +kernel

/-- Operands of a link and of scratch, and a scratch destination. -/
theorem witness_IntegerInstructionsWriteNow_forms :
    let s := { running [word 0x18 (dst := 24) (a := 16) (b := 20) (addr := 7) (imm := 8)] with
      canopy := { (running [word 0x18 (dst := 24) (a := 16) (b := 20) (addr := 7) (imm := 8)]).canopy with
        tiles := [(tileKey 3 2, { ins := [(0, { queues := [(0, [{ data := 9, ctx := 0 }])] })], scratch := [(7, { data := 1, written := true })] })] } }
    Safety.issues s here = true ∧ (operand s here 16).v = 9 ∧ (operand s here 20).v = 1 ∧ destination s here = .scratch 7 := by decide +kernel

theorem witness_VectorInstructionsWriteLate :
    (([0x10, 0x11, 0x12, 0x14, 0x15] : List Nat).all (fun o => acts (word o (dst := 15) (a := 0) (b := 1)))
      && acts (word 0x13 (dst := 0) (a := 0) (b := 1) (c := 2)) && acts (word 0x16 (dst := 0) (a := 0))
      && acts (word 0x17 (dst := 0) (a := 0)) && acts (word 0x20 (dst := 23) (a := 0) (b := 1))
      && acts (word 0x32 (dst := 0) (a := 0) (c := 1))) = true := by decide +kernel

theorem witness_ControlInstructions :
    acts (word 0x00) = true ∧
    (let s := withPart { part0 with ctxs := [(0, { state := .running, image := imageOf [word 0x01 (imm := 3)] }), (3, { state := .running })] }
       { ready with canopy := { now := 100 } }
     let s : State := { s with canopy := { s.canopy with now := 100 } }
     Safety.issues s here = true ∧ ((getPart s 0).ctx 3).state = .running) ∧
    acts (word 0x02 (imm := 1)) = true ∧ acts (word 0x03 (dst := 1) (a := 1)) = true ∧ acts (word 0x05) = true ∧
    (let s := { running [word 0x03 (dst := 1) (a := 1)] with canopy := { (running [word 0x03 (dst := 1) (a := 1)]).canopy with
       tiles := [(tileKey 3 2, { ctxs := [(0, { g := [(1, { v := 2 })] })] })] } }
     Safety.issues s here = true ∧ (operand s here 1).v.toNat = 2) := by decide +kernel

theorem witness_VaultAndBlockInstructionsBegin :
    Safety.issues (running [word 0x04]) { here with row := 16 } = true ∧ acts (word 0x2A (dst := 24) (a := 0)) = true ∧
    acts (word 0x2B (a := 0) (b := 20)) = true ∧ acts (word 0x30 (dst := 0) (a := 20) (b := 20) (c := 1) (d := 2)) = true ∧
    acts (word 0x31 (dst := 0) (a := 20)) = true := by decide +kernel

/-- To the neighbour on E, and to the endpoint of the edge port on N in row 0. -/
theorem witness_SendPlacesToken :
    (acts (word 0x29 (a := 0) (mode := 2)) = true ∧ edgeSide 2 1 = none ∧ neighbour 3 2 1 = some (4, 2)) ∧
    (let im : Image := { imageOf [word 0x29 (a := 0) (mode := 1)] with routes := [1], ports := [{ col := 3, side := 0, unit := 1, index := 5 }] }
     let s := withPart { part0 with ctxs := [(0, { state := .running, image := im })] }
     let s : State := { s with canopy := { s.canopy with now := 100 } }
     Safety.issues s { here with row := 0 } = true ∧ edgeSide 0 0 = some 0 ∧ (boundPort s 0 3 0).isSome = true) := by decide +kernel

theorem witness_InstructionsThatDoNotAct :
    (let s := running [word 0x18 (dst := 0) (a := 0) (b := 0) (pred := 1)]
     standsAt s here = true ∧ pendingPred (getTile (atIssue here s) 3 2) 0 1 = false ∧ ((getTile (atIssue here s) 3 2).ctx 0).pred 1 = false ∧
       (fieldsAt s here).pred = 1 ∧ (fieldsAt s here).pneg = false ∧ opcodeRow 0x19 3 2 ≠ opcodeRow (fieldsAt s here).opc 3 2 ∧
       noReadsDue s here = true) ∧
    (isTile 639 511 = true ∧ issuePlace ready 639 511 = none) ∧ acts (word 0x18 (dst := 15) (a := 0) (b := 1)) = true := by decide +kernel

/-- An opcode that is not listed, an undefined selector, and a SEND on no output. -/
theorem witness_IllegalEncodingFaults :
    ([word 0x3F, word 0x18 (dst := 0) (a := 30) (b := 0), word 0x29 (a := 0)].all (fun w =>
      let s := running [w]
      standsAt s here && noReadsDue s here && predicated s here && !(illegalRows (fieldsAt s here) (envOf (atIssue here s) here)).isEmpty)) = true ∧
    (let s := running [word 0x3F]
     ((getPart s 0).ctx 0).state.issues = true ∧ (getPart s 0).stopped = none ∧ (getPart s 0).firstRec = none ∧ (getPart s 0).log.length < 64 ∧
       s.host.flights = []) := by decide +kernel

/-- Partition 0 running, in cycle 100, with tile (3, 2) as given. -/
def tile32 (t : Tile) (x : Partition := { part0 with ctxs := [(0, { state := .running, image := { imageOf [] with fixedClass := true } })] }) : State :=
  let s := withPart x
  { s with canopy := { s.canopy with now := 100, tiles := [(tileKey 3 2, t)] } }

/-- A token of context 0. -/
def tok : Tok := { data := 9, ctx := 0 }

theorem witness_TileEventsAct :
    (isTile 3 2 = true ∧ partOf (tile32 {}) 3 = some 0) ∧
    (let d : Due := { at_ := 100, tag := 97, ctx := 0, index := 0, op := .late (.g 15) {} }
     (getTile (tile32 { dues := [d], issuedAt := some 100 }) 3 2).dues = [d] ∧ d.at_ ≤ 100) ∧
    (let w : Waiting := { since := 99, mode := 0, imm := 0, index := 0 }
     let s := tile32 { ctxs := [(0, { waiting := some w })] }
     ((getTile s 3 2).ctx 0).waiting = some w ∧ waitHolds 100 (getTile s 3 2) 0 w = true ∧ (getTile s 3 2).dues = [] ∧ (getTile s 3 2).endedAt ≠ some 100) ∧
    (let w : Waiting := { since := 90, mode := 2, imm := 0x00010004, index := 0 }
     let s := tile32 { ctxs := [(0, { waiting := some w })] }
     waitHolds 100 (getTile s 3 2) 0 w = false ∧ ((getPart s 0).ctx 0).image.fixedClass = true ∧ ((getPart s 0).ctx 0).state.issues = true ∧
       w.since + fldN w.imm 16 16 < 100 ∧ (∀ d, d < 4 → d ≠ 0 → ((getTile s 3 2).ctx d).waiting = none)) ∧
    (let s := tile32 { ins := [(0, { wire := [{ tok := tok, at_ := 99 }] })] }
     ((getTile s 3 2).inp 0).wire = [{ tok := tok, at_ := 99 }] ∧ ((getPart s 0).ctx 0).state.resident = true ∧
       routePass (routeOf s 0 3 2 0) 0 = false ∧ (((getTile s 3 2).inp 0).queue 0).length < ((getTile s 3 2).inp 0).depth 0) ∧
    ((getTile (tile32 { outs := [(1, { returns := [(0, 99)] })] }) 3 2).out 1).returns = [(0, 99)] := by decide +kernel

theorem witness_TileEventsAct_dot :
    let k : Dot := { ctx := 0, index := 0, issued := 98, fmtA := 0, fmtB := 0, linkA := some 0, linkB := some 1, baseA := 0, baseB := 0
                     scaleA := 0, scaleB := 0, blocks := 1, lanes := 8, dst := 0, sum := 0, selA := 16, selB := 17 }
    let d : Due := { at_ := 100, tag := 98, ctx := 0, index := 0, op := .dotWord 0 0 }
    let s := tile32 { dues := [d], dot := some k, ins := [(0, { queues := [(0, [tok])] }), (1, { queues := [(0, [tok])] })] }
    (getTile s 3 2).dues = [d] ∧ (getTile s 3 2).dot = some k ∧ ((getTile s 3 2).inp 0).queue 0 = [tok] ∧ ((getTile s 3 2).inp 1).queue 0 = [tok] ∧
      0 < mxWords k.fmtA ∧ 1 < max (mxWords k.fmtA) (mxWords k.fmtB) ∧ fldN k.scaleA 8 4 = ((getTile s 3 2).ctx 0).dseqA.toNat := by decide +kernel

/-- A token passes from N to E through tile (3, 2): route bits of R52. -/
theorem witness_TileEventsAct_pass :
    ∃ r : W32, let x : Partition := { part0 with ctxs := [(0, { state := .running, image := { imageOf [] with routes := [r] } })] }
      let s := tile32 { ins := [(0, { pass := some tok })] } x
      tokensMove s 0 = true ∧ ((getTile s 3 2).inp 0).pass = some tok ∧ routePass (routeOf s 0 3 2 0) 0 = true ∧ (getPart s 0).byteMode = false ∧
        selecting (routeOf s 0 3 2 0) 0 = [1] ∧ edgeSide 2 1 = none ∧ neighbour 3 2 1 = some (4, 2) ∧
        gateOf s 0 3 2 0 [1] false false (readyPasses s 0 3 2 ++ (sendWants s 3 2).toList) = .go := by
  exact ⟨4128, by decide +kernel⟩

/-! ### The vaults -/

/-- A vault request of tile (3, 2). -/
def vreq (kind : VKind) : VReq := { ctx := 0, kind := kind, index := 0, word := 7, scr := 1020, issued := 84, service := 100 }

/-- Partition 0 under contract LC-1, started in cycle 0. -/
def padded0 : Partition := { part0 with padded := true, ctxs := [(0, { state := .running, image := { imageOf [] with fixedClass := true } })] }

theorem witness_VaultRequestsServed :
    ([vreq .load, { vreq .store with data := some [{}, {}, {}, {}] }, vreq (.fold 3)].all (fun r =>
      let s := tile32 { vq := [r], issuedAt := some 100 }
      let pv := physVault s (vaultOf 3 2)
      nextRequest (getTile s 3 2) == some r && vaultTurn s pv 3 2 == some 2 && !servedNow s pv && !agedReady s pv && !(getPart s 0).padded)) = true ∧
    isTile 3 2 = true ∧ partOf (tile32 {}) 3 = some 0 := by decide +kernel

/-- In its service cycle, in one that belongs to an auxiliary access, on an occupied bank, and on the bank that the calendar keeps. -/
theorem witness_VaultRequestsServed_padded :
    (let r := vreq .load
     let s := tile32 { vq := [r] } padded0
     nextRequest (getTile s 3 2) = some r ∧ (getPart s 0).padded = true ∧ r.service ≤ s.canopy.now ∧ vaultRivals s 3 2 r = [] ∧ r.service % 64 = 36 ∧
       calendarClash r.service (bankOf r.word) = false ∧ Table.get 0 s.vaults.bankUntil (16 * physVault s (vaultOf 3 2) + bankOf r.word) ≤ r.service) ∧
    (let r := { vreq .load with service := 63 }
     let s := tile32 { vq := [r] } padded0
     nextRequest (getTile s 3 2) = some r ∧ vaultRivals s 3 2 r = [] ∧ r.service % 64 = 63 ∧ ((getPart s 0).ctx 0).state.resident = true) ∧
    (calendarClash 62 0 = true ∧ calendarClash 23 0 = false) := by decide +kernel

theorem witness_VaultRequestsServed_return :
    (let r := { vreq .load with loaded := some (99, [{}, {}, {}, {}]) }
     let s := tile32 { vq := [r], issuedAt := some 100 }
     (getTile s 3 2).vq = [r] ∧ writesOpen s 3 2 = true ∧ returning s (getTile s 3 2) = some r ∧
       (∀ j < 4, writesWord s 0 3 2 3 0 84 ((r.scr + j) % 1024) = true)) ∧
    (let r := { vreq .load with loaded := some (99, [{}, {}, {}, {}]), scr := 1023 }
     let d : Due := { at_ := 100, tag := 84, ctx := 0, index := 0, op := .loadReturn 84 }
     let s := tile32 { vq := [r], dues := [d], issuedAt := some 100 } padded0
     (getTile s 3 2).dues = [d] ∧ writesOpen s 3 2 = true ∧ (getPart s 0).padded = true ∧
       (∀ j < 4, writesWord s 0 3 2 3 0 84 ((r.scr + j) % 1024) = true)) := by decide +kernel

theorem witness_VaultUpkeep :
    (auxOpen .refresh 21119 15 ready = true ∧ refreshDue ready { vault := 21119, bank := 15, die := 3, row := 255 } = false ∧
      auxOpen .refresh 21119 15 { ready with vaults := { retraining := true } } = false) ∧
    (ready.vaults.scrubEnable = true ∧ ready.vaults.visits = [] ∧ 0 < logicalVaults ready ∧ auxOpen .scrub (physVault ready 0) (bankOf 0) ready = true ∧
      (decodeWord (storedWord ready (wordLoc ready 0 0))).1 = .clean) ∧
    (let s : State := { ready with vaults := { mem := [⟨64 * wordLoc ready 0 0 + 3, 1⟩] } }
     (decodeWord (storedWord s (wordLoc s 0 0))).1 = .corrected) ∧
    (let s : State := { ready with vaults := { scrubAt := (logicalVaults ready - 1) * 2 ^ 20 + (vaultWords ready - 1) } }
     s.vaults.scrubAt / 2 ^ 20 < logicalVaults s ∧ ¬ s.vaults.scrubAt % 2 ^ 20 + 1 < vaultWords s ∧ ¬ s.vaults.scrubAt / 2 ^ 20 + 1 < logicalVaults s) := by
  decide +kernel

/-- A row of bank 0, and the eight spares of its bank. -/
def row5 : RowId := { vault := 0, bank := 0, die := 0, row := 5 }
def sparesUsed : List Repair := (List.range 8).map (fun k => { row := { row5 with row := 6 + k }, spare := k, copied := 64 })

theorem witness_VaultUpkeep_rows :
    ([62, 63].all (fun col => let s : State := { ready with vaults := { visits := [(row5, col)] } }
      logicalOf s 0 == some 0 && auxOpen .scrub 0 0 s)) = true ∧
    ([62, 63].all (fun n => let s : State := { ready with vaults := { redirects := [{ row := row5, spare := 0, copied := n }] } }
      (s.vaults.redirects.find? (fun x => decide (x.copied < 64))).isSome && auxOpen .repair 0 0 s)) = true ∧
    (let s : State := { ready with vaults := { repairQueue := [row5], redirects := sparesUsed, unrepaired := [row5] } }
     s.vaults.redirects.find? (fun x => decide (x.copied < 64)) = none ∧ freeSpares s 0 0 0 = [] ∧
       s.vaults.unrepaired.any (fun x => x.vault / 32 == 0) = true) ∧
    (let s : State := { ready with vaults := { repairQueue := [row5] } }
     freeSpares s 0 0 0 = 0 :: (freeSpares s 0 0 0).drop 1 ∧ ({ row := row5, spare := 0 } : Repair) ∉ s.vaults.redirects) := by decide +kernel

/-! ### Upkeep, reduction and ring records -/

theorem witness_PartitionUpkeep :
    (let s := { withPart { part0 with ctxs := [(0, { state := .running })], sampler := { enable := true } } with canopy := { (withPart { part0 with ctxs := [(0, { state := .running })], sampler := { enable := true } }).canopy with now := 65536 } }
     (getPart s 0).sampler.enable = true ∧ (getPart s 0).busy = true ∧ s.canopy.paused = false ∧
       (s.canopy.now - (getPart s 0).start) % (getPart s 0).sampler.period = 0 ∧ (getPart s 0).sampler.lastAt ≠ some s.canopy.now ∧
       (getPart s 0).sampler.draining = []) ∧
    (let s := withPart { part0 with sampler := { queue := 5, draining := [[1]] } } (queue5 { writer := 5 })
     (getPart s 0).sampler.draining = [[1]] ∧ sqReady (getQueue s 5) = true ∧ (getQueue s 5).writer = 5 ∧ (getQueue s 5).frozen = false ∧
       (getQueue s 5).full = false) := by decide +kernel

theorem witness_PartitionUpkeep_compat :
    let im : Image := { imageOf [] with compat := true, compatPages := 1 }
    let x : Partition := { part0 with ctxs := [(0, { state := .running, image := im })] }
    let s := withPart x
    let s : State := { s with canopy := { s.canopy with now := 4096, tiles := [(tileKey 3 2, { ins := [(0, { queues := [(0, [tok, tok])], spilled := [tok] }), (1, { queues := [(0, [tok])], spilled := [tok] })] })] } }
    ((getPart s 0).ctx 0).image.compat = true ∧ (getPart s 0).busy = true ∧ (getPart s 0).activity + 4096 ≤ s.canopy.now ∧ (getPart s 0).owner = none ∧
      Table.wf {} s.canopy.tiles = true ∧
      areaTokens s 0 + ((partTiles s 0).map (fun kv => (((List.range 4).filter (fun d => (kv.2.inp d).full0)).map (fun d => ((kv.2.inp d).queue 0).length)).sum)).sum
        ≤ areaCapacity s 0 ∧
      (∃ kv ∈ partTiles s 0, ∃ d, d < 4 ∧ (kv.2.inp d).full0 = true) ∧
      ((getTile s 3 2).inp 1).spilled = [tok] ∧ (((getTile s 3 2).inp 1).queue 0).length < ((getTile s 3 2).inp 1).depth 0 := by decide +kernel

/-- A device at a coordinate, channel 63 over a box of 3 by 2 (the root at (1, 1)) or of itself alone. -/
def member (c : BitVec 16) (x : Channel) (box : W32 := 0x1020) : State :=
  { ready with fabric := { coord := some c, sizes := 0x0033, channels := [(63, { x with enabled := true, box := box })] } }

/-- A block and a packet of it. -/
def blk : RedBlock := { no := 0, desc := 0, tokens := [], code := 0x97 }
def red (kind : Nat) (code : Nat := 0x98) : RedPkt := { src := 0, kind := kind, no := 0, desc := 0, code := code }

/-- (0, 0) is a leaf, (1, 0) has two children and a parent, (1, 1) is the root. -/
theorem witness_ReductionAndRingRecords_places :
    (childDirs (member 0 {}) 0x1020 0 = [] ∧ (parentDir (member 0 {}) 0x1020 0).isSome = true) ∧
    ((childDirs (member 1 {}) 0x1020 1).length = 2 ∧ (parentDir (member 1 {}) 0x1020 1).isSome = true) ∧
    (childDirs (member 0x11 {}) 0x1020 0x11 ≠ [] ∧ parentDir (member 0x11 {}) 0x1020 0x11 = none) ∧
    (childDirs (member 0 {}) 0 0 = [] ∧ parentDir (member 0 {}) 0 0 = none) := by decide +kernel

theorem witness_ReductionAndRingRecords :
    (let s := member 1 { assembly := [{}, {}, {}] }
     (getChan s 63).enabled = true ∧ (getChan s 63).assembly = {} :: [{}, {}] ∧ ([{}, {}] : List SqWord).length = blockTokens (fldN (0 : W64) 0 3) ∧
       (∀ y ∈ (getChan s 63).blocks, y.no ≠ (getChan s 63).blockNo)) ∧
    (let s := member 1 { inbox := [red 0], blocks := [blk] }
     (getChan s 63).inbox = [red 0] ∧ (getChan s 63).blocks = [blk] ∧ blk.sent1 = false ∧ blk.final = none ∧ blk.got1.contains 0 = false ∧
       blk.got1.length + 1 < (childDirs s 0x1020 1).length) ∧
    (let b := { blk with got1 := [2] }
     let s := member 1 { inbox := [red 0], blocks := [b] }
     b.got1.length + 1 = (childDirs s 0x1020 1).length ∧ b.got1.contains 0 = false) ∧
    (let b := { blk with got1 := [(0x10 : BitVec 16), 0x12] }
     let s := member 0x11 { inbox := [red 0 0x8000], blocks := [b] }
     b.got1.length + 1 = (childDirs s 0x1020 0x11).length ∧ runsPass2 (combineCode b.code 0x8000 true) = false) ∧
    (let b := { blk with sent1 := true }
     b.sent1 = true ∧ b.final = none ∧ runsPass2 0x98 = true ∧ runsPass2 0x8000 = false ∧ b.got2.length < (childDirs (member 1 {}) 0x1020 1).length) ∧
    (let b := { blk with sent1 := true, final := some 0x98 }
     b.sent2 = false ∧ b.got2.contains 0 = false ∧ b.got2.length + 1 < (childDirs (member 1 {}) 0x1020 1).length ∧
       ({ b with got2 := [(2 : BitVec 16)] } : RedBlock).got2.length + 1 = (childDirs (member 1 {}) 0x1020 1).length ∧
       ({ b with sent2 := true } : RedBlock).sent2 = true) := by decide +kernel

theorem witness_ReductionAndRingRecords_record :
    let d : StepDone := { deviceFold := 0, digest := [], cutRange := false, skew := false, images := [], seed := 0, layers := 0, bays := 1 }
    let s (n : Nat) : State := { ready with ring := { due := [d], signInterval := n, nextIndex := 15 } }
    (s 16).ring.due = [d] ∧ (s 16).ring.records.length < 4096 ∧ (s 16).ring.seals.length < 64 ∧
      (decide (0 < (s 16).ring.signInterval) && ((s 16).ring.nextIndex.toNat + 1) % (s 16).ring.signInterval == 0) = true ∧
      (decide (0 < (s 0).ring.signInterval) && ((s 0).ring.nextIndex.toNat + 1) % (s 0).ring.signInterval == 0) = false := by decide +kernel

/-! ### Streams and the trigger -/

/-- E-port 7 in raw mode with lane 63 locked, bound to endpoint 2, whose data go to tile (3, 0). -/
def raw (x : Stream) (s : State := ready) : State :=
  { bound 8 2 s with eth := { ports := [(7, { mode := 6 })] }, trig := { lanes := [(63, { locked := true })], streams := [(2, { x with port := 7, mask := 0x80 })] } }

/-- The header word of a frame of `n` payload words as it arrives, big-endian, and a frame of that header and these words. -/
def headerWord (n : Nat) : W64 := headerValue (BitVec.ofNat 64 (n * 2 ^ 10))
def rawFrame (n : Nat) (ws : List W64) : RawFrame :=
  { data := headerWord n :: ws, crc := crc32 ((headerWord n :: ws).flatMap w64Bytes), bad := false }

/-- A frame whose four bytes of FCS are its CRC, block by block, and one with an IDLE block inside it. -/
theorem witness_StreamAndTriggerEventsAct_blocks :
    blockKind { sync := 2, data := 0x5A } = .start ∧ blockKind { sync := 2, data := 0x3C } = .idle ∧ BlockKind.idle.ends = false ∧
      (∀ w, BlockKind.idle ≠ .data w) ∧ readFrame [{ sync := 1, data := 1 }] = none := by
  refine ⟨by decide +kernel, by decide +kernel, by decide +kernel, ?_, by decide +kernel⟩
  intro w h
  cases h

theorem witness_StreamAndTriggerEventsAct_frames :
    (let s := raw { enable := true, queue := 5 } (queue5 {})
     let f := rawFrame 1 [9]
     let header := headerValue (f.data.headD 0)
     (getEPort s (63 / 8)).mode = 6 ∧ (getLane s 63).locked = true ∧ laneEndpoint s 63 = some 2 ∧ streamRuns s 2 = true ∧ fldN header 10 10 = 1 ∧
       f.data.length = 2 ∧ crc32 (f.data.flatMap w64Bytes) = f.crc ∧
       (getQueue s 5).wr - (getQueue s 5).rel + (frameCells (header :: f.data.drop 1)).length ≤ (getQueue s 5).capacity ∧ s.trig.records = []) ∧
    laneEndpoint (raw {}) 63 = none ∧ streamRuns ({ raw { enable := true } with canopy := {} } : State) 2 = false ∧
    (fldN (headerValue ((rawFrame 0 []).data.headD 0)) 10 10 = 0 ∧ fldN (headerValue ((rawFrame 513 [9]).data.headD 0)) 10 10 = 513 ∧
      (rawFrame 2 [9]).data.length ≠ 2 + 1 ∧ crc32 ((rawFrame 1 [9]).data.flatMap w64Bytes) ≠ 0) ∧
    (let s := raw { enable := true, queue := 5 } (queue5 { wr := 128, writer := 3 })
     ¬ (getQueue s 5).wr - (getQueue s 5).rel + (frameCells [0, 9]).length ≤ (getQueue s 5).capacity) := by decide +kernel

/-- Captures of endpoint 2 in each state, whose queue 5 has room or has none. -/
theorem witness_StreamAndTriggerEventsAct_captures :
    ([CapState.idle, .armed, .post, .frozen].all (fun st =>
      let s : State := { queue5 { writer := 4, circular := true, vaults := 1, pages := 2 } with trig := { caps := [(3, { state := st, cfg := { source := 2, queue := 5 }, left := 1 })] } }
      (getCap s 3).state == st && !((getCap s 3).state == .post && (getCap s 3).left == 0) && tailRoom (getQueue s 5) 1)) = true ∧
    tailRoom (getQueue (queue5 { vaults := 1, pages := 2, wr := 64 }) 5) 1 = false := by decide +kernel

/-- The header of a frame of two words, then its last word; the frame that may not be delivered yet. -/
theorem witness_StreamAndTriggerEventsAct_delivery :
    (let f : StreamFrame := { seq := 0, lane := 63, words := 2, cell := 0, allowed := 0 }
     ([f, { f with sent := 1 }].all (fun f =>
       let s := raw { enable := true, queue := 5, frames := [f] } (queue5 { reader := 1, wr := 1, rdWord := f.sent, tail := [(0, cell)] })
       let q : Spill := if f.sent = 0 then { getQueue s 5 with rd := f.cell, rdWord := 0 } else getQueue s 5
       !s.canopy.paused && (getStream s 2).deliveredAt != some s.canopy.now && streamRuns s 2 && (getStream s 2).lost == none
         && decide (f.allowed ≤ s.clk.aclk) && q.nextWord == some { v := 9 })) = true) ∧
    (getStream (raw { enable := true }) 2).frames = [] ∧ streamRuns (raw { enable := true }) 2 = true ∧
    (raw { frames := [{ seq := 0, lane := 63, words := 2, cell := 0, allowed := 1 }] }).clk.aclk < 1 := by decide +kernel

theorem witness_StreamAndTriggerEventsAct_channels :
    (let w : WireTok := { tok := { data := 0x3F800000, ctx := 0 }, at_ := 3 }
     let s : State := { ready with canopy := { now := 4, edges := [(edgeKey 5 63, [w])] }, trig := { chans := [(63, { armed := true, cfg := { level := 0x3F000000 } })] } }
     s.canopy.paused = false ∧ getEdge s 5 63 = [w] ∧ w.at_ + 1 ≤ s.canopy.now ∧ (getChanT s 63).armed = true ∧ (getChanT s 63).cfg.source = 0 ∧
       (fpDec 23 0x3F800000).nan = false ∧ (getChanT s 63).high = false ∧ geF 0x3F800000 (getChanT s 63).cfg.level = true ∧
       (fpDec 23 0x7FC00000).nan = true ∧ Table.get 0 s.canopy.taken (edgeKey 5 63) ≠ s.canopy.now + 1 ∧ geF 0x3F000000 0x3F800000 = false) ∧
    (let s : State := { ready with canopy := { paused := true } }
     s.canopy.paused = true ∧ ready.canopy.paused = false) := by decide +kernel

theorem witness_StreamAndTriggerEventsAct_outputs :
    let why : Cause := .pin 0 0 0
    let s : State := { ready with
      canopy := { now := 5 }
      trig := { decEnable := true, decQueue := 5, chans := [(63, { armed := true, fires := [(4, why)] })]
                outs := [(3, { armed := true, cfg := { orMask := 1#64 <<< 63 }, pulses := [(0, 13)] })]
                caps := [(3, { state := .armed, cfg := { post := 1 } }), (2, { state := .post })] } }
    (getOut s 3).armed = true ∧ s.canopy.paused = false ∧ (getOut s 3).evalAt ≠ some s.canopy.now ∧ s.canopy.now ≠ 0 ∧
      (getChanT s 63).firedAt (s.canopy.now - 1) = some why ∧ (∀ j < 63, (getChanT s j).firedAt (s.canopy.now - 1) = none) ∧
      (getOut s 3).cfg.orMask.getLsbD 63 = true ∧ (getOut s 3).holdEnd < s.canopy.now ∧ (getCap s 3).state = .armed ∧ (getCap s 3).cfg.post ≠ 0 ∧
      ({ getOut s 3 with holdEnd := 5 } : TrigOut).holdEnd = s.canopy.now ∧ (getOut s 3).pulses = [(0, 13)] ∧
      5 * 5 < 5 * (0 + 13) + 3 * s.clk.units ∧ 5 * (0 + 13) + 3 * s.clk.units ≤ 5 * 100 ∧ (getCap s 2).state = .post ∧ (getCap s 2).left = 0 ∧
      (getCap s 1).cfg.post = 0 := by decide +kernel

/-- A decision record that its queue takes. -/
theorem witness_StreamAndTriggerEventsAct_record :
    let r : DecRecord := { out := 3, seen := [], bytes := List.replicate 32 1 }
    let s : State := { queue5 { writer := 4 } with trig := { decQueue := 5, records := [r] } }
    s.trig.records = [r] ∧ s.trig.ended = [] ∧ (getQueue s 5).accepts 4 = true ∧ getEdge s 1 261 = [] ∧ (getQueue s 5).full = false := by decide +kernel

/-- A HIGH channel, tokens above and below its release level, a poisoned one, and a channel that takes no scores. -/
theorem witness_StreamAndTriggerEventsAct_high :
    let s (poison : Bool) (source : Nat) : State := { ready with
      canopy := { now := 4, edges := [(edgeKey 5 63, [{ tok := { data := 0x3F800000, ctx := 0, poison := poison }, at_ := 3 }])] }
      trig := { chans := [(63, { armed := true, high := true, release := 0x3F800000, cfg := { level := 0x3F800000, source := source } })] } }
    (getChanT (s false 0) 63).high = true ∧ geF 0x3F800000 (getChanT (s false 0) 63).release = true ∧ geF 0x3F7FFFFF (getChanT (s false 0) 63).release = false ∧
      (getEdge (s true 0) 5 63).all (fun w => w.tok.poison) = true ∧ (getChanT (s false 2) 63).cfg.source ≠ 0 ∧ (getEPort ready 7).mode ≠ 6 := by
  decide +kernel

/-! ### MACs and replies -/

/-- E-port 0 in mode 1, its MAC 0 as given. -/
def mac0 (x : Mac) (s : State := ready) : State := { s with eth := { ports := [(0, { mode := 1 })], macs := Table.set {} [] 0 x } }

/-- A frame of 64 bytes whose FCS is right, and a configuration that takes it. -/
def frame : List Byte := List.replicate 60 0 ++ leBytes 4 (crc32 (List.replicate 60 0)).toNat
def takes : MacConf := { cfg := { enable := true, promisc := true, rxValid := true, rxQueue := 5 } }

theorem witness_MacAndReplyEventsAct_receive :
    (let s := mac0 { conf := takes, linkUp := true } (queue5 { writer := 3 })
     macPresent s 0 = true ∧ (getMac s 0).frames = [] ∧ (getMac s 0).replies = [] ∧ (getMac s 0).inFlight = [] ∧
       (getMac s 0).cutAt ≠ some 0 ∧ (verdictCase ((getMac s 0).confAt 0) frame (!(getMac s 0).linkUp)).2 = none ∧
       rxFits s 5 64 = true ∧ rxHeld s 0 64 0 = true) ∧
    (let s := mac0 { conf := takes } (queue5 { writer := 3, wr := 1000 })
     (verdictCase ((getMac s 0).confAt 0) frame false).2 = none ∧ rxFits s 5 64 = false) ∧
    (verdictCase takes frame true).2 = some ctRxCode ∧ (verdictCase {} frame false).2 = some ctRxDisabled := by decide +kernel

theorem witness_MacAndReplyEventsAct_evaluate :
    let c : MacConf := { takes with
      filter := [(0, { addr := List.replicate 6 0, valid := true, eval := true })]
      extract := { first := some 3, fields := [{ offset := 0, anchor := 0, len := 4, ty := 0, scale := 0 }, { offset := 4, anchor := 0, len := 4, ty := 0, scale := 0 }] } }
    let s := ensemble3 { engines := 1, features := 2, depth := 1 } {} (mac0 { conf := c })
    macPresent s 0 = true ∧ s.canopy.paused = false ∧ openFrame (getMac s 0) = none ∧ evaluates ((getMac s 0).confAt 0) frame = true ∧
      (∀ e ∈ c.extract.fields, fieldState frame true e ≠ .waiting) ∧ (writeSample 3 (sample) s).isSome = true ∧
      (writeSample 4 (sample) s).isSome = false := by decide +kernel

/-- A frame under evaluation whose reply is in this stage, with its verdict. -/
def replying (v : Option Bool) (mode : Nat := 1) : RxFrame :=
  { serial := 0, word0 := 0, conf := { takes with reply := { mode := mode } }, bytes := frame, result := some (0, false), replying := true, verdict := v }
def reply0 : ReplyRec := { serial := 0, template := 0, ready := 64, bytes := List.replicate 60 1 }

theorem witness_MacAndReplyEventsAct_replies :
    (let s := mac0 { frames := [replying none], building := [reply0] } { ready with canopy := { now := 64 } }
     (getMac s 0).building = [reply0] ∧ findFrame s 0 0 = some (replying none) ∧ reply0.ready ≤ s.canopy.now ∧ s.canopy.paused = false ∧
       (getMac s 0).replies.length < 16 ∧ (replying none).verdict ≠ some false ∧ (getMac s 0).busyUntil ≤ 100 * s.clk.tticks ∧ (getMac s 0).inForce = none ∧
       (patchTemplate (Table.get {} (getEPort s 0).templates 0) (replying none) 0 0).isSome = true ∧ ready.canopy.now < reply0.ready) ∧
    (let s := mac0 { frames := [replying none], building := [reply0], replies := List.replicate 16 reply0 } { ready with canopy := { now := 64 } }
     16 ≤ (getMac s 0).replies.length ∧ (replying none).lateResult = false) ∧
    (let s := mac0 { frames := [replying none], replies := [reply0] }
     (getMac s 0).replies = [reply0] ∧ findFrame s 0 0 = some (replying none) ∧ chooseTx s 0 = .reply reply0 ∧ pausedSince s 0 = false) ∧
    (([some true, some false, none] : List (Option Bool)).all (fun v =>
      let r := { reply0 with started := some 0 }
      let s := mac0 { frames := [replying v], inFlight := [r] } { ready with clk := { tticks := 1000 } }
      (getMac s 0).inFlight == [r] && !r.handed && findFrame s 0 0 == some (replying v) && decide (0 + r.bytes.length * byteTime (macMode s 0) ≤ 100 * s.clk.tticks)) = true) ∧
    (replying none 2).conf.reply.mode = 2 ∧ 0 < reply0.bytes.length * byteTime (macMode (mac0 {}) 0) := by decide +kernel

/-- A descriptor of 60 bytes to send as they are, and its queue. -/
def descriptor (kind : Nat) : SqCell := { words := (bytesW64 (leBytes 1 kind ++ [0, 0, 0] ++ leBytes 4 60 ++ List.replicate 56 0)).map (fun w => { v := w }) }
def sending (kind : Nat) : State :=
  mac0 { conf := { cfg := { enable := true, txValid := 1, txQueues := 5 } } }
    (queue5 { writer := 2, reader := 3, wr := 2, tail := [(0, descriptor kind), (1, cell)] })

theorem witness_MacAndReplyEventsAct_send :
    (let s := sending 0
     let sq := getQueue s 5
     let d := (wordBytes (descriptor 0).words).map (fun e => e.1)
     let it : TxItem := { desc := d, cells := descCells d }
     let r := fillItem 5 (descLen d) it (takeCells 5 1 s).2
     (getMac s 0).conf.cfg.txValid.getLsbD 0 = true ∧ fldN (getMac s 0).conf.cfg.txQueues 0 8 = 5 ∧ (Table.get {} (getMac s 0).classes 0).frame = none ∧
       txBuffered (getMac s 0) + (getMac s 0).conf.cfg.maxFrame ≤ 16384 ∧ sq.reader = 3 ∧ sq.atRead = some (descriptor 0) ∧ descBad sq d = false ∧
       sq.rd + 1 + descCells d ≤ sq.wr ∧ descKind d = 0 ∧ it.isSegment = false ∧ descLen d + 4 ≤ (getMac s 0).conf.cfg.maxFrame ∧
       descLen d ≤ r.1.buf.length ∧ (match (copyNext 0 r.1 r.2).2 with | .inr _ => true | .inl _ => false) = true) ∧
    (let s := sending 2
     descBad (getQueue s 5) ((wordBytes (descriptor 2).words).map (fun e => e.1)) = true) ∧
    (let s := mac0 { conf := { cfg := { enable := true, txValid := 1, txQueues := 5 } } } (queue5 { reader := 3 })
     (getQueue s 5).atRead = none ∧ chooseTx s 0 = .nothing) ∧
    (let f : TxFrame := { bytes := List.replicate 60 1 }
     let s := mac0 { conf := { cfg := { enable := true } }, classes := [(0, { frame := some f })] }
     chooseTx (dropUnfits 0 s) 0 = .item 0 f ∧ f.fwd = none ∧ f.oneStep = false) ∧
    (let s := mac0 { frames := [replying none], replies := [reply0] }
     chooseTx (dropUnfits 0 s) 0 = .reply reply0) ∧
    (let g : GateList := { cycle := 1000, base := 0, entries := [0x0003E8FF], takes := 5 }
     let s := mac0 { pendingGates := some g, inForce := some g } timed
     (getMac s 0).pendingGates = some g ∧ (getMac s 0).inForce = some g ∧ g.takes ≤ s.time.total ∧ ready.time.total < g.takes) := by decide +kernel

/-- A class that is held, one that skips the cells of a refused item, one in the middle of an item, an item whose cells are still to come, one
that is too long, and one whose data are poisoned. -/
theorem witness_MacAndReplyEventsAct_items :
    ((getMac (mac0 {}) 0).conf.cfg.enable = false) ∧
    (let s := mac0 { conf := { cfg := { enable := true, txValid := 1, txQueues := 5 } }, classes := [(0, { skip := 1 })] }
     0 < (Table.get {} (getMac s 0).classes 0).skip) ∧
    (let d := (wordBytes (descriptor 0).words).map (fun e => e.1)
     let s := { sending 0 with queues := [(5, { writer := 2, reader := 3, wr := 1, tail := [(0, descriptor 0)] })] }
     (getQueue s 5).wr < (getQueue s 5).rd + 1 + descCells d) ∧
    (let d := (wordBytes (descriptor 0).words).map (fun e => e.1)
     let it : TxItem := { desc := d, cells := descCells d }
     let s := { sending 0 with queues := [(5, { writer := 2, reader := 3 })] }
     (fillItem 5 (descLen d) it s).1.buf.length < descLen d) ∧
    (let d := (wordBytes (descriptor 0).words).map (fun e => e.1)
     (56 : Nat) < descLen d + 4 ∧ (copyNext 0 { desc := d, cells := 1, readCells := 1, buf := List.replicate 64 (0, true) } ready).1.copied = 1 ∧
       (match (copyNext 0 { desc := d, cells := 1, readCells := 1, buf := List.replicate 64 (0, true) } ready).2 with | .inl _ => true | .inr _ => false) = true) := by
  decide +kernel

/-- A frame whose link is lost before its end, one whose verdict came before its sample, and one of which the queue takes only a part. -/
theorem witness_MacAndReplyEventsAct_cut :
    (let f := replying none
     let s := mac0 { linkUp := true, frames := [f] }
     openFrame (getMac s 0) = some f ∧ (getMac s 0).linkUp = true) ∧
    (let f := { replying (some true) with awaits := true }
     let s := mac0 { frames := [f] }
     openFrame (getMac s 0) = none ∧ (getMac s 0).frames.find? (fun f => f.awaits) = some f ∧ (getMac s 0).cutAt ≠ some 0) ∧
    (let s := mac0 { conf := takes, linkUp := true } (queue5 { writer := 3, vaults := 1, pages := 2, wr := 63 })
     rxFits s 5 64 = true ∧ (getQueue s 5).room 2 < 2 ∧ rxHeld s 0 64 0 = true) ∧
    (let f := { offset := 0, anchor := 0, len := 4, ty := 0, scale := 0 : ExtField }
     fieldState [] false f = .waiting) ∧
    (let s := mac0 { frames := [replying none], inFlight := [{ reply0 with started := some 0 }] }
     100 * s.clk.tticks < 0 + reply0.bytes.length * byteTime (macMode s 0)) := by decide +kernel

/-! ### Lanes and ports -/

/-- Port 39 as given. -/
def port39 (x : FPort) (s : State := ready) : State := { s with fabric := { ports := Table.set {} [] 39 x } }

/-- In SEARCH: a lane of an idle search, one whose turn has come at the search's offset, one to be tested again, and one whose test is under way. -/
theorem witness_LaneEventsAct_search :
    (let s := port39 { lanes := [(8, { rx := .search })] }
     ((getPort s 39).lane 8).rx = .search ∧ (getPort s 39).searchAt = none) ∧
    (let s := port39 { searchAt := some 256, lanes := [(8, { rx := .search, hunt := .todo }), (7, { rx := .search, hunt := .tried })] }
     ((getPort s 39).lane 8).hunt = .todo ∧ (getPort s 39).searchAt = some 256) ∧
    (let s := port39 { searchAt := some 0, lanes := [(8, { rx := .search, hunt := .again })] }
     ((getPort s 39).lane 8).hunt = .again ∧ (∀ j < 8, ((getPort s 39).lane j).rx ≠ .search)) ∧
    ([(0, Hunt.testing), (256, .testing), (256, .retesting)].all (fun k =>
      let s := port39 { searchAt := some k.1, lanes := [(8, { rx := .search, hunt := k.2, slipBusy := true, slipOffset := k.1 })] }
      ((getPort s 39).lane 8).slipBusy && (getPort s 39).searchAt == some k.1)) = true ∧
    ((getPort ready 39).lane 8).rx ≠ .search ∧ ((getPort ready 39).lane 8).slipBusy = false := by decide +kernel

/-- The ALIGN group of the peer of port 39's lane 8, alone and as the first group of a codeword. -/
def alignGroup (mode countdown : Nat) : AlignGroup := { lane := 8, port := (expectedPeer (port39 { role := 3 }) 39), mode := mode, countdown := countdown }

theorem witness_LaneEventsAct_groups :
    alignOf (alignGroup 1 0).group none = (.align (alignGroup 1 0), false) ∧ (alignOf fillGroup none).1 = .fill ∧
    alignOf (alignGroup 2 0xFF).group (some ((laneEncode (groupBits ((alignGroup 2 0xFF).group :: List.replicate 19 fillGroup))).extractLsb' 257 5183)) =
      (.align (alignGroup 2 0xFF), true) := by
  decide +kernel

theorem witness_LaneEventsAct_align :
    ([LaneRx.aligned, .up].all (fun r =>
      let s := port39 { role := 3, lanes := [(8, { rx := r, counted := true })] }
      (getPort s 39).role != 0 && (getPort s 39).power != .deep && ((getPort s 39).lane 8).rx == r && ((getPort s 39).lane 8).counted
        && (alignGroup 2 0xFF).port == expectedPeer s 39)) = true := by decide +kernel

theorem witness_LaneEventsAct_times :
    (let s := port39 { role := 3, lanes := [(8, { rx := .aligned, tx := .countdown })] } { ready with clk := { tticks := 100000 } }
     ((getPort s 39).lane 8).tx = .countdown ∧ (getPort s 39).lastAlign + 100000 ≤ s.clk.tticks ∧ ready.clk.tticks < (getPort ready 39).lastAlign + 100000) ∧
    ((getPort ready 39).role = 0 ∧ ((getPort ready 39).lane 8).tx ≠ .countdown ∧ ((getPort ready 39).lane 8).rx = .off) ∧
    ((getPort (port39 { lanes := [(8, { rx := .acquire, good := 3 })] }) 39).lane 8).rx = .acquire ∧
    (let s := port39 { lanes := [(8, { rx := .up, lowSince := some 0 })] } { ready with clk := { tticks := 100000 } }
     ((getPort s 39).lane 8).rx = .up ∧ ((getPort s 39).lane 8).lowSince = some 0 ∧ 0 + 100000 ≤ s.clk.tticks) := by decide +kernel

/-- A flit of one byte with its CRC, and the first codeword of a period whose slot 0 holds it. -/
def flit : List Byte :=
  let b : List Byte := leBytes 2 0 ++ leBytes 2 0x1001 ++ [0x38] ++ [0, 1, 0] ++ [0] ++ List.replicate 243 0
  b ++ leBytes 4 (crc32 b).toNat
def flitWord (b : List Byte) : BitVec 5440 :=
  laneEncode (groupBits (List.replicate 7 fillGroup ++ (scrambleGroups 0 (fillGroup :: flitGroups b ++ List.replicate 4 fillGroup)).1))

set_option maxRecDepth 100000 in
/-- A slot with a flit. -/
theorem witness_PortEventsAct_slots :
    (match readSlot 0 ([flitWord flit].map laneDecode) with
      | .flit b => crc32 (b.take 252) == BitVec.ofNat 32 (leAt b 252 4)
      | _ => false) = true := by decide +kernel

/-- A slot with FILL groups, and one whose codeword is lost. -/
theorem witness_PortEventsAct_fill :
    readSlot 0 ([laneEncode (groupBits (List.replicate 7 fillGroup ++ (scrambleGroups 0 (List.replicate 13 fillGroup)).1))].map laneDecode) = .fill ∧
    readSlot 0 [none] = .bad ∧ readSlot 1 [some (0, 0)] = .bad := by decide +kernel

set_option maxRecDepth 20000 in
theorem witness_PortEventsAct_flits :
    (let s := port39 { role := 3, lanes := [(8, { rx := .up })], retry := [{ vc := 0, first := true, last := true, payload := [] }, { vc := 0, first := true, last := true, payload := [] }] }
     (getPort s 39).role ≠ 0 ∧ ((getPort s 39).lane 8).rx = .up ∧ flit.length = 256 ∧ crc32 (flit.take 252) = BitVec.ofNat 32 (leAt flit 252 4) ∧
       leAt flit 4 1 / 8 % 2 = 1 ∧ leAt flit 0 2 % 4096 = (getPort s 39).expected.toNat ∧ (getPort s 39).reorder = [] ∧
       ahead 12 (leAt flit 2 2 % 4096) (getPort s 39).oldest.toNat = some 1 ∧ 1 < (getPort s 39).retry.length ∧ leAt flit 2 2 / 4096 % 2 = 1 ∧
       (getPort s 39).nakSeen = none ∧ (ahead 16 (leAt flit 6 2) (Table.get 0 (getPort s 39).credit (leAt flit 4 1 % 8))).isSome = true) ∧
    ahead 12 0xFFF 0 = none ∧
    (crc32 ((flit.set 12 1).take 252) ≠ BitVec.ofNat 32 (leAt (flit.set 12 1) 252 4)) := by decide +kernel

theorem witness_PortEventsAct_sleep :
    (let s := port39 { txDown := some 0, rxDown := some 0, power := .entering } { ready with clk := { tticks := 10000000 } }
     (getPort s 39).power = .entering ∧ (getPort s 39).queue = [] ∧ (getPort s 39).retry = [] ∧ (getPort s 39).txDown = some 0 ∧
       0 + 10000000 ≤ s.clk.tticks) ∧
    (let s := port39 { power := .entering, queue := [{ vc := 0, first := true, last := true, payload := [] }] } { ready with clk := { tticks := 1000000 } }
     (getPort s 39).txAsleep = false ∧ (getPort s 39).entered + 1000000 ≤ s.clk.tticks ∧ (getPort s 39).queue ≠ []) ∧
    ((getPort ready 39).power ≠ .entering ∧ (getPort ready 39).power ≠ .deep ∧ (getPort ready 39).txDown = none) ∧
    (getPort (port39 { power := .deep }) 39).power = .deep := by decide +kernel

/-- A port whose virtual channel 0 holds a whole packet. -/
def holding (k : FabPacket) (role : Nat) (c : Option (BitVec 16) := some 0) : State :=
  { ready with fabric := { coord := c, sizes := 0x0003, ports := [(0, { role := role, txState := .up }), (39, { role := role, rxBuf := flitsOf 0 k.bytes })] } }

/-- The packet that such a port hands on. -/
def handed (s : State) : FabPacket := fromHost s 39 (parsePacket (((wholePacket (getPort s 39) 0).getD []).flatMap (fun f => f.payload)))

theorem witness_PortEventsAct_packets :
    (wholePacket (getPort ready 39) 0 = none) ∧
    (let s := holding { dest := 0, src := 0, ty := 2, body := [1] } 3
     (wholePacket (getPort s 39) 0).isSome = true ∧ (getPort s 39).role = 3 ∧ (handed s).ty ≠ 1) ∧
    (let s := holding { dest := 0x10, src := 0, ty := 1, body := [1] } 1
     (getPort s 39).role ≠ 3 ∧ s.fabric.isBridge = false ∧ (handed s).sourceRouted = false ∧ inSizes s (handed s).dest = false) ∧
    (let s := holding { dest := 0, src := 1, ty := 3, body := [1] } 1
     (handed s).ty = 3 ∧ inSizes s (handed s).dest = true ∧ s.fabric.coord = some 0) ∧
    (let s := holding { dest := 0, src := 1, ty := 1, body := [1] } 1
     (handed s).ty = 1 ∧ (handed s).dest = 0) ∧
    (let s := holding { dest := 1, src := 2, ty := 2, body := [1] } 1
     (handed s).ty = 2 ∧ (handed s).dest ≠ 0 ∧ ∃ d, d < 8 ∧ dimOrder s 0 (handed s).dest = some d ∧ trunk s d ≠ []) := by decide +kernel

/-! ### Power, resets, management -/

/-- Power as given at tick `n`. -/
def powered (n : Nat) (w : Power) : State := { ready with clk := { tticks := n }, power := w }

theorem witness_PowerEventsAct_governor :
    (∀ t, (powered 999 { sampledAt := some 0 }).power.sampledAt = some t → (powered 999 { sampledAt := some 0 }).clk.tticks < t + 1000) ∧
    (let s := powered 1000 { sampledAt := some 0, samples := List.replicate 64 3000000000, maxC := 101 }
     s.power.ramp = 0 ∧ s.power.estop = none ∧ s.power.warnPause = none ∧ overLimit s = true ∧ s.power.fill = [] ∧ s.power.throttle < 64 ∧
       s.power.fullSince = none ∧ throttleFree s = true) ∧
    (let s := powered 100000 { throttle := 1 }
     overLimit s = false ∧ relaxed s = true ∧ s.power.throttle ≠ 0 ∧ throttleFree s = true) ∧
    (let s := powered 100000 { samples := List.replicate 64 2390000000 }
     overLimit s = false ∧ relaxed s = false) ∧
    (let s := powered 64000 { throttle := 64, fullSince := some 0, maxC := 101 }
     overLimit s = true ∧ s.power.throttle = 64 ∧ s.power.fullSince = some 0 ∧ 0 + 64000 ≤ s.clk.tticks) := by decide +kernel

theorem witness_PowerEventsAct :
    (ready.power.estop = none) ∧
    (let s := busy .powerStop (pk []) id (powered 5 { estop := some .command })
     s.power.ramp = 0 ∧ s.power.estop = some .command ∧ s.host.flights = [only s] ∧ (only s).op = .powerStop ∧ (only s).phase = .active) ∧
    (94 * ready.power.setpoint ≤ 100 * 705 ∧ 100 * 704 < 94 * ready.power.setpoint ∧ ready.power.warnPause = none) ∧
    (let s := powered 2000 { warnPause := some 0, dipAt := 0 }
     s.power.warnPause = some 0 ∧ s.power.dipAt + 2000 ≤ s.clk.tticks ∧ 100 * 719 < 96 * s.power.setpoint ∧ 96 * s.power.setpoint ≤ 100 * 720 ∧ s.canopy.throttled = false ∧ s.boot.phase = .running) ∧
    (114 < 115 ∧ ready.power.trip = false ∧ ready.power.estop = none) ∧
    (∀ t, ready.power.measuredAt = some t → t + 1000000000 ≤ ready.clk.tticks) ∧
    (let s := powered 86400000000000 { monitors := [(255, { slowdown := 250 })] }
     s.power.replanAt + s.power.replanHours * 3600000000000 ≤ s.clk.tticks ∧ s.power.replan = none ∧ avsIdle s = true ∧ s.boot.stage = .ready ∧
       replanSteps s ≠ 0 ∧ 650 ≤ s.power.setpoint ∧ s.power.minMv ≤ s.power.setpoint ∧ s.power.setpoint + 5 ≤ 900 ∧
       replanSteps (powered 86400000000000 {}) = 0) ∧
    (let s := powered 10000 { avs := some { target := 755, at_ := 0 }, goal := 760 }
     s.power.avs = some { target := 755, at_ := 0 } ∧ 0 + 10000 ≤ s.clk.tticks ∧ s.power.replan = none ∧ s.power.goal ≠ 755) ∧
    (let s : State := { ready with power := { pendGraft := [(19, some 658)], pendRetire := [(18, some 600)] } }
     s.host.flights = [] ∧ s.boot.stage = .ready ∧ bayFree s 19 = true ∧ bayFree s 18 = true ∧ Table.get none s.power.pendGraft 19 = some 658 ∧
       Table.get none s.power.pendRetire 18 = some 600) ∧
    bayFree (ctx0 .loaded) 0 = false := by decide +kernel

/-- The device in this phase and stage of its boot. -/
def booting (ph : ResetPhase) (st : BootStage) (pins : Pins := {}) : State := { boot := { phase := ph, stage := st }, pins := pins }

theorem witness_ResetAndBootActs :
    (booting .running .rom).boot.phase = .running ∧ (booting .inReset .rom).boot.phase = .inReset ∧
    (let s := booting .ramping .rom { resetN := false }
     s.boot.phase = .ramping ∧ s.power.ramp = 0 ∧ s.pins.resetN = false) ∧
    (∀ st ∈ ([.rom, .profile, .identity, .training, .selfTest, .tested] : List BootStage), (booting .running st).boot.stage = st ∧ (booting .running st).host.flights = []) ∧
    avsIdle (booting .running .identity) = true ∧ avsIdle { booting .running .identity with power := { avs := some { target := 750, at_ := 0 } } } = false ∧
    (∀ b, b < 20 → Table.get none (booting .running .tested).power.pendGraft b = none ∧ Table.get none (booting .running .tested).power.pendRetire b = none) ∧
    (∀ n, n < 4 → slotValid (getSlot (booting .running .profile) n) = false) := by decide +kernel

theorem witness_ResetAndBootActs_slot : slotValid (getSlot { stored with pins := { profileSel := 1 } } 1) = true := stored_valid

theorem witness_ManagementActs :
    inReset (booting .inReset .rom) = true ∧ inReset ready = false ∧ (8 : Byte).toNat ≤ 8 ∧ 8 < (9 : Byte).toNat ∧ (9 : Byte) ≠ 0xFF ∧
      pmbusReads.contains 0xD0 = false ∧ pmbusReads.contains 0x8B = true ∧ pmbusReads.contains 0x03 = false ∧ pmbusWrites.contains 0x03 = true ∧ 3 < (0x8B : Byte).toNat := by decide +kernel

/-! ### Further clauses: registers and long operations -/

/-- READ_CSR of `n` words from an address; WRITE_CSR of these bytes. -/
def csrRead (a n : Nat) : Packet := pk (leBytes 4 a ++ leBytes 2 n)
def csrWrite (a : Nat) (b : List Byte) : Packet := pk (leBytes 4 a) b

theorem witness_RegisterAccess_runs :
    (let s := inService .readCsr (csrRead 0x00100010 8) ready
     servedAtOnce .readCsr (csrRead 0x00100010 8) ready = true ∧ (List.range 8).all (fun i => (csrAt s (0x00100010 + 4 * i)).isSome) = true) ∧
    ([csrRead 0x00100000 0, csrRead 0x00100000 1025, csrRead 0x00100002 1, csrRead 0x7FFFFFFC 2].all (fun p => servedAtOnce .readCsr p ready)) = true ∧
    (let p := csrWrite 0x00B00004 (List.replicate 8 1)
     let s := inService .writeCsr p ready
     servedAtOnce .writeCsr p ready = true ∧ p.payload.length / 4 = 2 ∧
       ([0x00B00004, 0x00B00008].all (fun w => (csrAt s w).any (fun c => c.res.all (fun r => free (resOwner s r) p)))) = true) ∧
    ([csrWrite 0x00B00004 [], csrWrite 0x00B00004 [1], csrWrite 0x7FFFFFFC [1, 2, 3, 4]].all (fun p => servedAtOnce .writeCsr p ready)) = true ∧
    csrAt (inService .writeCsr (csrWrite 0x7FFFFFFC [1, 2, 3, 4]) ready) 0x7FFFFFFC = none := by decide +kernel

/-- A SCRUB of one word whose bank is free, and one whose bank the calendar gives to another. -/
theorem witness_MemoryStepAdvances_bank :
    let s := busy .scrub (pk oneWord) (fun g => { g with total := 32 })
    let u : State := { s with fresh := 1 }
    (only s).bytes = [] ∧ auxOpen .host (physVault s (devVault 2)) (bankOf (devWord 2)) u = true ∧
      auxOpen .host (physVault s (devVault 2)) (bankOf (devWord 2)) { u with vaults := { u.vaults with retraining := true } } = false := by decide +kernel

/-- The device whose VCORE rests at its goal. -/
def atGoal (s : State) : State := { s with power := { s.power with goal := s.power.setpoint } }

theorem witness_StoringStepsComplete_rest :
    (let s := busy .loadImage (pk ([0] ++ leBytes 5 64 ++ leBytes 4 64)) (fun g => { g with stage := 1, progress := 64, total := 64, acc := [0] }) (withPart part0)
     (only s).stage ≠ 0 ∧ (only s).pkt.at_ 6 4 = (only s).progress) ∧
    (let s := atGoal (busy .selectProfile (pk [1]) (fun g => { g with stage := 1 }))
     (only s).stage ≠ 0 ∧ s.power.avs = none ∧ s.power.setpoint = s.power.goal) ∧
    (only (busy .attest (pk [9]))).op = .attest ∧
    (let s := busy .fwUpdate (pk (leBytes 5 64 ++ leBytes 4 1024)) (fun g => { g with stage := 1, total := 1024, progress := 1023, bytes := List.replicate 1024 1 })
     (only s).bytes.length = (only s).total ∧ (only s).progress + 1 = (only s).total) ∧
    (let s := atGoal (busy .healthTest (pk [1]) (fun g => { g with stage := 1, total := 1 }))
     s.power.avs = none ∧ s.power.setpoint = s.power.goal ∧ (only s).progress + 1 = (only s).total) ∧
    (let r : Replan := { steps := 3, left := 0, eff := 0, flight := some 0 }
     let s := atGoal (busy .marginReplan (pk []) (fun g => { g with stage := 1 }))
     let u : State := { s with power := { s.power with replan := some r } }
     u.power.replan = some r ∧ r.left = 0 ∧ u.power.setpoint = u.power.goal) ∧
    (let s := busy .arbVerify (pk [3]) (fun g => { g with total := 1 }) { ready with arbor := {
       engines := Table.set {} [] 3 { nodes := [(0, { data := 0x8000FA000003FFFF })] }, ensembles := Table.set {} [] 3 { engines := 1, features := 2, depth := 1 } } }
     (only s).progress + 1 = (only s).total ∧ ensembleOf s 3 = some 3 ∧ verdictOf s 3 3 = .verified 1) ∧
    ((only (busy .drain (pk [0, 0]))).op = .drain ∧ (only (busy .resetDomain (pk [4]))).op = .resetDomain) := by decide +kernel

/-! ### Further clauses: partitions and spill queues -/

theorem witness_CanopyCommandsBegin_rest :
    (partDefined (ctx0 .loaded) 0 = true ∧ free (getPart (ctx0 .loaded) 0).owner (pk [0, 0]) = true) ∧
    (servedAtOnce .start (pk [0, 0]) (ctx0 .loaded) = true ∧ servedAtOnce .start (pk [0, 1]) (ctx0 .faulted) = true ∧
      servedAtOnce .step (pk ([0, 1] ++ leBytes 4 1)) (ctx0 .running) = true ∧ servedAtOnce .stop (pk [0]) (ctx0 .loaded) = true) ∧
    (let p (c n : Nat) : Packet := pk (leBytes 1 0 ++ leBytes 1 c ++ leBytes 4 n)
     [ctx0 .empty, ctx0 .loading, ctx0 .faulted].all (fun s => servedAtOnce .drain (p 0 1) s) = true ∧
       servedAtOnce .drain (p 4 1) (ctx0 .running) = true ∧ servedAtOnce .drain (p 0 0) (ctx0 .running) = true ∧
       servedAtOnce .drain (p 3 1) (ctx0 .drained) = true ∧
       servedAtOnce .drain (p 0 1) (ctx0 .drained) = true ∧ servedAtOnce .drain (p 0 1) (ctx0 .loaded) = true ∧
       tokensPresent (ctx0 .loaded) 0 0 = false) ∧
    (let s := { ctx0 .loaded with canopy := { (ctx0 .loaded).canopy with tiles := [(0, { ins := [(0, { queues := [(0, [{ data := 1, ctx := 0 }])] })] })] } }
     servedAtOnce .drain (pk ([0, 0] ++ leBytes 4 1)) s = true ∧ tokensPresent s 0 0 = true) := by decide +kernel

/-- A STEP of 5 cycles of a drained context, its fill at its level. -/
theorem witness_StartApplies_step :
    let s := starting .drained
    let s := { s with host := { s.host with flights := [{ only s with op := .step, total := 5 }] } }
    findFlight s 0 = some (only s) ∧ (only s).op = .step ∧ (only s).aborting = false ∧ (only s).contexts.contains 0 = true ∧
      fillTarget s (only s).part ≤ Table.get 0 s.power.fill (only s).part := by decide +kernel

/-- A command of tag 9 in flight, and an ABORT of that tag. -/
def abortable (op : Op) (ph : Phase) : State := busy op { pk ([0, 0] ++ leBytes 4 5) with tag := 9 } (fun g => { g with phase := ph }) (ctx0 .running)
def abort9 : Packet := pk [0, 9, 0]

theorem witness_AbortCases_found :
    ([abortable .attest .active, abortable .drain .waiting, abortable .memRead .waiting, abortable .scrub (.done 0 {})].all (fun s =>
      servedAtOnce .abort abort9 s && findFlight s 0 == some (only s) &&
        s.host.flights.find? (fun g => g.sess == abort9.session.toNat && g.pkt.tag.toNat == abort9.bits 1 0 12) == some (only s))) = true ∧
    Op.abortable .attest = false ∧ Op.abortable .drain = true ∧ Op.abortable .scrub = true := by decide +kernel

theorem witness_UnloadContextEmpties_rest :
    (servedAtOnce .unloadContext (pk [7, 0]) (ctx0 .loaded) = true ∧ partDefined (ctx0 .loaded) 7 = false ∧
      servedAtOnce .unloadContext (pk [0, 4]) (ctx0 .loaded) = true) ∧
    (servedAtOnce .unloadContext (pk [0, 0]) (ctx0 .faulted) = true ∧ ((getPart (ctx0 .faulted) 0).ctx 0).state = .faulted) := by decide +kernel

/-- A DRAIN of context 0 that has applied, its token in a link, its limit in this cycle. -/
def draining (discard : Bool) : State :=
  let s := withPart { part0 with ctxs := [(0, { state := .draining, drainEnd := some 0, drainDiscard := discard })] }
    { ready with canopy := { tiles := [(0, { ins := [(0, { queues := [(0, [{ data := 1, ctx := 0 }])] })] })] } }
  busy .drain (pk ([0, 0] ++ leBytes 4 5)) (fun g => { g with stage := 1 }) s

theorem witness_RunsEnd_flights :
    ([draining true, draining false].all (fun s => drainFlight s 0 0 == some (only s) && findFlight s 0 == some (only s) && !(only s).aborting
      && tokensPresent s 0 0 && decide (0 ≤ s.clk.aclk))) = true ∧
    (let s := busy .drain (pk ([0, 0] ++ leBytes 4 5)) (fun g => { g with stage := 1 }) (ctx0 .draining)
     drainFlight s 0 0 = some (only s) ∧ tokensPresent s 0 0 = false) ∧
    ([Op.stop, .step].all (fun o =>
      let s := busy o (pk ([0, 1] ++ leBytes 4 5)) (fun g => { g with stage := 1, total := 5 }) (withPart { part0 with stopped := some 3 } { ready with canopy := { now := 4 } })
      quiescent s 0 && (only s).part == 0 && (only s).phase == .active && (getPart s 0).stopped == some 3)) = true := by decide +kernel

/-- A token waits at an endpoint of a spill queue since cycle 3; it is cycle 4. -/
def waiting5 (i v : Nat) (poison : Bool := false) (s : State := ready) : State :=
  { s with canopy := { s.canopy with now := 4, edges := [(edgeKey 1 i, [{ tok := { data := BitVec.ofNat 64 v, ctx := 0, poison := poison }, at_ := 3 }])] } }

/-- A control word of the same cycle marks the queue before the commands act. -/
theorem witness_SpillControlCommands_sameCycle :
    let s := waiting5 261 0x1000000000000000 false (queue5 { wr := 3, rd := 2 })
    (getQueue (sqControlWord 5 s) 5).markValid = true ∧ (getQueue s 5).markValid = false ∧ servedAtOnce .sqRewind (pk [5]) s = true ∧
      (getQueue (sqControlWord 5 (queue5 { wr := 3, rd := 2 })) 5).markValid = false := by decide +kernel

theorem witness_SpillConfigWriteRead_config :
    (let p := pk ([5, 2 + 8 * 2] ++ leBytes 2 20479 ++ leBytes 2 1 ++ leBytes 2 0 ++ leBytes 2 1)
     let y : Spill := { firstVault := p.at_ 2 2, vaults := p.at_ 4 2, firstPage := p.at_ 6 2, pages := p.at_ 8 2 }
     servedAtOnce .sqConfig p ready = true ∧ regionBad 5 y ready = false ∧ regionBad 5 { y with firstVault := 20480 } ready = true ∧
       (getQueue ready 5).incoming = []) ∧
    ([pk [5, 6], pk [5, 32]].all (fun p => servedAtOnce .sqConfig p ready)) = true ∧ (pk [5, 6]).bits 1 0 3 = 6 ∧
    (pk [5, 32]).bits 1 3 3 = 4 ∧ servedAtOnce .sqConfig (pk [5]) (queue5 { wr := 1 }) = true := by decide +kernel

theorem witness_SpillConfigWriteRead_write :
    (edgeTake 1 261 (queue5 { writer := 2 }) = none) ∧
    (let p := pk [5] (List.replicate 128 1)
     servedAtOnce .sqWrite p (queue5 { writer := 2 }) = true ∧ p.payload.length / 64 = 2 ∧
       servedAtOnce .sqWrite p (queue5 { writer := 2, tail := (List.range 64).map (fun i => (i, cell)), wr := 64, vaults := 1, pages := 1 }) = true ∧
       sqReady (getQueue (queue5 { writer := 2, tail := (List.range 64).map (fun i => (i, cell)), wr := 64, vaults := 1, pages := 1 }) 5) = false) ∧
    servedAtOnce .sqWrite (pk [5]) (queue5 { writer := 2 }) = true ∧
    servedAtOnce .sqWrite (pk [5] (List.replicate 63 1)) (queue5 { writer := 2 }) = true := by decide +kernel

theorem witness_SpillConfigWriteRead_read :
    (let s := queue5 { reader := 2, wr := 1, tail := [(0, cell)] }
     servedAtOnce .sqRead (pk [5, 1]) s = true ∧ (getQueue s 5).atRead = some cell ∧ (readWords 5 8 s).1.length = 8) ∧
    (let s := queue5 { reader := 2, wr := 1, tail := [(0, cell)] }
     servedAtOnce .sqRead (pk [5, 64]) s = true ∧ min (8 * 64) (8 * 1 - 0) ≤ (readWords 5 8 s).1.length) ∧
    (let s := queue5 { reader := 2, wr := 1, vaults := 1, pages := 1, tail := [(0, cell)] }
     servedAtOnce .sqRead (pk [5, 1]) s = true ∧ (readWords 5 8 s).1.length < 8 ∧ (getQueue (readWords 5 8 s).2 5).wr ≠ (getQueue (readWords 5 8 s).2 5).rd) ∧
    servedAtOnce .sqRead (pk [5, 0]) (queue5 { reader := 2 }) = true := by decide +kernel

/-- A queue with a region of one page, its cell 0 in one of the buffers or on the way. -/
def regional (g : Spill → Spill) : State := queue5 (g { vaults := 1, pages := 1, wr := 1 })

theorem witness_SpillEvents_region :
    ([false, true].all (fun h =>
      let s := regional (fun x => { x with tail := [(0, cell)], half := h })
      let a := (getQueue s 5).position 0 + (if h then 1 else 0)
      (getQueue s 5).moved == 0 && auxOpen .cell (physVault s (devVault a)) (bankOf (devWord a)) s
        && !auxOpen .cell (physVault s (devVault a)) (bankOf (devWord a)) { s with vaults := { s.vaults with retraining := true } })) = true ∧
    ([[], [({ v := 1 } : SqWord)]].all (fun fs =>
      let s := regional (fun x => { x with moved := 1, fetched := fs })
      ((getQueue s 5).regionRead).any (fun a => auxOpen .cell (physVault s (devVault a)) (bankOf (devWord a)) s
        && !auxOpen .cell (physVault s (devVault a)) (bankOf (devWord a)) { s with vaults := { s.vaults with retraining := true } }))) = true ∧
    (regional id).host.flights = [] := by decide +kernel

theorem witness_SpillEvents_words :
    (let s := waiting5 5 7
     (getEdge s 1 5).length = 1 ∧ s.canopy.paused = false ∧ Table.get 0 s.canopy.taken (edgeKey 1 5) ≠ s.canopy.now + 1 ∧
       (getQueue s 5).assembly.length + (getQueue s 5).incoming.length ≠ 7) ∧
    (let s := waiting5 5 7 false (regional (fun x => { x with writer := 1, wr := 64, assembly := List.replicate 7 {}, tail := (List.range 64).map (fun i => (i, cell)) }))
     (getQueue s 5).assembly.length + (getQueue s 5).incoming.length = 7 ∧ sqReady (getQueue s 5) = false) ∧
    (let s := queue5 { writer := 1, assembly := List.replicate 7 {}, incoming := [{}] }
     (getQueue s 5).assembly.length = 7 ∧ (getQueue s 5).incoming = [{}] ∧ (getQueue s 5).frozen = false ∧ (getQueue s 5).full = false) ∧
    (getQueue (queue5 { incoming := [{}] }) 5).assembly.length < 7 ∧
    ([(waiting5 261 0x1000000000000000 true), (waiting5 261 0x1000000100000000), (waiting5 261 0), (waiting5 261 0x5000000000000000),
      (waiting5 261 0x2000000000000000), (waiting5 261 0x1000000000000000), (waiting5 261 0x2000000000000000 false (queue5 { markValid := true })),
      (waiting5 261 0x3000000000000000), (waiting5 261 0x4000000000000000)].all (fun s =>
      (getEdge s 1 261).length == 1 && (getEdge s 1 261).all (fun w => decide (w.at_ + 1 ≤ s.canopy.now)) && !s.canopy.paused
        && Table.get 0 s.canopy.taken (edgeKey 1 261) != s.canopy.now + 1)) = true := by decide +kernel

theorem witness_SpillEvents_delivery_rest :
    let s := bound 2 5 (queue5 { reader := 1, wr := 1, tail := [(0, cell)] })
    (getQueue s 5).nextWord = some { v := 9 } ∧ (getQueue s 5).ctrlAt ≠ s.clk.aclk + 1 ∧ (edgeDeliver 2 5 9 true s).isSome = true ∧
      edgeDeliver 2 5 9 false (queue5 { reader := 1, wr := 1, tail := [(0, cell)] }) = none := by decide +kernel

/-! ### Further clauses: the timebase, ports and the fabric -/

theorem witness_TimeCommands_refused :
    free ready.time.owner (pk []) = true ∧
    ([leBytes 5 0x00FEFFFFFF, leBytes 5 0x0101000000].all (fun b => servedAtOnce .timeAdjFreq (pk b) ready)) = true ∧
    servedAtOnce .timeSource (pk [2]) ready = true ∧ servedAtOnce .ppsConfig (pk [1, 0, 0]) ready = true ∧
    servedAtOnce .ppsConfig (pk ([1, 0] ++ leBytes 2 501)) ready = true ∧
    (∃ b : Timebase, ({ b with ns := 999999999 } : Timebase).tick.2 = true) := by
  exact ⟨by decide, by decide +kernel, by decide +kernel, by decide +kernel, by decide +kernel, {}, by decide +kernel⟩

/-- TIME_SET to a second and a nanosecond, TIME_STEP by a signed distance. -/
def setTo (sec ns : Nat) : Packet := pk (leBytes 6 sec ++ leBytes 4 ns)
def stepBy (d : Nat) : Packet := pk (leBytes 8 d)

theorem witness_TimeIsSetOrRefused_rest :
    ([setTo 10 1000000000, setTo 10 6, setTo 10 7, setTo (2 ^ 48 - 1) 999999999].all (fun p => servedAtOnce .timeSet p timed)) = true ∧
    timed.time.tick.1.total = 10000000006 ∧ servedAtOnce .timeSet (setTo 10 7) ready = true ∧ timed.time.jumpLimit ≠ 0 ∧
    ([stepBy 0, stepBy 1, stepBy (2 ^ 63 - 1), stepBy (2 ^ 64 - 10000000006), stepBy (2 ^ 64 - 10000000007)].all
      (fun p => servedAtOnce .timeStep p timed && servedAtOnce .timeStep p ready)) = true ∧
    (timed.time.tick.1.total : Int) + signed 64 ((stepBy (2 ^ 64 - 10000000006)).at_ 0 8) = 0 ∧
    (timed.time.tick.1.total : Int) + signed 64 ((stepBy (2 ^ 64 - 10000000007)).at_ 0 8) < 0 ∧
    timed.time.jumpLimit.toNat < (signed 64 ((stepBy (2 ^ 63 - 1)).at_ 0 8)).natAbs := by decide +kernel

theorem witness_TimebaseEvents_reset :
    (inReset { boot := { phase := .inReset } } = true ∧ inReset ready = false) ∧ ({ ppsEnd := some 7 } : Timebase).ppsEnd = some 7 := by decide

/-- A list of features to extract: two fields of 4 and 2 bytes, the second one the length field of none. -/
def extractList : List Byte := leBytes 8 (12 + 3 * 2048 + 4 * 16384) ++ leBytes 8 (16 + 1 * 2048 + 5 * 16384)

theorem witness_MacConfiguration_whole :
    (let p := pk [0, 3, 2, 0xFF] extractList
     let s := ensemble3 { engines := 1, features := 2, depth := 1 } {} ports
     let w (i : Nat) : Nat := leAt p.payload (8 * i) 8
     servedAtOnce .extractConfig p s = true ∧ (getEns s 3).engines = 1 ∧ free (getEngine s 3).owner p = true ∧ p.payload.length = 8 * 2 ∧
       ensembleBound s 3 = false ∧ (∀ i < 2, w i < 2 ^ 26 ∧ w i / 2 ^ 18 % 256 = 0) ∧ w 0 / 16384 % 16 = 4 ∧ w 0 / 2048 % 8 + 1 = 4 ∧
       w 1 / 16384 % 16 = 5 ∧ w 1 / 2048 % 8 + 1 = 2) ∧
    (let p := pk ([0, 1 + 8 + 16] ++ leBytes 2 1518 ++ [5, 6, 0, 1, 7])
     let s : State := { ports with queues := [(5, { writer := 3 }), (6, { writer := 3 }), (7, { reader := 3 })] }
     servedAtOnce .macConfig p s = true ∧ p.bits 1 3 1 = 1 ∧ p.bits 1 4 1 = 1 ∧ p.bits 7 0 1 = 1 ∧ p.at_ 4 1 = 5 ∧ p.at_ 5 1 = 6 ∧ p.at_ 8 1 = 7 ∧
       (getMac s 0).conf.cfg.enable = false) ∧
    (servedAtOnce .macFilter (pk [0, 16]) ports = true ∧ servedAtOnce .gateListLoad (pk [0, 0] [1]) ports = true) ∧
    (let b := leBytes 2 512 ++ [7, 3, 0, 0, 0, 0, 1] ++ leBytes 4 (508 + 512) ++ List.replicate (28 + 512) 0
     servedAtOnce .templateLoad (pk [7, 63] b) { ports with eth := { ports.eth with ports := [(7, { mode := 1 })] } } = true ∧ leAt b 0 2 = 512 ∧
       b.length = 41 + 512 ∧ leAt b 8 1 = 1 ∧ patchSize (BitVec.ofNat 32 (508 + 512)) ≠ 0 ∧
       fldN (BitVec.ofNat 32 (508 + 512)) 13 3 = 0) := by decide +kernel

/-- A bridge of three members. -/
theorem witness_FabricCommands_rest :
    (let p := pk (leBytes 2 0 ++ leBytes 2 3 ++ [1]) (leBytes 2 0 ++ leBytes 2 1 ++ leBytes 2 2)
     servedAtOnce .fabricConfig p placed = true ∧ p.bits 4 0 1 = 1 ∧ (getPort placed 32).role = 3 ∧ free (getPort placed 0).owner p = true ∧
       ([0, 1, 2].all (fun k => inSizes { placed with fabric := { placed.fabric with sizes := 3 } } k)) = true) ∧
    servedAtOnce .reduceGroup (pk ([63, 0] ++ leBytes 4 0x10)) placed = true ∧
    ([0, 2].all (fun a => servedAtOnce .laneControl (pk [0, 0, a]) placed)) = true ∧ (getPort placed 0).role ≠ 0 ∧ (getPort placed 0).power ≠ .deep ∧
    ([(1, .entering, true), (1, .deep, false), (0, .active, false), (0, .deep, true)].all (fun k =>
      let s : State := { placed with fabric := { placed.fabric with ports := [(0, { role := 1, power := k.2.1, txAsleep := k.2.2 })] } }
      servedAtOnce .fportPower (pk [0, BitVec.ofNat 8 k.1]) s && (getPort s 0).power == k.2.1
        && !(linkPorts (inService .fportPower (pk [0, BitVec.ofNat 8 k.1]) s) (pk [0, BitVec.ofNat 8 k.1])).contains 0)) = true ∧
    (let s : State := { ready with fabric := { ports := [(32, { role := 3, lanes := [(0, { rx := .up }), (1, { rx := .up })] })] } }
     servedAtOnce .laneControl { pk [32, 0, 1] with origin := 32, src := 0xFFFF } s = true) := by decide +kernel

/-! ### Further clauses: arbor, trigger, ring log, sparing, recovery, domains -/

/-- Engine 63 alone as an ensemble, and any ensemble at all. -/
def ensemble63 (e : Ensemble) (x : Engine := {}) (s : State := ready) : State :=
  { s with arbor := { s.arbor with engines := Table.set {} [] 63 x, ensembles := Table.set {} [] 63 e } }

theorem witness_ArborCommands_refused :
    ([pk [3], pk [3] [1], pk ([3] ++ leBytes 4 196608) (List.replicate 8 0)].all (fun p => servedAtOnce .arbLoad p ready)) = true ∧
    servedAtOnce .arbLoad (pk [3] (List.replicate 8 0)) (engine3 { mode := .node }) = true ∧
    servedAtOnce .arbMode (pk [3, 0]) (engine3 { mode := .retired }) = true := by decide +kernel

theorem witness_ArborCommands_tcam :
    (let p := pk ([3, 3] ++ leBytes 2 4095 ++ [1] ++ leBytes 2 16) (List.replicate 144 0)
     servedAtOnce .arbTcamLoad p ready = true ∧ p.bits 1 0 1 = 1 ∧ p.bits 1 1 1 = 1 ∧ p.at_ 4 1 = 1 ∧ p.at_ 2 2 + 1 = 4096 ∧ p.payload.length = 144 ∧
       p.at_ 5 2 = 16) ∧
    (let p := pk ([3, 0] ++ leBytes 2 0) (List.replicate (8 * 512) 0)
     servedAtOnce .arbTcamLoad p ready = true ∧ p.payload.length / 8 = 512 ∧ p.at_ 2 2 = 0) := by decide +kernel

theorem witness_ArborCommands_ensemble :
    (let p := pk ([63, 1] ++ leBytes 2 4096 ++ [23, 0, 0, 0] ++ leBytes 4 0x3F800000) (leBytes 4 8191)
     servedAtOnce .arbEnsemble p ready = true ∧ p.at_ 1 1 = 1 ∧ p.at_ 2 2 = 4096 ∧ p.at_ 4 1 = 23 ∧ p.payload.length = 4 ∧ leAt p.payload 0 4 = 8191 ∧
       ensembleBound ready 63 = false ∧ ensembleOf ready 63 = none ∧
       servedAtOnce .arbEnsemble p (ensemble63 { engines := 1, features := 1, depth := 1, samples := [{ source := .frame 0 0, features := [] }] }) = true ∧
       ensembleOf (ensemble63 { engines := 1, features := 1, depth := 1 }) 63 = some 63) := by decide +kernel

theorem witness_ArborCommands_eval :
    let s := ensemble63 { engines := 1, features := 2, depth := 1, staging := [7] }
    let last := pk ([63, 1] ++ leBytes 2 1) [1, 2, 3, 4]
    let short := pk [63, 1] [1, 2, 3, 4]
    servedAtOnce .arbEval last s = true ∧ last.bits 1 0 1 = 1 ∧ last.at_ 2 2 = (getEns s 63).staging.length ∧
      ((getEns s 63).staging ++ bytesW32 last.payload).length = (getEns s 63).features ∧ (getEns s 63).slots < 64 ∧
      servedAtOnce .arbEval last { s with arbor := { s.arbor with stopped := true } } = true ∧
      servedAtOnce .arbEval short s = true ∧ (bytesW32 short.payload).length < 2 ∧
      (let z := ensemble63 { engines := 1, features := 2, depth := 1, staging := [7], samples := List.replicate 64 { source := .endpoint, features := [] } }
       servedAtOnce .arbEval last z = true ∧ 64 ≤ (getEns z 63).slots) := by decide +kernel

theorem witness_ArborOperationsAdvance_rest :
    (let w : WireTok := { tok := { data := 0, ctx := 0 }, at_ := 3 }
     let s (f n : Nat) : State := ensemble3 { engines := 1, features := f, samples := List.replicate n sample } {}
       { ready with canopy := { now := 4, edges := [(edgeKey 3 3, [w])] } }
     Table.get 0 (s 2 0).canopy.taken (edgeKey 3 3) ≠ (s 2 0).canopy.now + 1 ∧ (getEns (s 2 63) 3).slots < 64 ∧ 64 ≤ (getEns (s 2 64) 3).slots ∧
       (getEns (s 3 0) 3).features = 3 ∧ ([0, 1] : List Nat).length < 3) ∧
    (sample.poison = false ∧ (getEngine (ensemble3 {} { mode := .retired }) 3).mode = .retired ∧
      (getEngine (ensemble3 { engines := 1, samples := [sample] } { mode := .ternary, trees := 16 }) 3).mode = .ternary) ∧
    ((resulting (.command 0) 11 (busy .arbEval (pk [3, 1]))).canopy.now = 4 + 1 + 6 ∧ (resulting (.frame 0 0) 12).canopy.now > 4 + 1 + 6 ∧
      (boundTo (resulting .endpoint 12 (bound 4 3)) 4 3).isSome = true) := by decide +kernel

/-- The trigger's owner may enable endpoint 15 on a raw port, its queue unbound and on die. -/
theorem witness_TriggerCommands_stream :
    let p := pk [15, 7, 0x80, 5, 1]
    let s : State := { queue5 { writer := 3, reader := 1 } with eth := { ports := [(7, { mode := 6 })] } }
    servedAtOnce .streamConfig p s = true ∧ p.bits 4 0 1 = 1 ∧ p.at_ 1 1 = 7 ∧ p.at_ 3 1 = 5 ∧ (getEPort s 7).mode = 6 ∧ (getQueue s 5).writer = 3 ∧
      (getQueue s 5).reader = 1 ∧ (getQueue s 5).vaults = 0 ∧ queueBound s 5 = false ∧ (∀ j < 16, (getStream s j).enable = false) ∧
      servedAtOnce .streamConfig (pk [16]) ready = true ∧ (boundTo (bound 8 15) 8 15).isSome = true ∧ servedAtOnce .streamConfig (pk [15]) (bound 8 15) = true := by
  decide +kernel

/-- Channel 63, output 3 and capture 3, fit to be armed or not. -/
def arming (w : Nat) (q : Spill) : State :=
  { queue5 q with trig := {
    chans := [(63, { reg := { source := 2 } })], outs := [(3, { reg := { holdoff := 13, width := w } })], caps := [(3, { reg := { queue := 5 } })]
    decEnableReg := true, decQueueReg := 5 } }

theorem witness_TriggerCommands_arm :
    let p := pk (leBytes 8 (2 ^ 63) ++ [0x88])
    let s := arming 13 { writer := 4, circular := true, vaults := 1, pages := 2 }
    p.bits 0 63 1 = 1 ∧ p.bits 8 3 1 = 1 ∧ p.bits 8 7 1 = 1 ∧ servedAtOnce .trigArm p s = true ∧ servedAtOnce .trigDisarm p s = true ∧
      chanOk s (getChanT s 63).reg = true ∧ (Machine.getOut s 3).reg.width = (Machine.getOut s 3).reg.holdoff ∧
      (getCap s 3).state = .idle ∧ (getQueue s 5).writer = 4 ∧ (getQueue s 5).circular = true ∧ 65 ≤ (getQueue s 5).capacity ∧
      servedAtOnce .trigArm p (arming 0 {}) = true ∧ servedAtOnce .trigArm p (arming 14 {}) = true ∧
      (getQueue (arming 13 {}) 5).circular = false := by decide +kernel

theorem witness_RingLogCommands_rest :
    ({ withPart part0 with ring := { active := true } }.ring.active = true ∧
      servedAtOnce .ringStart (pk [] ringPayload) { withPart part0 with ring := { active := true } } = true ∧
      (getPart (ctx0 .running) 0).busy = true ∧ servedAtOnce .ringStart (pk [] ringPayload) (ctx0 .running) = true) ∧
    (let s := { withPart { part0 with ctxs := [(0, { state := .loaded, image := { imageOf [] with layers := 4 } })] } with ring := { part := some 0 } }
     let fold (k first n : Nat) : Packet := pk (leBytes 1 k ++ [0] ++ leBytes 4 first ++ leBytes 4 n)
     ([fold 0 4 1, fold 3 0 1, fold 1 0 512, fold 0 0 0].all (fun p => servedAtOnce .foldRead p s)) = true ∧ layersOf s 0 = 4 ∧
       servedAtOnce .foldRead (fold 0 4096 1) s = true ∧ servedAtOnce .foldRead (fold 2 0 511) s = true ∧ 511 ≤ (getPart s 0).vaultCount ∧
       servedAtOnce .foldRead (fold 0 0 1) ready = true ∧ ready.ring.part = none) := by decide +kernel

theorem witness_PowerAndSparingCommands_rest :
    (let s : State := { ready with power := { noSpare := 1 } }
     s.power.noSpare.getLsbD 0 = true ∧ servedAtOnce .columnFail (pk [0, 0]) s = true ∧ servedAtOnce .columnFail (pk [0, 0, 1]) s = true ∧
       (pk [0, 0, 1]).bits 2 0 1 = 1 ∧ Table.get none s.power.pendRetire 0 = none) ∧
    (servedAtOnce .columnFail (pk [32, 0]) ready = true ∧ (graftOf ready 0).failedPos = 32 ∧ Table.get none ready.power.pendGraft 0 = none) ∧
    (let s : State := { ready with canopy := { grafts := [(0, { failedPos := 7 }), (1, { failedPos := 0, retired := true })] } }
     servedAtOnce .columnFail (pk [7, 0]) s = true ∧ (graftOf s 0).failedPos = 7 ∧ servedAtOnce .columnFail (pk [33, 0]) s = true ∧
       (graftOf s 1).retired = true) ∧
    (let s := withPart { part0 with owner := some 1 }
     servedAtOnce .columnFail (pk [0, 0]) s = true ∧ (physBayParts s 0).any (fun q => partForeign s q 0) = true) := by decide +kernel

/-- That an image is valid, or its version below the floor, rests on the free firmware keys: no image is shown to be either. -/
theorem witness_FirmwareRecovery_last :
    let s := recovering (some ((pk []).src, (pk []).origin))
    servedAtOnce .fwRecover (pk [0, 0, 0, 0, 1] [1]) s = true ∧ (pk [0, 0, 0, 0, 1] [1]).bits 4 0 1 = 1 ∧
      fwCheck ([] ++ [1]) s.flash.floor = .invalid ∧ servedAtOnce .fwRecover (pk []) s = true ∧
      servedAtOnce .fwRecover (pk [] (List.replicate 4096 1)) s = true := by decide +kernel

theorem witness_ResetDomainCommand_domains :
    ([1, 2, 3, 4, 7].all (fun c => servedAtOnce .resetDomain (pk [c]) ready && servedAtOnce .resetDomain (pk [c]) (withPart { part0 with owner := some 1 }))) = true ∧
    (definedParts ready).any (fun q => partForeign ready q 0) = false ∧
    (definedParts (withPart { part0 with owner := some 1 })).any (fun q => partForeign (withPart { part0 with owner := some 1 }) q 0) = true ∧
    ([pk [0], pk [8], pk [5, 8], pk [6, 40]].all (fun p => servedAtOnce .resetDomain p ready)) = true ∧
    (servedAtOnce .resetDomain (pk [3]) (ctx0 .running) = true ∧ (definedParts (ctx0 .running)).any (fun q => (getPart (ctx0 .running) q).busy) = true) ∧
    (servedAtOnce .resetDomain (pk [5, 7]) ready = true ∧ free (getEPort ready 7).owner (pk []) = true) ∧
    (servedAtOnce .resetDomain (pk [6, 39]) ready = true ∧ (linkPorts (inService .resetDomain (pk [6, 39]) ready) (pk [6, 39])).contains 39 = false) ∧
    (let s := busy .sqRead (pk [5, 1]) (fun g => { g with phase := .waiting, names := [.queue 5] })
     servedAtOnce .resetDomain { pk [4] with tag := 1 } s = true ∧ usesDomain 4 0 (only s) = true ∧ (only s).phase = .waiting) ∧
    (let s := busy .arbEval (pk [3]) (fun g => { g with phase := .waiting, names := [.engine 3] })
     servedAtOnce .resetDomain { pk [2] with tag := 1 } s = true ∧ usesDomain 2 0 (only s) = true) := by decide +kernel

/-! ### Further clauses: what a tile does beside its issue, upkeep, reduction -/

/-- A late result for a register, for PB0, and for a scratch word; a paused canopy. -/
theorem witness_TileEventsAct_late :
    ([LateDst.g 15, .pb 0, .pb 7, .scratch 1023].all (fun dst =>
      let d : Due := { at_ := 100, tag := 97, ctx := 0, index := 0, op := .late dst {} }
      let s := tile32 { dues := [d], issuedAt := some 100 }
      (getTile s 3 2).dues == [d] && writesOpen s 3 2 && writesWord s 0 3 2 0 0 97 1023)) = true ∧
    (let s := tile32 {}
     { s with canopy := { s.canopy with paused := true } }.canopy.paused = true ∧ s.canopy.paused = false) := by decide +kernel

/-- A wait whose bound ends in this cycle, and one that has been met. -/
theorem witness_TileEventsAct_waits :
    let w : Waiting := { since := 99, mode := 0, imm := 0x00010000, index := 0 }
    let s := tile32 { ctxs := [(0, { waiting := some w }), (3, { waiting := some { w with met := some 98 } })] }
    ((getTile s 3 2).ctx 0).waiting = some w ∧ w.met = none ∧ (100 : Nat) ≤ w.since + fldN w.imm 16 16 ∧ (getTile s 3 2).endedAt ≠ some 100 ∧
      (∀ w', ((getTile s 3 2).ctx 3).waiting = some w' → w'.met ≠ none) := by
  refine ⟨by decide +kernel, by decide +kernel, by decide +kernel, by decide +kernel, ?_⟩
  intro w' h
  have h' : some ({ since := 99, mode := 0, imm := 0x00010000, index := 0, met := some 98 } : Waiting) = some w' := h
  cases h'
  decide

/-- A token that finds its queue full, one that stays behind moved tokens, and one that is passed through at once. -/
theorem witness_TileEventsAct_arrivals :
    let w : WireTok := { tok := tok, at_ := 99 }
    (let n := (getTile (tile32 {}) 3 2).inp 0
     let s := tile32 { ins := [(0, { wire := [w], queues := [(0, List.replicate (n.depth 0) tok)] })] }
     ((getTile s 3 2).inp 0).depth 0 ≤ (((getTile s 3 2).inp 0).queue 0).length ∧ ((getPart s 0).ctx 0).state.issues = true) ∧
    (let s := tile32 { ins := [(0, { wire := [w], spilled := [tok] })] }
     ((getTile s 3 2).inp 0).spilled = [tok] ∧ ((getTile s 3 2).inp 0).behind.length < ((getTile s 3 2).inp 0).depth 0) ∧
    (let x : Partition := { part0 with ctxs := [(0, { state := .running, image := { imageOf [] with routes := [4128] } })] }
     let s := tile32 { ins := [(0, { wire := [w] })] } x
     routePass (routeOf s 0 3 2 0) 0 = true ∧ ((getTile s 3 2).inp 0).pass = none ∧ tokensMove s 0 = true ∧
       (selecting (routeOf s 0 3 2 0) 0).all (fun o => granted s 0 3 2 o 0 && hasCredit s 0 3 2 o 0) = true) := by decide +kernel

/-- The last word of the only block, operands in scratch. -/
theorem witness_TileEventsAct_lastWord :
    let n := mxWords 0
    let k : Dot := { ctx := 0, index := 0, issued := 98, fmtA := 0, fmtB := 0, linkA := none, linkB := none, baseA := 0, baseB := 1
                     scaleA := 0, scaleB := 0, blocks := 1, lanes := 8, dst := 0, sum := 0, selA := 20, selB := 21 }
    let d : Due := { at_ := 100, tag := 98, ctx := 0, index := 0, op := .dotWord 0 (n - 1) }
    let s := tile32 { dues := [d], dot := some k, scratch := (List.range 9).map (fun i => (i, { written := true })) }
    let a : At := { p := 0, col := 3, row := 2, c := 0, index := 0, tag := 98 }
    n - 1 + 1 = max n n ∧ (0 + (n - 1)) % 4 ≠ (1 + (n - 1)) % 4 ∧
      (dotOperand a k none 0 20 1 (n - 1) (updTile 3 2 (fun t => { t with dues := t.dues.erase d }) s)).1.isSome = true ∧
      (dotOperand a k none 1 21 2 (n - 1) (updTile 3 2 (fun t => { t with dues := t.dues.erase d }) s)).1.isSome = true ∧ 0 + 1 = k.blocks := by
  decide +kernel

/-- A token that waits in its queue passes on, in BYTE mode by the choice of its output. -/
theorem witness_TileEventsAct_queued :
    let x : Partition := { part0 with byteMode := true, ctxs := [(0, { state := .running, image := { imageOf [] with routes := [4128] } })] }
    let s := tile32 { ins := [(0, { queues := [(0, [tok])] })] } x
    passReady ((getTile s 3 2).inp 0) 0 = some tok ∧ routePass (routeOf s 0 3 2 0) 0 = true ∧ tokensMove s 0 = true ∧ (getPart s 0).byteMode = true ∧
      (selecting (routeOf s 0 3 2 0) 0).all (fun o => chooses s 0 3 2 o ((sendWants s 3 2).bind (fun w => if w.2.contains o then some w.1 else none)) == some 0) = true := by
  decide +kernel

theorem witness_PartitionUpkeep_rest :
    (getPart ready 0).sampler.enable = false ∧
    (getPart (withPart { part0 with sampler := { enable := true, draining := [[1]] } }) 0).sampler.draining ≠ [] ∧
    (let s := withPart { part0 with sampler := { queue := 5, draining := [[1]] } } (queue5 { writer := 5, wr := 64, vaults := 1, pages := 1 })
     sqReady (getQueue s 5) = false) ∧
    (let x : Partition := { part0 with ctxs := [(0, { state := .running, image := { imageOf [] with compat := true } })] }
     let s := withPart x
     let s : State := { s with canopy := { s.canopy with now := 4096, tiles := [(tileKey 3 2, { ins := [(0, { queues := [(0, [tok, tok])] })] })] } }
     areaCapacity s 0 = 0 ∧ (∃ kv ∈ partTiles s 0, ∃ d, d < 4 ∧ (kv.2.inp d).full0 = true ∧ 0 < (kv.2.inp d).held 0) ∧
       ((getPart s 0).ctx 0).state.resident = true ∧ (senderOf s 3 2 1).used.getD 0 0 < ((getTile s 3 2).inp 1).depth 0 ∧ partOf s 3 = some 0) := by
  decide +kernel

/-- An engine with no block in it takes one; one whose packets wait does not. -/
theorem witness_ReductionAndRingRecords_entry :
    engineHeld (getChan (member 1 { assembly := [{}, {}, {}] }) 63) = false ∧
    engineHeld (getChan (member 1 { outbox := [(0, { vc := 4, first := true, last := true, payload := [] })] }) 63) = true := by
  have e (x : Channel) (b : x.blocks.length = 0) (o : x.outbox = []) (r : x.results = []) : engineHeld x = false := by simp [engineHeld, b, o, r]
  exact ⟨e _ (by decide +kernel) (by decide +kernel) (by decide +kernel), by simp [engineHeld, member, getChan, Table.get]⟩

theorem witness_ReductionAndRingRecords_find :
    (let lacks (s : State) (r : RedPkt) : Option RedBlock :=
       (getChan s 63).blocks.find? (fun b => !b.sent1 && b.ready.isNone && !b.got1.contains r.src)
     let s := member 1 { inbox := [red 0], blocks := [blk] }
     (getChan s 63).inbox.find? (fun r => r.kind == 0 && (lacks s r).isSome) = some (red 0) ∧ lacks s (red 0) = some blk) ∧
    (let b := { blk with sent1 := true }
     let s := member 1 { inbox := [red 2], blocks := [b] }
     (getChan s 63).inbox.find? (fun r => r.kind == 2) = some (red 2) ∧
       (getChan s 63).blocks.find? (fun b => b.sent1 && b.final.isNone && b.ready.isNone) = some b) ∧
    (let b := { blk with sent1 := true, final := some 0x98 }
     let lacks2 (s : State) (r : RedPkt) : Option RedBlock :=
       (getChan s 63).blocks.find? (fun b => b.final.isSome && !b.sent2 && b.ready.isNone && !b.got2.contains r.src)
     let s := member 1 { inbox := [red 1], blocks := [b] }
     (getChan s 63).inbox.find? (fun r => r.kind == 1 && (lacks2 s r).isSome) = some (red 1) ∧ lacks2 s (red 1) = some b) ∧
    (let b := { blk with sent1 := true, final := some 0x98, sent2 := true }
     let s := member 1 { inbox := [red 3], blocks := [b] }
     (getChan s 63).inbox.find? (fun r => r.kind == 3) = some (red 3) ∧ (getChan s 63).blocks.find? (fun b => b.sent2 && b.ready.isNone) = some b) := by
  decide +kernel

/-- The codes of R203's cases, each at an end of its range. -/
theorem witness_ReductionAndRingRecords_codes :
    [0xFFFF, 0x8000].all (fun c => Nat.testBit c 15) = true ∧ [0x7FFF, 0x4000].all (fun c => Nat.testBit c 14 && !Nat.testBit c 15) = true ∧
      [0x3FFF, 0x2000].all (fun c => Nat.testBit c 13 && !Nat.testBit c 14 && !Nat.testBit c 15) = true ∧ (0x1FFF : Nat) < 0x2000 := by decide +kernel

/-! ### Further clauses: packets, power, boot, management -/

theorem witness_PortEventsAct_forwarding :
    -- a source-routed packet at its end, one that goes on by a host port, one whose route has a bad hop
    (let s := holding { dest := 0, src := 1, ty := 1, sourceRouted := true, hopCount := 1, hop := 1, route := [8], body := [1] } 1
     (handed s).sourceRouted = true ∧ (handed s).hop = (handed s).hopCount ∧ routeOk (handed s).route = true ∧ (handed s).hopCount ≤ 12 ∧
       inSizes s (handed s).dest = true) ∧
    (let s := holding { dest := 0, src := 1, ty := 2, sourceRouted := true, hopCount := 1, hop := 0, route := [15], body := [1] } 1
     (handed s).ty = 2 ∧ (handed s).hop < (handed s).hopCount ∧ (handed s).route.getD 0 0 = 15 ∧ (getPort s 39).role ≠ 0 ∧ routeOk (handed s).route = true ∧
       (getPort s 39).queue = []) ∧
    (let s := holding { dest := 0, src := 1, ty := 1, sourceRouted := true, hopCount := 0, body := [1] } 1
     (handed s).sourceRouted = true ∧ (handed s).hopCount = 0) ∧
    -- a response to a host port, and to none; no coordinate
    (let s := holding { dest := 0, src := 1, ty := 2, origin := 38, body := [1] } 1
     let s : State := { s with fabric := { s.fabric with ports := Table.set {} s.fabric.ports 38 { role := 3 } } }
     (handed s).ty = 2 ∧ (handed s).dest = 0 ∧ (handed s).origin = 38 ∧ (getPort s 38).role = 3) ∧
    (let s := holding { dest := 0, src := 1, ty := 2, origin := 40, body := [1] } 1
     (handed s).dest = 0 ∧ 40 ≤ (handed s).origin.toNat) ∧
    (let s := holding { dest := 0, src := 1, ty := 1, body := [1] } 1 none
     (handed s).sourceRouted = false ∧ s.fabric.coord = none) ∧
    -- a bridge and a foreign destination, and the recovery from cause 1
    (let s := holding { dest := 1, src := 1, ty := 1, body := [1] } 3
     let s : State := { s with fabric := { s.fabric with isBridge := true, members := [0] } }
     (handed s).ty = 1 ∧ (handed s).dest ∉ s.fabric.members) ∧
    (let s : State := { (holding { dest := 0, src := 1, ty := 1, body := [1] } 3) with boot := { stage := .recovery, cause := 1 } }
     (handed s).ty = 1 ∧ s.boot.stage = .recovery ∧ s.boot.cause = 1) ∧
    -- no member of the trunk is active, and none can be woken
    (let s : State := { (holding { dest := 1, src := 2, ty := 1, body := [1] } 1) with
       fabric := { coord := some 0, sizes := 0x0003, ports := [(0, { role := 1, power := .deep, autoWake := true }), (39, { role := 1, direction := 1, rxBuf := flitsOf 0 ({ dest := 1, src := 2, ty := 1, body := [1] } : FabPacket).bytes })] } }
     (∃ d, d < 8 ∧ dimOrder s 0 (handed s).dest = some d ∧ trunk s d = [] ∧ activeMember s d = false ∧ wakeable s d = some 0)) ∧
    (let s : State := { (holding { dest := 1, src := 2, ty := 1, body := [1] } 1) with
       fabric := { coord := some 0, sizes := 0x0003, ports := [(39, { role := 1, direction := 1, rxBuf := flitsOf 0 ({ dest := 1, src := 2, ty := 1, body := [1] } : FabPacket).bytes })] } }
     (∃ d, d < 8 ∧ dimOrder s 0 (handed s).dest = some d ∧ trunk s d = [] ∧ wakeable s d = none)) := by decide +kernel

/-- The state with a sample of one rail taken. -/
def sampled (mv ma maxC : Nat) (s : State) : State :=
  { s with power := { s.power with samples := (mv * ma :: s.power.samples).take 64, maxC := maxC } }

theorem witness_PowerEventsAct_samples :
    overLimit (sampled 750 4000000 101 (powered 1000 { sampledAt := some 0 })) = true ∧
    (let s := sampled 750 1 0 (powered 100000 { throttle := 1 })
     overLimit s = false ∧ relaxed s = true) ∧
    (let s := sampled 1000 2390000 0 (powered 100000 { samples := List.replicate 64 2390000000 })
     overLimit s = false ∧ relaxed s = false) ∧
    (let w : Power := { warnPause := some 0 }
     w.ramp = 0 ∧ w.estop = none ∧ w.warnPause ≠ none ∧ 96 * w.setpoint ≤ 100 * 720) ∧
    (let w : Power := { ramp := 5, estop := some .power }
     w.ramp ≠ 0) ∧
    (let s := powered 5 { estop := some .thermal }
     s.power.estop = some .thermal ∧ s.host.flights = []) := by decide +kernel

theorem witness_PowerEventsAct_ends :
    inReset ({ boot := { phase := .supplyHold } } : State) = true ∧ (115 ≤ 115 ∧ ready.power.trip = false ∧ inReset ready = false) ∧
    ((powered 1999 { warnPause := some 0, dipAt := 0 }).clk.tticks < 0 + 2000) ∧
    (let s := powered 9999 { avs := some { target := 755, at_ := 0 }, goal := 755 }
     s.power.avs = some { target := 755, at_ := 0 } ∧ s.clk.tticks < 0 + 10000 ∧ s.power.goal = 755) ∧
    (let s : State := { ready with power := { pendGraft := [(19, some 658)] }, flash := { grafting := [(19, some (658, 1))] } }
     bayFree s 19 = true ∧ 658 % 33 = 31 ∧ graftDone s 19 658 = 1 ∧ 32 - 658 % 33 ≤ graftDone s 19 658 + 0) ∧
    (let s : State := { ready with power := { pendGraft := [(0, some 0)] } }
     bayFree s 0 = true ∧ graftDone s 0 0 + 31 < 32 - 0 % 33) := by decide +kernel

theorem witness_ResetAndBootActs_rest :
    (booting .supplyHold .rom).boot.phase = .supplyHold ∧
    (let s := booting .ramping .rom
     s.power.ramp = 0 ∧ s.pins.resetN = true ∧ s.pins.pwrGood = true) ∧
    (let s := booting .ramping .rom { pwrGood := false }
     s.pins.pwrGood = false) ∧
    (booting .running .selfTest).time.pllLocked = false ∧ ({ booting .running .selfTest with time := { pllLocked := true } } : State).time.pllLocked = true ∧
    fwCheck (booting .running .rom).flash.firmware 0 ≠ .valid ∧ (booting .running .tables).boot.stage = .tables := by decide +kernel

/-! ### Further clauses: arrival, registers, ends of operations -/

/-- The CLOSE_SESSION of session 0 is done and its reply has not left; session 1 has never been open. -/
def closing : State := busy .closeSession (pk []) (fun g => { g with phase := .done 7 {} })

theorem witness_ArrivalTestsInOrder_takes :
    (takesCommands ready 1 = false ∧ takesCommands closing 0 = false ∧ takesCommands ready 0 = true) ∧
    (takesCommands ready 0 = true ∧ openHere ready { pk [] with origin := 33 } = false) ∧
    ((pk []).strays .memRead = false ∧ ready.boot.stage ≠ .recovery ∧ Op.memRead ≠ .identify ∧ Op.memRead ≠ .nop ∧ Op.memRead ≠ .openSession) := by
  decide +kernel

/-- A count of MISMATCH whose last events fall in this cycle; a register of session 1's, and one of the E-port that it owns. -/
theorem witness_RegisterAccess_cycle :
    (let s : State := { ready with ring := { mismatch := 5 }, host := { ready.host with cycleStart := [(0x00C00100, 3)] } }
     servedAtOnce .readCsr (csrRead 0x00C00100 1) s = true ∧ min (Table.get 0 s.host.cycleStart 0x00C00100).toNat s.ring.mismatch.toNat = 3) ∧
    (let s : State := { ready with time := { owner := some 1 } }
     let p := csrWrite 0x0090001C [1, 0, 0, 0]
     servedAtOnce .writeCsr p s = true ∧ p.payload.length / 4 = 1 ∧ (csrAt (inService .writeCsr p s) 0x0090001C).isSome = true ∧
       (csrAt (inService .writeCsr p s) 0x0090001C).any (fun c => c.res.any (fun r => !free (resOwner (inService .writeCsr p s) r) p)) = true) ∧
    (let s := withPart part0
     let p := csrWrite 0x00C00000 [0, 0, 0, 0]
     servedAtOnce .writeCsr p s = true ∧ ringForeign s 0 = false) := by decide +kernel

/-- The reply of an FW_RECOVER over the management UART that ended a valid image: boot restarts once it has left. -/
def recovered (restart : Bool) : State :=
  let f : Flight := { id := 0, op := .fwRecover, pkt := { pk [0, 0, 0, 0, 1] [1] with inPort := 255, origin := 0xFF }, phase := .done 7 {} }
  { boot := { stage := .recovery, cause := 1, restart := restart }, clk := { cclk := 8 }
    host := { sessions := [(0, { outbox := [.terminal 0] })], nextId := 1, flights := [f] } }

theorem witness_TerminalReplyFreesTag_recovery :
    ([true, false].all (fun b => let s := recovered b
      s.host.flights == [only s] && (only s).phase == .done 7 {} && (getSession s (only s).sess).outbox == [.terminal (only s).id]
        && (only s).pkt.inPort == 255 && s.boot.restart == b && (only s).pkt.bits 4 0 1 == 1)) = true ∧
    (recovered true).boot.stage = .recovery ∧ ready.boot.stage ≠ .recovery := by decide +kernel

/-- In the middle of a step, on a bank that is open and on one that is closed, at the last word of the step and of the range. -/
theorem witness_MemoryStepAdvances_words :
    ([(2, 0, 64), (1, 32, 64), (1, 0, 32), (0, 0, 64)].all (fun k =>
      let s := busy .memFill (pk (leBytes 8 64 ++ leBytes 8 64)) (fun g => { g with stepLeft := k.1, progress := k.2.1, total := k.2.2 })
      let f := only s
      let a := (p40 f.pkt + f.progress) / 32
      s.host.flights == [f] && f.bytes == [] && f.pkt.flags == 0 && decide (f.progress < f.total) && f.progress % 32 == 0 && f.total % 32 == 0
        && auxOpen .host (physVault s (devVault a)) (bankOf (devWord a)) s
        && !auxOpen .host (physVault s (devVault a)) (bankOf (devWord a)) { s with vaults := { s.vaults with retraining := true } })) = true := by
  decide +kernel

/-- The partition of byte 0 is not defined, is another session's, and for an ABORT is named in byte 3. -/
theorem witness_CanopyCommandsBegin_refused :
    ([Op.start, .step, .stop, .drain].all (fun o => servedAtOnce o (pk [7]) (ctx0 .loaded) && servedAtOnce o (pk [0]) (withPart { part0 with owner := some 1 }))) = true ∧
    partDefined (ctx0 .loaded) 7 = false ∧
    (let s := withPart { part0 with owner := some 1 }
     partDefined s 0 = true ∧ free (getPart s 0).owner (pk [0]) = false) ∧
    (servedAtOnce .abort (pk [1, 0, 0, 0]) (ctx0 .running) = true ∧ partDefined (ctx0 .running) 0 = true ∧
      partDefined (ctx0 .running) 1 = false ∧ free (getPart (ctx0 .running) 0).owner (pk [1]) = true) := by decide +kernel

theorem witness_StartApplies_stopped : (getPart (starting .loaded) 0).stopped = none ∧ (getPart (starting .drained) 0).stopped = none := by decide +kernel

/-- A START, a STEP and a DRAIN on a partition that is stopping. -/
theorem witness_StopAndDrainApply_stopping :
    ([Op.start, .step, .drain].all (fun o =>
      let s := busy o (pk ([0, 1] ++ leBytes 4 5)) id (withPart { part0 with stopped := some 3 })
      findFlight s 0 == some (only s) && (only s).phase == .active && (only s).stage == 0 && (only s).op == o && (getPart s (only s).part).stopped != none)) = true ∧
    (getPart (busy .drain (pk [0, 0]) id (ctx0 .running)) 0).stopped = none := by decide +kernel

/-- Two commands in flight, the second as given. -/
def busy2 (op : Op) (p : Packet) (g : Flight → Flight) (s : State) : State :=
  { s with host := { s.host with flights := s.host.flights ++ [g { id := 1, op := op, pkt := p, phase := .active }], nextId := 2 } }

/-- An ABORT of partition 0, on which a DRAIN waits and a SCRUB is at work; an ABORT of the STEP that runs on it. -/
theorem witness_StopAndDrainApply_abort :
    (let s := busy2 .abort (pk [1, 0, 0, 0]) id (busy .drain (pk ([0, 0] ++ leBytes 4 5)) (fun g => { g with stage := 1, names := [.partition 0] }) (ctx0 .running))
     let f := s.host.flights.getD 1 (only s)
     findFlight s f.id = some f ∧ f.phase = .active ∧ f.stage = 0 ∧ s.canopy.paused = false ∧ f.op = .abort ∧ f.pkt.at_ 0 1 = 1 ∧ f.pkt.at_ 3 1 = 0 ∧
       (s.host.flights.map (fun g => g.id)).Nodup ∧ ((getPart s 0).ctx 0).state.issues = true ∧ (only s).namesPart 0 = true ∧
       (only s).id ≠ f.id ∧ (only s).phase.isDone = false) ∧
    (let s := busy2 .abort (pk [0, 9, 0]) (fun g => { g with acc := [0, 0, 0] })
       (busy .step { pk ([0, 1] ++ leBytes 4 5) with tag := 9 } (fun g => { g with stage := 1, total := 5, acc := [0], aborting := true }) (ctx0 .running))
     let f := s.host.flights.getD 1 (only s)
     let g := only s
     findFlight s f.id = some f ∧ f.phase = .active ∧ f.stage = 0 ∧ f.op = .abort ∧ f.pkt.at_ 0 1 ≠ 1 ∧ f.acc[0]? = some g.id ∧
       findFlight s g.id = some g ∧ g.op = .step ∧ g.stage = 1 ∧ g.phase = .active ∧ (getPart s g.part).busy = true) := by decide +kernel

/-- A STEP that runs, an SQ_WRITE, a MARGIN_REPLAN that has begun, a memory operation at its turn; one that waits for its turn. -/
theorem witness_AbortCases_active :
    ([abortable .step .active, abortable .sqWrite .active, abortable .marginReplan .active, abortable .scrub .active].all (fun s0 =>
      let s : State := { s0 with host := { s0.host with flights := s0.host.flights.map (fun g => { g with stage := 1, total := 64 }) } }
      let g := only s
      servedAtOnce .abort abort9 s && findFlight s g.id == some g && g.phase == .active && g.op.abortable
        && s.host.flights.find? (fun g => g.sess == abort9.session.toNat && g.pkt.tag.toNat == abort9.bits 1 0 12) == some g
        && (g.op == .step || g.op == .sqWrite || g.op == .marginReplan || (stepping s).map (fun x => x.id) == some g.id))) = true ∧
    (let s0 := abortable .scrub .active
     let s := { s0 with host := { s0.host with flights := [{ only s0 with total := 64, lastStep := 3 }, { only s0 with id := 1, total := 64, stepLeft := 1, pkt := { pk [] with tag := 8 } }], nextId := 2, steps := 3 } }
     servedAtOnce .abort abort9 s = true ∧ findFlight s 0 = some (only s) ∧ (only s).phase = .active ∧ (only s).aborting = false ∧
       (stepping s).map (fun x => x.id) = some 1) := by decide +kernel

/-- A memory operation that an ABORT has marked, at the last word of its step. -/
theorem witness_AbortCases_marked :
    ([Op.memWrite, .memFill, .scrub].all (fun o =>
      let s := busy o (pk oneWord (List.replicate 64 7)) (fun g => { g with total := 64, aborting := true, stepLeft := 1 })
      let f := only s
      let a := (p40 f.pkt + f.progress) / 32
      s.host.flights == [f] && f.aborting && decide (f.progress + 32 < f.total) && f.bytes == [] && f.stepLeft == 1
        && auxOpen .host (physVault s (devVault a)) (bankOf (devWord a)) s)) = true := by decide +kernel

/-- The stop of partition 0 is over, and a STOP, a STEP and an ABORT wait for it. -/
theorem witness_RunsEnd_quiescence :
    ([(Op.stop, [0, 0, 0, 0]), (.step, [0, 0, 0, 0]), (.abort, [1, 0, 0, 0])].all (fun k =>
      let s := busy k.1 (pk k.2) (fun g => { g with stage := 1, total := 5 }) (withPart { part0 with stopped := some 3 } { ready with canopy := { now := 4 } })
      let g := only s
      quiescent s 0 && (getPart s 0).stopped == some 3 && (getPart s 0).firstRec == none && g.phase == .active && !g.aborting
        && (k.1 == .abort || g.part == 0) && (k.1 != .abort || (g.pkt.at_ 0 1 == 1 && g.pkt.at_ 3 1 == 0 && g.acc == [])))) = true := by decide +kernel

/-! ### Further clauses: queues, refusals, ports, domains -/

/-- Queue 5 with 64 cells that have not moved to its region: its tail buffer has no room. -/
def crowded (g : Spill → Spill) : State :=
  queue5 (g { vaults := 1, pages := 1, wr := 64, tail := (List.range 64).map (fun i => (i, cell)) })

theorem witness_SpillControlCommands_held :
    let s := crowded (fun x => { x with writer := 1, assembly := [{}] })
    servedAtOnce .sqFlush (pk [5]) s = true ∧ (getQueue (sqControlWord 5 s) 5).assembly ≠ [] ∧ sqReady (getQueue (sqControlWord 5 s) 5) = false := by
  decide +kernel

/-- An SQ_READ in a cycle in which a control operation has acted, and in the next. -/
theorem witness_SpillConfigWriteRead_control :
    ([(1, [0]), (2, [1])].all (fun k =>
      let s := queue5 { reader := 2, wr := 1, tail := [(0, cell)], ctrlAt := k.1 }
      servedAtOnce .sqRead (pk [5, 1]) s && (decide ((getQueue s 5).ctrlAt = s.clk.aclk + 1) == (k.2 == [0])) && (getQueue s 5).atRead == some cell)) = true := by
  decide +kernel

/-- A cell arrives at a queue with room, and at one that is full; an SQ_WRITE whose cells are all offered; a FLUSH word that finds no room. -/
theorem witness_SpillEvents_cells :
    (let a : Arrival := { source := 2, cell := cell }
     let s := queue5 { writer := 2, arrived := [a] }
     let t := queue5 { writer := 2, arrived := [a], wr := 128 }
     (getQueue s 5).arrived = [a] ∧ (getQueue s 5).incoming = [] ∧ edgeTake 1 261 s = none ∧ (getQueue s 5).full = false ∧
       (getQueue t 5).full = true ∧ (getQueue t 5).circular = false ∧ edgeTake 1 261 t = none) ∧
    ([[], [2]].all (fun acc =>
      let s := busy .sqWrite (pk [5] (List.replicate 128 1)) (fun g => { g with total := 2, progress := 2, acc := acc })
      s.host.flights == [only s] && (only s).phase == .active && !(only s).aborting && decide ((only s).total ≤ (only s).progress))) = true ∧
    (let s := waiting5 261 0x4000000000000000 false (crowded (fun x => { x with writer := 1, assembly := [{}] }))
     (getEdge s 1 261).length = 1 ∧ (getQueue s 5).assembly ≠ [] ∧ sqReady (getQueue s 5) = false ∧ s.canopy.paused = false ∧
       Table.get 0 s.canopy.taken (edgeKey 1 261) ≠ s.canopy.now + 1) := by decide +kernel

/-- Each memory command on an empty range, and on one that ends past the last vault; on one in another session's partition. -/
theorem witness_UnfitCommandsRefused_ranges :
    (let last := leBytes 5 (20480 * 2 ^ 25 - 32) ++ [0, 0, 0] ++ leBytes 8 64
     logicalVaults ready * 2 ^ 25 < (pk last).at_ 0 5 + (pk last).at_ 8 8 ∧ ready.part.x2 = false ∧
       [Op.memRead, .memFill, .scrub].all (fun o => servedAtOnce o (pk []) ready && servedAtOnce o (pk last) ready) = true ∧
       servedAtOnce .memWrite (pk (leBytes 5 (20480 * 2 ^ 25 - 32)) (List.replicate 64 0)) ready = true) ∧
    (let s := withPart { part0 with owner := some 1 }
     [Op.memRead, .memFill, .scrub].all (fun o => servedAtOnce o (pk oneWord) s) = true ∧ servedAtOnce .memWrite (pk (leBytes 5 64) (List.replicate 32 0)) s = true ∧
       rangeValid s ((pk (leBytes 5 64)).at_ 0 5) 32 = true ∧ (rangeParts s 64 32).any (fun q => partForeign s q 0) = true) ∧
    (let s : State := { ready with part := { ready.part with x2 := true } }
     s.part.x2 = true ∧ servedAtOnce .memFill (pk (leBytes 8 (2 ^ 24 - 32) ++ leBytes 8 64)) s = true) := by decide +kernel

/-- Every command on a queue of another session and on an ingress queue; on a MAC and an E-port that no part has, that its port's mode lacks, and
that another session owns. -/
theorem witness_UnfitCommandsRefused_units :
    ([Op.sqConfig, .sqWrite, .sqRead, .sqMark, .sqRewind, .sqRelease, .sqFlush, .sqReset].all (fun o =>
      servedAtOnce o (pk [255]) { ready with queues := [(255, { owner := some 1 })] })) = true ∧
    ([Op.sqMark, .sqRewind, .sqRelease, .sqFlush, .sqReset].all (fun o =>
      servedAtOnce o (pk [5]) { ready with trig := { streams := [(2, { enable := true, queue := 5 })] } })) = true ∧
    ([Op.macConfig, .macFilter, .gateListLoad, .extractConfig, .replyConfig, .countersRead, .ptpPortConfig].all (fun o =>
      servedAtOnce o (pk [64]) ready && servedAtOnce o (pk [63]) ready && servedAtOnce o (pk [8]) ports)) = true ∧
    (macPresent ready 63 = false ∧ free (macOwner ready 63) (pk [63]) = true ∧ free (getQueue ready 0).owner (pk [63]) = true) ∧
    (servedAtOnce .templateLoad (pk [8]) ready = true ∧ servedAtOnce .templateLoad (pk [1]) ports = true ∧ free (getEPort ports 1).owner (pk [1]) = false) := by
  decide +kernel

/-- LANE_CONTROL of a lane that is in a search, alone and beside others; a laser of a thermal stop. -/
theorem witness_FabricCommands_search :
    ([0, 1, 2].all (fun a =>
      let s : State := { placed with fabric := { placed.fabric with ports := [(0, { role := 1, searchAt := some 256, lanes := [(0, { rx := .search }), (8, { rx := .search, hunt := .tried })] })] } }
      servedAtOnce .laneControl (pk [0, 0, a]) s && (getPort s 0).searchAt == some 256 && ((getPort s 0).lane 0).rx == .search
        && !(linkPorts (inService .laneControl (pk [0, 0, a]) s) (pk [0, 0, a])).contains 0)) = true ∧
    (let s : State := { placed with power := { estop := some .thermal } }
     servedAtOnce .laneControl (pk [0, 0, 0]) s = true ∧ s.power.estop = some .thermal) ∧
    (getPort placed 0).searchAt = none := by decide +kernel

/-- The trigger of another session; an enabling STREAM_CONFIG on a foreign E-port, a foreign queue, and on what is not fit. -/
theorem witness_TriggerCommands_refused :
    (let s : State := { ready with trig := { owner := some 1 } }
     free s.trig.owner (pk []) = false ∧ [Op.streamConfig, .trigArm, .trigDisarm, .trigRearm].all (fun o => servedAtOnce o (pk []) s) = true) ∧
    (let p := pk [15, 7, 0x80, 5, 1]
     let s (o w : Option Nat) : State := { queue5 { writer := 3, reader := 1, owner := w } with eth := { ports := [(7, { mode := 6, owner := o })] } }
     free (getEPort (s (some 1) none) 7).owner p = false ∧ free (getQueue (s none (some 1)) 5).owner p = false ∧
       servedAtOnce .streamConfig p (s (some 1) none) = true ∧ servedAtOnce .streamConfig p (s none (some 1)) = true) ∧
    (let p (e : Byte) : Packet := pk [15, e, 0x80, 5, 1]
     let s (m : Nat) (q : Spill) : State := { queue5 q with eth := { ports := [(7, { mode := m })] } }
     let fit : Spill := { writer := 3, reader := 1 }
     ([s 1 fit, s 6 { fit with writer := 2 }, s 6 { fit with reader := 2 }, s 6 { fit with circular := true }, s 6 { fit with vaults := 1, pages := 1 },
       { s 6 fit with trig := { streams := [(0, { enable := true, port := 7, mask := 0xFF, queue := 6 })] } }].all (fun s =>
         servedAtOnce .streamConfig (p 7) s && free (getEPort s 7).owner (p 7) && free (getQueue s 5).owner (p 7) && free s.trig.owner (p 7))) = true ∧
       servedAtOnce .streamConfig (p 8) (s 6 fit) = true) := by decide +kernel

/-- The claim of a link, which its further pieces name from any port. -/
theorem witness_FirmwareRecovery_link :
    (let s := recovering (some (0xFFFF, 32))
     servedAtOnce .fwRecover (pk [] [1]) s = true ∧ s.boot.claim = some ((pk [] [1]).src, (pk [] [1]).origin) ∧ s.boot.restart = false ∧ s.boot.received = 0) ∧
    (let s : State := { recovering with boot := { recovering.boot with restart := true } }
     servedAtOnce .fwRecover (pk [] [1]) s = true ∧ s.boot.restart = true) := by decide +kernel

/-- Domains 5, 6 and 7 of another session; the port of the command's own link. -/
theorem witness_ResetDomainCommand_foreign :
    (servedAtOnce .resetDomain (pk [5, 1]) ports = true ∧ free (getEPort ports 1).owner (pk [5, 1]) = false) ∧
    (let s : State := { ready with fabric := { ports := [(39, { role := 1, owner := some 1 })] } }
     servedAtOnce .resetDomain (pk [6, 39]) s = true ∧ free (getPort s 39).owner (pk [6, 39]) = false) ∧
    (let s : State := { ready with trig := { owner := some 1 } }
     servedAtOnce .resetDomain (pk [7]) s = true ∧ free s.trig.owner (pk [7]) = false) ∧
    (servedAtOnce .resetDomain (pk [6, 32]) ready = true ∧ free (getPort ready 32).owner (pk [6, 32]) = true ∧
      (linkPorts (inService .resetDomain (pk [6, 32]) ready) (pk [6, 32])).contains 32 = true) := by decide +kernel

/-! ### Further clauses: tiles, vaults, spill area -/

/-- The last word of a packed block, which MXCVT writes as the fifth user of scratch. -/
theorem witness_TileEventsAct_block :
    let d : Due := { at_ := 100, tag := 97, ctx := 0, index := 0, op := .late (.block 1023) {} }
    let s := tile32 { dues := [d], issuedAt := some 100 }
    (getTile s 3 2).dues = [d] ∧ writesOpen s 3 2 = true ∧ writesWord s 0 3 2 5 0 97 1023 = true := by decide +kernel

/-- The context whose bound has passed still issues, and one that has stopped does not. -/
theorem witness_TileEventsAct_bound :
    (issuable (tile32 {}) ((getPart (tile32 {}) 0).ctx 0) = true ∧ ((getPart (tile32 {}) 0).ctx 0).state.issues = true) ∧
    ((getPart (tile32 {} { part0 with ctxs := [(0, { state := .loaded })] }) 0).ctx 0).state.issues = false := by decide +kernel

/-- The first word of a block from two links, whose tags are the counters', and a later word; a link that is empty. -/
theorem witness_TileEventsAct_operands :
    let k : Dot := { ctx := 0, index := 0, issued := 98, fmtA := 0, fmtB := 0, linkA := some 0, linkB := some 1, baseA := 0, baseB := 0
                     scaleA := 0, scaleB := 0, blocks := 2, lanes := 8, dst := 0, sum := 0, selA := 16, selB := 17 }
    let s : State := tile32 { dot := some k, ins := [(0, { queues := [(0, [tok])] }), (1, { queues := [(0, [tok])] })] }
    let a : At := { p := 0, col := 3, row := 2, c := 0, index := 0, tag := 98 }
    dotEmpty (getTile s 3 2) 0 k.linkA = false ∧ dotEmpty (getTile s 3 2) 0 k.linkB = false ∧ dotEmpty (getTile (tile32 {}) 3 2) 0 k.linkA = true ∧
      (dotOperand a k k.linkA 0 16 1 0 s).1.isSome = true ∧ (dotOperand a k k.linkB 0 17 2 0 (dotOperand a k k.linkA 0 16 1 0 s).2).1.isSome = true ∧
      fldN k.scaleA 8 4 = ((getTile s 3 2).ctx 0).dseqA.toNat ∧ fldN k.scaleB 8 4 = ((getTile s 3 2).ctx 0).dseqB.toNat ∧
      0 + 1 ≠ max (mxWords 0) (mxWords 0) ∧ 0 + 1 ≠ k.blocks := by decide +kernel

/-- Two requests of one segment in one service cycle. -/
theorem witness_VaultRequestsServed_rivals :
    let r := vreq .load
    let s := tile32 { vq := [r] } padded0
    let s : State := { s with canopy := { s.canopy with tiles := [(tileKey 3 2, { vq := [r] }), (tileKey 3 3, { vq := [r] })] } }
    nextRequest (getTile s 3 2) = some r ∧ (getPart s 0).padded = true ∧ r.service ≤ s.canopy.now ∧ vaultRivals s 3 2 r = [(3, r)] ∧
      r.kind ≠ .store ∧ ((getPart s 0).ctx 0).state.resident = true := by decide +kernel

/-- Partition 0 in compatibility mode, one link of tile (3, 2) as given, in cycle 4096. -/
def spilling (l : InLink) (paused : Bool := false) : State :=
  let s := withPart { part0 with ctxs := [(0, { state := .running, image := { imageOf [] with compat := true, compatPages := 1 } })] }
  { s with canopy := { s.canopy with now := 4096, paused := paused, tiles := [(tileKey 3 2, { ins := [(1, l)] })] } }

/-- A pause; moved tokens that have room, that take the entry of a later one, and that wait; queues that are full with tokens behind moved ones. -/
theorem witness_PartitionUpkeep_reinject :
    (spilling {} true).canopy.paused = true ∧
    (let n := (getTile (spilling {}) 3 2).inp 1
     let full : List Tok := List.replicate (n.depth 0) tok
     let held (s : State) : Bool := decide (((getTile s 3 2).inp 1).held 0 < ((getTile s 3 2).inp 1).depth 0)
     partOf (spilling {}) 3 = some 0 ∧
     (held (spilling { spilled := [tok] }) = true ∧ (senderOf (spilling { spilled := [tok] }) 3 2 1).used.getD 0 0 < n.depth 0) ∧
     (held (spilling { spilled := [tok], queues := [(0, full.drop 1)], behind := [tok] }) = false) ∧
     (held (spilling { spilled := [tok], queues := [(0, full)] }) = false) ∧
     (let s := spilling { spilled := [tok], queues := [(0, full.drop 1)], behind := [tok] }
      s.canopy.paused = false ∧ ((getPart s 0).ctx 0).image.compat = true ∧ (getPart s 0).busy = true ∧ (getPart s 0).activity + 4096 ≤ s.canopy.now ∧
        Table.wf {} s.canopy.tiles = true ∧ (∃ kv ∈ partTiles s 0, ∃ d, d < 4 ∧ (kv.2.inp d).full0 = true) ∧
        areaTokens s 0 + n.depth 0 ≤ areaCapacity s 0)) := by decide +kernel

theorem witness_PartitionUpkeep_cell :
    let c : SqCell := { words := List.replicate 8 { v := 9 } }
    let z : Spill := { writer := 5, arrived := [{ source := 5, cell := c }] }
    z.incoming = [] ∧ z.arrived = [{ source := 5, cell := c }] ∧ z.frozen = false ∧ z.full = false := by decide +kernel

/-! ### Further clauses: lanes of the ingress, MACs -/

/-- A data block, 64 good headers, and headers of which 15 or 16 are bad. -/
theorem witness_StreamAndTriggerEventsAct_lock :
    (let hs : List (BitVec 2) := List.replicate 64 1
     hs.length = 64 ∧ (hs.filter (fun h => h == 0 || h == 3)).length = 0 ∧ ({} : StreamLane).count = 0 ∧ ({} : StreamLane).invalid = 0) ∧
    (let hs : List (BitVec 2) := List.replicate 49 2 ++ List.replicate 15 3
     hs.length = 64 ∧ (hs.filter (fun h => h == 0 || h == 3)).length = 15 ∧ ({ locked := true } : StreamLane).locked = true) ∧
    ([{}, { locked := true, count := 20, invalid := 15 }].all (fun x : StreamLane => !x.locked || x.invalid == 15)) = true ∧
    (getEPort (raw {}) 7).mode = 6 ∧ (getEPort ready 7).mode ≠ 6 := by decide +kernel

/-- Sixty-four good headers lock a lane; fifteen bad ones in a window leave it locked and the sixteenth unlocks it. -/
theorem test_block_lock :
    let good : List (BitVec 2) := List.replicate 64 1
    let bad (n : Nat) : List (BitVec 2) := List.replicate n 0 ++ List.replicate (64 - n) 2
    let x := good.foldl StreamLane.header {}
    x = { locked := true } ∧ (bad 15).foldl StreamLane.header x = x ∧ ((bad 16).foldl StreamLane.header x).locked = false := by decide +kernel

/-- Frames read from a lane that is locked and one that is not; a frame that ends in this cycle; a record with the counts of its sources. -/
theorem witness_StreamAndTriggerEventsAct_ends :
    ((getEPort (raw {}) (63 / 8)).mode == 6 && (getLane (raw {}) 63).locked) = true ∧ (getLane ready 63).locked = false ∧
    (let e : StreamEnd := { lane := 63, frame := rawFrame 1 [9], since := 0 }
     let s : State := { raw { enable := true, queue := 5 } (queue5 {}) with trig := { (raw { enable := true, queue := 5 } (queue5 {})).trig with ended := [e] } }
     s.trig.ended = [e] ∧ s.trig.records = [] ∧ e.lane < 64) ∧
    ([{ writer := 4 }, { writer := 4, wr := 128 }, { writer := 4, frozen := true }].all (fun q : Spill =>
      let r : DecRecord := { out := 3, seen := [(2, 7)], bytes := List.replicate 32 1 }
      let s : State := { queue5 q with trig := { decQueue := 5, records := [r] } }
      s.trig.records == [r] && s.trig.ended == [] && (getEdge s 1 261).isEmpty && Table.wf 0 r.seen
        && ((getQueue s 5).settle.accepts 4 == (q.wr == 0 && !q.frozen)))) = true := by decide +kernel

/-- A frame with a verdict case, its sample decided or entering in this cycle. -/
theorem witness_MacAndReplyEventsAct_entering :
    ([true, false].all (fun b =>
      let f := { replying none with entering := b }
      let s := mac0 { conf := takes, linkUp := true, frames := [f] } (queue5 { writer := 3 })
      openFrame (getMac s 0) == some f && ((getMac s 0).frames.filter (fun f => f.entering)).length == b2n b && (getMac s 0).frames.all (fun g => g.serial == 0)
        && (getMac s 0).replies == [] && (getMac s 0).inFlight == [] && (getMac s 0).cutAt != some 0)) = true := by decide +kernel

/-- Sixty-four slots in use, the last by MAC 5 in this cycle, by itself, or in an earlier one. -/
theorem witness_MacAndReplyEventsAct_slot :
    let s (b n : Nat) : State := ensemble3 { engines := 1, features := 2, depth := 1, samples := List.replicate 63 sample ++ [{ source := .frame b 0, features := [], at_ := n }] }
      {} { ready with canopy := { now := 4 } }
    let m : Sample := { source := .frame 0 0, features := [1, 2] }
    (writeSample 3 m (s 5 4)).isNone = true ∧ (takeSlot 3 m (s 5 4)).map (fun v => v.1) = some (5, 0) ∧ (5 : Nat) ≠ 0 ∧
      (takeSlot 3 m (s 0 4)).isNone = true ∧ (takeSlot 3 m (s 5 3)).isNone = true ∧ (writeSample 3 m (s 5 3)).isNone = true := by decide +kernel

/-- A reply that copies bytes which have not come in yet, with and without the frame's verdict. -/
theorem witness_MacAndReplyEventsAct_copying :
    let t : Template := { bytes := List.replicate 60 0, patches := [BitVec.ofNat 32 (2 * 512 + 511 * 65536)] }
    ([none, some true].all (fun v =>
      let s0 := mac0 { frames := [replying v], building := [reply0] } { ready with canopy := { now := 64 } }
      let s : State := { s0 with eth := { s0.eth with ports := [(0, { mode := 1, templates := [(0, t)] })] } }
      (getMac s 0).building == [reply0] && findFrame s 0 0 == some (replying v) && decide (reply0.ready ≤ s.canopy.now)
        && (patchTemplate ((getEPort s 0).templateAt reply0.template 0) (replying v) 0 0).isNone)) = true := by decide +kernel

/-- A queue in a cycle in which a control operation has acted; a SEGMENT send whose length is its header's. -/
theorem witness_MacAndReplyEventsAct_refused :
    (readsNow (queue5 { reader := 3, ctrlAt := 1 }) 5 = false ∧ readsNow (sending 0) 5 = true) ∧
    (let d : List Byte := [0, 4, 0, 0] ++ leBytes 4 54 ++ leBytes 2 1460 ++ [14, 20, 20] ++ List.replicate 51 0
     let c : SqCell := { words := (bytesW64 d).map (fun w => { v := w }) }
     let s := mac0 { conf := { cfg := { enable := true, txValid := 1, txQueues := 5 } } } (queue5 { writer := 2, reader := 3, wr := 2, tail := [(0, c), (1, cell)] })
     (getQueue s 5).atRead = some c ∧ (wordBytes c.words).map (fun e => e.1) = d ∧ descBad (getQueue s 5) d = false ∧
       ({ desc := d, cells := 1 } : TxItem).isSegment = true ∧ descLen d ≤ descHeader d ∧ (getQueue s 5).rd + 1 + descCells d ≤ (getQueue s 5).wr) := by
  decide +kernel

/-! ### Further clauses: lanes and ports of the fabric -/

/-- The first codeword after COUNTDOWN 0 starts with no ALIGN group. -/
theorem witness_LaneEventsAct_first :
    alignOf fillGroup (some ((laneEncode (groupBits (List.replicate 20 fillGroup))).extractLsb' 257 5183)) = (.fill, true) ∧
    (∀ r ∈ ([.aligned, .up] : List LaneRx), ((getPort (port39 { role := 3, lanes := [(8, { rx := r, counted := true })] }) 39).lane 8).rx = r) := by
  decide +kernel

/-- A lane whose countdown has sent fifteen groups, and sixteen; one whose peer goes to sleep. -/
theorem witness_LaneEventsAct_countdown :
    (groupsIn 19 = 15 ∧ groupsIn 20 = 16) ∧
    (let s := port39 { role := 3, lanes := [(8, { tx := .countdown, txAt := 5 })] } { ready with clk := { tticks := 25 } }
     ((getPort s 39).lane 8).tx = .countdown ∧ 16 ≤ groupsIn (s.clk.tticks - ((getPort s 39).lane 8).txAt)) ∧
    (let s := port39 { role := 3, lanes := [(8, { tx := .countdown, txAt := 6 })] } { ready with clk := { tticks := 25 } }
     groupsIn (s.clk.tticks - ((getPort s 39).lane 8).txAt) < 16) ∧
    (alignOf (alignGroup 3 0xFF).group none = (.align (alignGroup 3 0xFF), false)) := by decide +kernel

/-- A port in DEEP's drain whose lanes send on, whose lanes are dark, and whose last periods are over, with its FPORT_POWER in flight. -/
theorem witness_PortEventsAct_rest :
    (let s := port39 { power := .entering, lanes := [(8, { tx := .run })] }
     (getPort s 39).power = .entering ∧ (getPort s 39).txAsleep = false ∧ (getPort s 39).queue = [] ∧ (getPort s 39).retry = [] ∧
       (∀ l < 9, ((getPort s 39).lane l).sleepBy = none) ∧ s.clk.tticks < ((getPort s 39).lane 8).stopsAt s.clk.tticks ∧
       ((getPort s 39).lane 0).stopsAt s.clk.tticks ≤ s.clk.tticks) ∧
    (let s := busy .fportPower (pk [39, 1]) id (port39 { power := .entering, lanes := (List.range 9).map (fun l => (l, { tx := .run, rx := .up, sleepBy := some 7, sleepFrom := some 0 })) }
       { ready with clk := { tticks := 3277 } })
     (∃ l < 9, ((getPort s 39).lane l).rest s.clk.tticks ≠ (getPort s 39).lane l) ∧ (getPort s 39).power = .entering ∧
       (∀ l < 9, ((getPort (restPort 39 s) 39).lane l).tx = .sleep) ∧ (getPort s 39).txAsleep = false ∧ s.host.flights = [only s] ∧
       (only s).op = .fportPower ∧ (only s).pkt.at_ 0 1 = 39 ∧ (only s).pkt.at_ 1 1 = 1 ∧ (only s).phase = .active ∧ (only s).aborting = false) ∧
    (let s := port39 { lanes := [(0, { sleepBy := some 7, sleepFrom := some 0 })] } { ready with clk := { tticks := 6 } }
     ¬ (∃ t, ((getPort s 39).lane 0).sleepBy = some t ∧ t ≤ s.clk.tticks) ∧ ¬ (∃ t, ((getPort s 39).lane 0).sleepFrom = some t ∧ t + 3277 ≤ s.clk.tticks)) := by
  refine ⟨by decide +kernel, by decide +kernel, ?_, ?_⟩
  · rintro ⟨t, h, l⟩
    have h' : some 7 = some t := h
    cases h'
    exact absurd l (by decide)
  · rintro ⟨t, h, l⟩
    have h' : some 0 = some t := h
    cases h'
    exact absurd l (by decide)

/-! ### Further clauses: resets, boot, management -/

/-- A warning pause in which VCORE has recovered or not, without ramp and stop. -/
theorem witness_PowerEventsAct_pause :
    (let w : Power := { warnPause := some 0 }
     w.warnPause ≠ none ∧ w.ramp = 0 ∧ w.estop = none ∧ (∀ t, w.sampledAt = some t → t + 1000 ≤ 5)) ∧
    (96 * ({} : Power).setpoint ≤ 100 * 720 ∧ ¬ 96 * ({} : Power).setpoint ≤ 100 * 719) := by
  refine ⟨⟨by decide, by decide, by decide, ?_⟩, by decide +kernel⟩
  intro t h
  have h' : (none : Option Nat) = some t := h
  cases h'

/-- RESET_N while a reset holds, and while the supplies hold it, and during the ramp; a supply that drops in each. -/
theorem witness_ResetAndBootActs_phases :
    ([ResetPhase.inReset, .supplyHold, .ramping, .running].all (fun p => (booting p .rom).boot.phase == p && (booting p .rom).power.ramp == 0)) = true ∧
    (let s := booting .running .rom
     resetLevel s 0 ≤ 100 * 1000 ∧ 0 < resetLevel s 0 ∧ 0 < resetLevel s 8 ∧ ¬ resetLevel s 8 ≤ 100 * 0) ∧
    ((booting .ramping .rom).pins.resetN = true ∧ (booting .inReset .rom { resetN := false }).pins.resetN = false) := by decide +kernel

/-- Boot at the identity and at the self-test, with AVSBus at rest and not; the self-test's setpoint. That a start-up state of the PUF gives the
certified key, or none, rests on the free code of the PUF: neither is shown. -/
theorem witness_ResetAndBootActs_stages :
    ([BootStage.identity, .selfTest].all (fun st => avsIdle (booting .running st) && (booting .running st).boot.stage == st
      && !avsIdle { booting .running st with power := { avs := some { target := 725, at_ := 0 }, testFrom := some 750 } })) = true ∧
    (let s : State := { booting .running .selfTest with time := { pllLocked := true }, power := { testFrom := some 750, setpoint := 725, goal := 725 } }
     avsIdle s = true ∧ s.time.pllLocked = true ∧ s.power.testFrom = some 750) ∧
    ((booting .running .training).boot.stage = .training ∧ clampMv (booting .running .training) 725 = 725) := by decide +kernel

/-- RESET_N high and low for EXTEST, every kind of cell, and the codes of the instructions. -/
theorem witness_ManagementActs_cells :
    (boundaryCells[0]? = some (.refclk, .input) ∧ boundaryCells[8]? = some (.trigOut 0, .data) ∧ boundaryCells[41]? = some (.uartTx, .enable) ∧
      boundaryCells[42]? = none) ∧
    (ready.pins.resetN = true ∧ (booting .inReset .rom { resetN := false }).pins.resetN = false) ∧
    ((0 : Byte).toNat ≠ 1 ∧ (0xFF : Byte).toNat ≠ 3 ∧ (2 : Byte).toNat = 2) := by decide +kernel

/-! ### Well-formed commands -/

/-- Each check refuses a term whose operand is the first that it does not allow. -/
theorem test_ill_formed_0 :
    (([.faultStatusClear 8,
      .poisonSeenClear 256,
      .ctrlRejectedClear 256,
      .overrunClear 256,
      .samplerEnable 8 true,
      .laneSlipGo 40 0 0,
      .laneSlipGo 0 9 0,
      .laneSlipTestDone 40 0 0,
      .laneSlipTestDone 0 9 0,
      .nopInstr 640 0,
      .nopInstr 0 512,
      .switch 640 0,
      .switch 0 512,
      .wait 640 0,
      .wait 0 512,
      .waitConditionMet 640 0,
      .waitConditionMet 0 512,
      .waitBoundExpiry 640 0,
      .waitBoundExpiry 0 512,
      .loop 640 0,
      .loop 0 512,
      .foldCut 640 0,
      .foldCut 0 512,
      .seqset 640 0,
      .seqset 0 512,
      .vadd 640 0,
      .vadd 0 512,
      .vsub 640 0,
      .vsub 0 512,
      .vmul 640 0,
      .vmul 0 512,
      .vfma 640 0,
      .vfma 0 512,
      .vmin 640 0,
      .vmin 0 512,
      .vmax 640 0,
      .vmax 0 512,
      .vfn 640 0,
      .vfn 0 512,
      .vcvt 640 0] : List Instr).all (fun i => i.wf 4 == false)) = true := by decide +kernel

/-- Each check refuses a term whose operand is the first that it does not allow. -/
theorem test_ill_formed_1 :
    (([.vcvt 0 512,
      .iadd 640 0,
      .iadd 0 512,
      .isub 640 0,
      .isub 0 512,
      .and 640 0,
      .and 0 512,
      .or 640 0,
      .or 0 512,
      .xor 640 0,
      .xor 0 512,
      .shl 640 0,
      .shl 0 512,
      .shr 640 0,
      .shr 0 512,
      .sar 640 0,
      .sar 0 512,
      .fcmp 640 0,
      .fcmp 0 512,
      .icmp 640 0,
      .icmp 0 512,
      .select 640 0,
      .select 0 512,
      .mov 640 0,
      .mov 0 512,
      .send 640 0,
      .send 0 512,
      .ldv 640 0,
      .ldv 0 512,
      .stv 640 0,
      .stv 0 512,
      .dot 640 0,
      .dot 0 512,
      .dotBlock 640 0,
      .dotBlock 0 512,
      .mxcvt 640 0,
      .mxcvt 0 512,
      .mxexp 640 0,
      .mxexp 0 512,
      .lateResult 640 0] : List Instr).all (fun i => i.wf 4 == false)) = true := by decide +kernel

/-- Each check refuses a term whose operand is the first that it does not allow. -/
theorem test_ill_formed_2 :
    (([.lateResult 0 512,
      .tokenArrival 640 0 0 true,
      .tokenArrival 0 512 0 true,
      .tokenArrival 0 0 4 true,
      .passTokenDepart 640 0 0 0,
      .passTokenDepart 0 512 0 0,
      .passTokenDepart 0 0 4 0,
      .passTokenDepart 0 0 0 4,
      .creditReturn 640 0 0,
      .creditReturn 0 512 0,
      .creditReturn 0 0 4,
      .vaultService 640 0,
      .vaultService 0 512,
      .vaultLoadReturn 640 0,
      .vaultLoadReturn 0 512,
      .refresh 21120 0 0 0,
      .refresh 0 16 0 0,
      .refresh 0 0 4 0,
      .refresh 0 0 0 256,
      .sqCellToRegion 256,
      .sqCellToHead 256,
      .sqDataToken 256,
      .sqControlWord 256,
      .sqReadDelivery 256 true,
      .samplerSnapshot 8,
      .deadlockDetect 8,
      .deadlockReinject 640 0 0,
      .deadlockReinject 0 512 0,
      .deadlockReinject 0 0 4,
      .drainEmpty 8 0,
      .drainEmpty 0 4,
      .drainLimit 8 0,
      .drainLimit 0 4,
      .stepEnd 8,
      .partitionQuiescent 8,
      .reduceBlockEntry 64,
      .reducePass1Up 64,
      .reducePass2Up 64,
      .reducePass1Down 64,
      .reducePass2Down 64] : List Instr).all (fun i => i.wf 4 == false)) = true := by decide +kernel

/-- Each check refuses a term whose operand is the first that it does not allow. -/
theorem test_ill_formed_3 :
    (([.arbSampleToken 64,
      .arbSampleStart 64,
      .arbResult 64,
      .streamFrameEnd 64 ⟨2, 0x5A⟩ ⟨1, 0⟩ [] ⟨2, 0xA5⟩ 0,
      .streamDelivery 16,
      .trigScoreToken 64,
      .trigInChange 4 true 0,
      .trigOutputDecide 4,
      .trigOutPulseEnd 4,
      .captureFreeze 4,
      .macLinkChange 64 true,
      .macRxVerdict 64 [] true 0,
      .extractSampleComplete 64 [] true 0,
      .replyReady 64,
      .replyStart 64,
      .replyFcsHandover 64,
      .txItemReady 64 0,
      .txItemReady 0 8,
      .txFrameStart 64,
      .gateListTakesForce 64,
      .gateEntryAdvance 64,
      .alignGroupReceive 40 0 0 none,
      .alignGroupReceive 0 9 0 none,
      .txCountdownEnd 40 0,
      .txCountdownEnd 0 9,
      .txDeafTimeout 40,
      .fomWindow 40 0 0,
      .fomWindow 0 9 0,
      .laneLost 40 0 0,
      .laneLost 0 9 0,
      .flitReceive 40 0 0 0 0 none,
      .flitReceive 0 9 0 0 0 none,
      .nakRepeat 40,
      .retryTimeout 40,
      .portDownFlush 40,
      .deepDrainDone 40,
      .deepDrainTimeout 40,
      .activityWake 40,
      .fabricPacket 40 0,
      .fabricPacket 0 8] : List Instr).all (fun i => i.wf 4 == false)) = true := by decide +kernel

/-- Each check refuses a term whose operand is the first that it does not allow. -/
theorem test_ill_formed_4 :
    (([.supplyReset 9 0,
      .graftApply ⟨20, 0⟩,
      .bayRetire 20,
      .streamLaneBlockLock 64 [],
      .snapshotDrain 8,
      .flitReceive 0 0 159 0 0 none,
      .laneSlipGo 0 0 257,
      .nop { pk [] with inPort := 40 },
      .nop { pk [] with route := List.replicate 13 0 },
      .nop { pk [] with route := [16] },
      .nop (pk [] (List.replicate 4097 0))] : List Instr).all (fun i => i.wf 4 == false)) = true := by decide +kernel

/-- Each command has a well-formed term. -/
theorem test_well_formed_0 :
    (([.nop (pk []),
      .identify (pk []),
      .getStatus (pk []),
      .openSession (pk []),
      .closeSession (pk []),
      .resetDomain (pk []),
      .readCsr (pk []),
      .writeCsr (pk []),
      .selectProfile (pk []),
      .readProfile (pk []),
      .writeProfile (pk []),
      .loadImage (pk []),
      .unloadContext (pk []),
      .start (pk []),
      .stop (pk []),
      .abort (pk []),
      .step (pk []),
      .drain (pk []),
      .memRead (pk []),
      .memWrite (pk []),
      .memFill (pk []),
      .scrub (pk []),
      .sqConfig (pk []),
      .sqWrite (pk []),
      .sqRead (pk []),
      .sqMark (pk []),
      .sqRewind (pk []),
      .sqRelease (pk []),
      .sqFlush (pk []),
      .sqReset (pk []),
      .arbLoad (pk []),
      .arbRead (pk []),
      .arbVerify (pk []),
      .arbTcamLoad (pk []),
      .arbEnsemble (pk []),
      .arbMode (pk []),
      .arbEval (pk []),
      .streamConfig (pk []),
      .trigArm (pk []),
      .trigDisarm (pk [])] : List Instr).all (fun i => i.wf 4 == true)) = true := by decide +kernel

/-- Each command has a well-formed term. -/
theorem test_well_formed_1 :
    (([.trigRearm (pk []),
      .macConfig (pk []),
      .macFilter (pk []),
      .gateListLoad (pk []),
      .extractConfig (pk []),
      .templateLoad (pk []),
      .replyConfig (pk []),
      .countersRead (pk []),
      .fportPower (pk []),
      .laneControl (pk []),
      .fabricConfig (pk []),
      .reduceGroup (pk []),
      .timeRead (pk []),
      .timeSet (pk []),
      .timeStep (pk []),
      .timeAdjFreq (pk []),
      .timeInvalidate (pk []),
      .timeSource (pk []),
      .ptpPortConfig (pk []),
      .ppsConfig (pk []),
      .powerStop (pk []),
      .marginReplan (pk []),
      .healthTest (pk []),
      .columnFail (pk []),
      .attest (pk []),
      .getCert (pk []),
      .fwUpdate (pk []),
      .fwRecover (pk []),
      .safeModelStore (pk []),
      .ringStart (pk []),
      .ringStop (pk []),
      .ringRead (pk []),
      .ringSealRead (pk []),
      .foldRead (pk []),
      .cmdMalformed [],
      .unknownOpcode 0 (pk []),
      .uartFrame [],
      .terminalReply 0,
      .longOperationStep 0 [],
      .canopyCommandApply 0] : List Instr).all (fun i => i.wf 4 == true)) = true := by decide +kernel

/-- Each command has a well-formed term. -/
theorem test_well_formed_2 :
    (([.faultStatusClear 0,
      .poisonSeenClear 0,
      .ctrlRejectedClear 0,
      .overrunClear 0,
      .refusedClear,
      .samplerEnable 0 true,
      .scrubEnable true,
      .ppsCfgEnable true,
      .laneSlipGo 0 0 0,
      .laneSlipTestDone 0 0 0,
      .nopInstr 0 0,
      .switch 0 0,
      .wait 0 0,
      .waitConditionMet 0 0,
      .waitBoundExpiry 0 0,
      .loop 0 0,
      .foldCut 0 0,
      .seqset 0 0,
      .vadd 0 0,
      .vsub 0 0,
      .vmul 0 0,
      .vfma 0 0,
      .vmin 0 0,
      .vmax 0 0,
      .vfn 0 0,
      .vcvt 0 0,
      .iadd 0 0,
      .isub 0 0,
      .and 0 0,
      .or 0 0,
      .xor 0 0,
      .shl 0 0,
      .shr 0 0,
      .sar 0 0,
      .fcmp 0 0,
      .icmp 0 0,
      .select 0 0,
      .mov 0 0,
      .send 0 0,
      .ldv 0 0] : List Instr).all (fun i => i.wf 4 == true)) = true := by decide +kernel

/-- Each command has a well-formed term. -/
theorem test_well_formed_3 :
    (([.stv 0 0,
      .dot 0 0,
      .dotBlock 0 0,
      .mxcvt 0 0,
      .mxexp 0 0,
      .lateResult 0 0,
      .tokenArrival 0 0 0 true,
      .passTokenDepart 0 0 0 0,
      .creditReturn 0 0 0,
      .vaultService 0 0,
      .vaultLoadReturn 0 0,
      .refresh 0 0 0 0,
      .scrubVisit,
      .rowRepairCopy,
      .sqCellToRegion 0,
      .sqCellToHead 0,
      .sqDataToken 0,
      .sqControlWord 0,
      .sqReadDelivery 0 true,
      .samplerSnapshot 0,
      .deadlockDetect 0,
      .deadlockReinject 0 0 0,
      .drainEmpty 0 0,
      .drainLimit 0 0,
      .stepEnd 0,
      .partitionQuiescent 0,
      .reduceBlockEntry 0,
      .reducePass1Up 0,
      .reducePass2Up 0,
      .reducePass1Down 0,
      .reducePass2Down 0,
      .ringRecordWrite,
      .arbSampleToken 0,
      .arbSampleStart 0,
      .arbResult 0,
      .streamFrameEnd 0 ⟨2, 0x5A⟩ ⟨1, 0⟩ [] ⟨2, 0xA5⟩ 0,
      .streamDelivery 0,
      .trigScoreToken 0,
      .trigInChange 0 true 0,
      .trigOutputDecide 0] : List Instr).all (fun i => i.wf 4 == true)) = true := by decide +kernel

/-- Each command has a well-formed term. -/
theorem test_well_formed_4 :
    (([.trigOutPulseEnd 0,
      .captureFreeze 0,
      .macLinkChange 0 true,
      .macRxVerdict 0 [] true 0,
      .extractSampleComplete 0 [] true 0,
      .replyReady 0,
      .replyStart 0,
      .replyFcsHandover 0,
      .txItemReady 0 0,
      .txFrameStart 0,
      .gateListTakesForce 0,
      .gateEntryAdvance 0,
      .alignGroupReceive 0 0 0 none,
      .txCountdownEnd 0 0,
      .txDeafTimeout 0,
      .fomWindow 0 0 0,
      .laneLost 0 0 0,
      .flitReceive 0 0 0 0 0 none,
      .nakRepeat 0,
      .retryTimeout 0,
      .portDownFlush 0,
      .deepDrainDone 0,
      .deepDrainTimeout 0,
      .activityWake 0,
      .fabricPacket 0 0,
      .secondCarry,
      .ppsOutEnd,
      .ppsInEdge,
      .refLost,
      .pllLock,
      .governorSample [] 0,
      .emergencyStopEnd,
      .vcoreWarning 0,
      .pauseEnd 0,
      .supplyReset 0 0,
      .supplyResetHoldEnd,
      .thermalTrip 0,
      .ageingMeasure [],
      .autoReplan,
      .avsAck] : List Instr).all (fun i => i.wf 4 == true)) = true := by decide +kernel

/-- Each command has a well-formed term. -/
theorem test_well_formed_5 :
    (([.avsRetry,
      .graftApply ⟨0, 0⟩,
      .bayRetire 0,
      .resetNAssert,
      .resetTakesEffect,
      .resetNRelease 0 0 true,
      .pwrGoodLow,
      .bootStep {},
      .bootReady,
      .page none true,
      .clearFaults true,
      .voutMode,
      .statusWord,
      .readVout,
      .readIout,
      .readTemperature1,
      .readPout,
      .pmbusRevision,
      .idcode,
      .samplePreload 0 0,
      .extest ⟨0, 0⟩,
      .bypass 0,
      .streamLaneBlockLock 0 [],
      .snapshotDrain 0,
      .testLogicReset,
      .pmbusOtherCommand 0 true] : List Instr).all (fun i => i.wf 4 == true)) = true := by decide +kernel

end Sys2Proof.Tests
end

section
/-! SUPPORT. What a command that is served at once reads, and the state after its answer: the bridge from `Laws/Arrival` to a
command's own meaning. -/

namespace Sys2Proof.Proofs

open Sys2Proof Sys2Proof.Machine Sys2Proof.Safety Sys2Proof.Laws

section Served

variable {op : Op} {p : Packet} {s : State}

/-- Serial numbers are in order where a command is served at once. -/
theorem serialsBelow_of_servedAtOnce (h : servedAtOnce op p s = true) : serialsBelow s = true := by
  simp only [servedAtOnce, Bool.and_eq_true] at h
  obtain ⟨⟨⟨⟨⟨_, hserials⟩, _⟩, _⟩, _⟩, _⟩ := h
  exact hserials

@[simp] theorem taken_id : (taken op p s).id = s.host.nextId := rfl

@[simp] theorem taken_pkt : (taken op p s).pkt = p := rfl

@[simp] theorem taken_sess : (taken op p s).sess = p.session.toNat := rfl

@[simp] theorem inService_ring : (inService op p s).ring = s.ring := by rw [inService_eq]

@[simp] theorem inService_clk : (inService op p s).clk = s.clk := by rw [inService_eq]

@[simp] theorem inService_canopy : (inService op p s).canopy = s.canopy := by rw [inService_eq]

@[simp] theorem getPart_inService (q : Nat) : getPart (inService op p s) q = getPart s q := by simp [getPart]

@[simp] theorem partDefined_inService (q : Nat) : partDefined (inService op p s) q = partDefined s q := by simp [partDefined]

@[simp] theorem partForeign_inService (q i : Nat) : partForeign (inService op p s) q i = partForeign s q i := by simp [partForeign]

@[simp] theorem layersOf_inService (q : Nat) : layersOf (inService op p s) q = layersOf s q := by simp [layersOf]

@[simp] theorem ringForeign_inService (i : Nat) : ringForeign (inService op p s) i = ringForeign s i := by simp [ringForeign]

/-- An owner is free for a command exactly where the partition is not another session's (R342). -/
theorem free_owner_eq (q : Nat) : free (getPart s q).owner p = !partForeign s q p.session.toNat := rfl

/-- A command that only answers: its completion leaves the state as it came, but for the command engine. -/
theorem complete_inService (h : servedAtOnce op p s = true) (r : Reply) (ha : r.abortLate = false) :
    complete s.host.nextId r (inService op p s) = { s with host := answeredHost op p r s } := by
  rw [complete_served op p r s _ (serialsBelow_of_servedAtOnce h) ha rfl (by simp), inService_eq]

/-- A command that changes the ring log and answers. -/
theorem complete_inService_ring (h : servedAtOnce op p s = true) (r : Reply) (ha : r.abortLate = false) (g : RingLog) :
    complete s.host.nextId r { inService op p s with ring := g } = { s with host := answeredHost op p r s, ring := g } :=
  (complete_served op p r s { inService op p s with ring := g } (serialsBelow_of_servedAtOnce h) ha rfl (by simp)).trans (by rw [inService_eq])

/-- A command that only answers a status. -/
theorem answer_inService (h : servedAtOnce op p s = true) (status : Nat) :
    answer (taken op p s) status (inService op p s) = { s with host := answeredHost op p { status := status } s } :=
  complete_inService h { status := status } rfl

/-- A command that changes the ring log and answers OK. -/
theorem answerOk_inService_ring (h : servedAtOnce op p s = true) (g : RingLog) :
    answerOk (taken op p s) { inService op p s with ring := g } = { s with host := answeredHost op p {} s, ring := g } :=
  complete_inService_ring h { status := stOk } rfl g

end Served

end Sys2Proof.Proofs
end

section
/-! PROOF. The ring-log commands (R214, R215): each meaning by its cases, then the statement. -/

namespace Sys2Proof.Proofs

open Sys2Proof Sys2Proof.Machine Sys2Proof.Safety Sys2Proof.Laws

/-! ### RING_START -/

/-- The case Bad value of R215. -/
def RingStartBad (p : Packet) (s : State) : Prop :=
  let b := p.payload
  p.payloadLength ≠ 88 ∨ partDefined s (leAt b 80 1) = false ∨ leAt b 60 4 = 0 ∨ 65536 < leAt b 60 4 ∨ leAt b 60 4 ≤ leAt b 56 4 ∨
    4096 < leAt b 82 2 ∨ (4097 ≤ leAt b 84 2 ∧ leAt b 84 2 ≤ 0xFFFE) ∨ leAt b 81 1 ≠ 0 ∨ leAt b 86 2 ≠ 0

section Meanings

variable {f : Flight} {s : State}

/-- A bad value is refused before anything else is tested (R215). -/
theorem serveRingStart_of_bad (h : RingStartBad f.pkt s) : serveRingStart f s = answer f stBadParam s := by
  refine if_pos ?_
  simpa [RingStartBad, or_assoc, ← BitVec.toNat_inj] using h

/-- Without a bad value, the other cases of R215 in order. -/
theorem serveRingStart_of_not_bad (h : ¬RingStartBad f.pkt s) :
    serveRingStart f s =
      if partForeign s (leAt f.pkt.payload 80 1) f.sess = true then answer f stDenied s
      else if s.ring.active = true ∨ (getPart s (leAt f.pkt.payload 80 1)).busy = true then answer f stBadParam s
      else answerOk f { s with ring := ringStarted s.ring (leAt f.pkt.payload 80 1) f.pkt.payload } := by
  refine (if_neg ?_).trans ?_
  · simpa [RingStartBad, or_assoc, ← BitVec.toNat_inj] using h
  · cases s.ring.active <;> simp

/-! ### RING_STOP, RING_READ and RING_SEAL_READ -/

/-- RING_STOP of a ring log that no other session owns (R214). -/
theorem serveRingStop_of_own (h : ringForeign s f.sess = false) :
    serveRingStop f s = answerOk f { s with ring := { s.ring with
      active := false, folds := [], cuts := [], openStep := {}, nextStep := {} } } :=
  if_neg (by simp [h])

/-- The reply of a read of held entries: PARTIAL where fewer than asked for are held (R214). -/
def ringReply (got : List RingRec) (n : Nat) : Reply :=
  { isPartial := decide (got.length < n), progress := if got.length < n then got.length else 0
    payload := got.flatMap (fun r => r.bytes) }

/-- The held records with those that a read returns marked as read. -/
def markRead (got l : List RingRec) : List RingRec :=
  l.map (fun r => if got.any (fun x => x.index == r.index) then { r with read := true } else r)

section Get

variable (hown : ringForeign s f.sess = false) (hpart : s.ring.part.isSome = true) (h1 : 1 ≤ f.pkt.at_ 8 1) (h16 : f.pkt.at_ 8 1 ≤ 16)
include hpart h1 h16

/-- COUNT is not refused, and the log has a partition. -/
theorem ringCount_fit :
    (s.ring.part.isSome && (f.pkt.at_ 8 1 == 0 || decide (16 < f.pkt.at_ 8 1))) = false ∧ s.ring.part.isNone = false := by
  simp only [hpart, Bool.true_and, Bool.or_eq_false_iff, beq_eq_false_iff_ne, decide_eq_false_iff_not]
  exact ⟨by omega, by simpa [Option.isSome_iff_ne_none] using hpart⟩

include hown

/-- RING_READ of 1 to 16 records of a ring log that has a partition (R214). -/
theorem serveRingRead_of_fit :
    let got := ringPick s.ring.records (f.pkt.at_ 0 8) (f.pkt.at_ 8 1)
    serveRingRead f s = complete f.id (ringReply got (f.pkt.at_ 8 1))
      { s with ring := { s.ring with records := markRead got s.ring.records } } := by
  obtain ⟨hcount, hsome⟩ := ringCount_fit hpart h1 h16
  simp [serveRingRead, serveRingGet, hown, hcount, hsome, ringReply, markRead, stOk]

/-- RING_SEAL_READ of 1 to 16 seals of a ring log that has a partition (R214). -/
theorem serveRingSealRead_of_fit :
    serveRingSealRead f s =
      complete f.id (ringReply (ringPick s.ring.seals (f.pkt.at_ 0 8) (f.pkt.at_ 8 1)) (f.pkt.at_ 8 1)) s := by
  obtain ⟨hcount, hsome⟩ := ringCount_fit hpart h1 h16
  simp [serveRingSealRead, serveRingGet, hown, hcount, hsome, ringReply, stOk]

end Get

/-! ### FOLD_READ -/

/-- The held folds that KIND names (R214). -/
def foldsOfKind (kind : Nat) (held : FoldTables) : Table W64 :=
  if kind = 0 then held.table else if kind = 1 then held.vstep else held.vcap

/-- The operands of FOLD_READ are in range for a partition (R214). -/
def FoldReadFit (p : Packet) (s : State) (q : Nat) : Prop :=
  p.at_ 0 1 ≤ 2 ∧ 1 ≤ p.at_ 6 4 ∧ p.at_ 6 4 ≤ 511 ∧ ∀ i < p.at_ 6 4,
    if p.at_ 0 1 = 0 then p.at_ 2 4 + i < layersOf s q ∨ p.at_ 2 4 + i = 4096 else p.at_ 2 4 + i < (getPart s q).vaultCount

/-- The payload of FOLD_READ: the held step, then the folds from FIRST on (R214). -/
def foldReadBytes (p : Packet) (g : RingLog) : List Byte :=
  w64Bytes (g.heldStep.getD 0xFFFFFFFFFFFFFFFF) ++
    (List.range (p.at_ 6 4)).flatMap (fun i => w64Bytes (Table.get 0 (foldsOfKind (p.at_ 0 1) g.held) (p.at_ 2 4 + i)))

/-- FOLD_READ of a ring log without a partition (R214). -/
theorem serveFoldRead_of_no_part (h : s.ring.part = none) : serveFoldRead f s = answer f stBadParam s := by
  have hown : ringForeign s f.sess = false := by simp [ringForeign, h]
  simp [serveFoldRead, hown, h]

section FoldRead

variable {q : Nat} (hown : ringForeign s f.sess = false) (hpart : s.ring.part = some q)
include hown hpart

/-- Operands in range are answered with the folds they name (R214). -/
theorem serveFoldRead_of_fit (h : FoldReadFit f.pkt s q) : serveFoldRead f s = answerData f (foldReadBytes f.pkt s.ring) s := by
  obtain ⟨hkind, h1, h511, hidx⟩ := h
  have hcount : min (f.pkt.at_ 6 4) 511 = f.pkt.at_ 6 4 := Nat.min_eq_left h511
  simp only [serveFoldRead, hown, hpart, Bool.false_eq_true, if_false, hcount, List.flatMap_map]
  rw [if_neg]
  · simp only [foldReadBytes, foldsOfKind, beq_iff_eq]
  · simp only [Bool.or_eq_true, decide_eq_true_eq, beq_iff_eq, Bool.not_eq_true', not_or, Bool.not_eq_false,
      List.all_map, List.all_eq_true, List.mem_range]
    exact ⟨⟨⟨by omega, by omega⟩, by omega⟩, fun i hi => by simpa using hidx i hi⟩

/-- Operands out of range are refused (R214). -/
theorem serveFoldRead_of_not_fit (h : ¬FoldReadFit f.pkt s q) : serveFoldRead f s = answer f stBadParam s := by
  simp only [serveFoldRead, hown, hpart, Bool.false_eq_true, if_false]
  refine if_pos (Classical.byContradiction fun hok => h ?_)
  simp only [Bool.or_eq_true, decide_eq_true_eq, beq_iff_eq, Bool.not_eq_true', not_or, Bool.not_eq_false, List.all_map,
    List.all_eq_true, List.mem_range] at hok
  obtain ⟨⟨⟨hkind, h0⟩, h511⟩, hidx⟩ := hok
  exact ⟨by omega, by omega, by omega, fun i hi => by simpa using hidx i (by omega)⟩

end FoldRead

end Meanings

/-! ### The commands as they arrive -/

section Arriving

variable {p : Packet} {s : State}

@[simp] theorem ringStartBad_inService {op : Op} : RingStartBad p (inService op p s) ↔ RingStartBad p s := by simp [RingStartBad]

@[simp] theorem foldReadFit_inService {op : Op} {q : Nat} : FoldReadFit p (inService op p s) q ↔ FoldReadFit p s q := by simp [FoldReadFit]

section Start

variable (hs : servedAtOnce .ringStart p s = true)
include hs

theorem exec_ringStart_served : exec (.ringStart p) s = .next (serveRingStart (taken .ringStart p s) (inService .ringStart p s)) :=
  congrArg Host.Outcome.next (arrive_served .ringStart p s hs)

/-- The case Bad value (R215). -/
theorem exec_ringStart_of_bad (h : RingStartBad p s) : exec (.ringStart p) s = answers .ringStart p { status := 0x0011 } s := by
  rw [exec_ringStart_served hs, serveRingStart_of_bad (by simpa using h), answer_inService hs]
  rfl

variable (hfit : ¬RingStartBad p s)
include hfit

/-- The case Not owner (R215). -/
theorem exec_ringStart_of_foreign (h : free (getPart s (leAt p.payload 80 1)).owner p = false) :
    exec (.ringStart p) s = answers .ringStart p { status := 0x0012 } s := by
  have hforeign : partForeign s (leAt p.payload 80 1) p.session.toNat = true := by simpa [free_owner_eq] using h
  rw [exec_ringStart_served hs, serveRingStart_of_not_bad (by simpa using hfit), if_pos (by simpa using hforeign), answer_inService hs]
  rfl

variable (hfree : free (getPart s (leAt p.payload 80 1)).owner p = true)
include hfree

/-- The cases Active and Busy (R215). -/
theorem exec_ringStart_of_active_or_busy (h : s.ring.active = true ∨ (getPart s (leAt p.payload 80 1)).busy = true) :
    exec (.ringStart p) s = answers .ringStart p { status := 0x0011 } s := by
  have hown : partForeign s (leAt p.payload 80 1) p.session.toNat = false := by simpa [free_owner_eq] using hfree
  rw [exec_ringStart_served hs, serveRingStart_of_not_bad (by simpa using hfit), if_neg (by simpa using hown), if_pos (by simpa using h),
    answer_inService hs]
  rfl

/-- The case Accepted (R215). -/
theorem exec_ringStart_of_idle (hidle : s.ring.active = false) (hbusy : (getPart s (leAt p.payload 80 1)).busy = false) :
    exec (.ringStart p) s = .next { s with
      host := answeredHost .ringStart p {} s, ring := ringStarted s.ring (leAt p.payload 80 1) p.payload } := by
  have hown : partForeign s (leAt p.payload 80 1) p.session.toNat = false := by simpa [free_owner_eq] using hfree
  rw [exec_ringStart_served hs, serveRingStart_of_not_bad (by simpa using hfit), if_neg (by simpa using hown),
    if_neg (by simp [hidle, hbusy]), answerOk_inService_ring hs, inService_ring, taken_pkt]

end Start

section Owned

variable (hown : ringForeign s p.session.toNat = false)
include hown

/-- RING_STOP closes the log and keeps what is held (R214). -/
theorem exec_ringStop_of_own (hs : servedAtOnce .ringStop p s = true) :
    exec (.ringStop p) s = .next { s with
      host := answeredHost .ringStop p {} s
      ring := { s.ring with active := false, folds := [], cuts := [], openStep := {}, nextStep := {} } } := by
  have hexec : exec (.ringStop p) s = .next (serveRingStop (taken .ringStop p s) (inService .ringStop p s)) :=
    congrArg Host.Outcome.next (arrive_served .ringStop p s hs)
  rw [hexec, serveRingStop_of_own (by simpa using hown), answerOk_inService_ring hs, inService_ring]

variable (hpart : s.ring.part.isSome = true) (h1 : 1 ≤ p.at_ 8 1) (h16 : p.at_ 8 1 ≤ 16)
include hpart h1 h16

/-- RING_READ of 1 to 16 records answers them and marks them as read (R214). -/
theorem exec_ringRead_of_fit (hs : servedAtOnce .ringRead p s = true) :
    let got := ringPick s.ring.records (p.at_ 0 8) (p.at_ 8 1)
    exec (.ringRead p) s = .next { s with
      host := answeredHost .ringRead p (ringReply got (p.at_ 8 1)) s, ring := { s.ring with records := markRead got s.ring.records } } := by
  have hexec : exec (.ringRead p) s = .next (serveRingRead (taken .ringRead p s) (inService .ringRead p s)) :=
    congrArg Host.Outcome.next (arrive_served .ringRead p s hs)
  rw [hexec, serveRingRead_of_fit (f := taken .ringRead p s) (by simpa using hown) (by simpa using hpart) h1 h16, taken_id,
    complete_inService_ring hs _ rfl]
  simp only [inService_ring, taken_pkt]

/-- RING_SEAL_READ of 1 to 16 seals answers them (R214). -/
theorem exec_ringSealRead_of_fit (hs : servedAtOnce .ringSealRead p s = true) :
    exec (.ringSealRead p) s =
      answers .ringSealRead p (ringReply (ringPick s.ring.seals (p.at_ 0 8) (p.at_ 8 1)) (p.at_ 8 1)) s := by
  have hexec : exec (.ringSealRead p) s = .next (serveRingSealRead (taken .ringSealRead p s) (inService .ringSealRead p s)) :=
    congrArg Host.Outcome.next (arrive_served .ringSealRead p s hs)
  rw [hexec, serveRingSealRead_of_fit (f := taken .ringSealRead p s) (by simpa using hown) (by simpa using hpart) h1 h16, taken_id,
    complete_inService hs _ rfl]
  simp only [inService_ring, taken_pkt, answers]

end Owned

section Fold

variable (hs : servedAtOnce .foldRead p s = true)
include hs

theorem exec_foldRead_served : exec (.foldRead p) s = .next (serveFoldRead (taken .foldRead p s) (inService .foldRead p s)) :=
  congrArg Host.Outcome.next (arrive_served .foldRead p s hs)

/-- FOLD_READ before the first RING_START (R214). -/
theorem exec_foldRead_of_no_part (h : s.ring.part = none) : exec (.foldRead p) s = answers .foldRead p { status := 0x0011 } s := by
  rw [exec_foldRead_served hs, serveFoldRead_of_no_part (by simpa using h), answer_inService hs]
  rfl

variable {q : Nat} (hown : ringForeign s p.session.toNat = false) (hpart : s.ring.part = some q)
include hown hpart

/-- FOLD_READ with operands in range (R214). -/
theorem exec_foldRead_of_fit (h : FoldReadFit p s q) :
    exec (.foldRead p) s = answers .foldRead p { payload := foldReadBytes p s.ring } s := by
  rw [exec_foldRead_served hs, serveFoldRead_of_fit (by simpa using hown) (by simpa using hpart) (by simpa using h), inService_ring]
  exact congrArg _ (complete_inService hs _ rfl)

/-- FOLD_READ with operands out of range (R214). -/
theorem exec_foldRead_of_not_fit (h : ¬FoldReadFit p s q) : exec (.foldRead p) s = answers .foldRead p { status := 0x0011 } s := by
  rw [exec_foldRead_served hs, serveFoldRead_of_not_fit (by simpa using hown) (by simpa using hpart) (by simpa using h), answer_inService hs]
  rfl

end Fold

end Arriving

/-! ### The statement -/

/-- Settles O37: RING_START by the cases of R215, the other commands by those of R214. -/
theorem ringLogCommands : Obligations.RingLogCommands := by
  unfold Obligations.RingLogCommands
  intro p s
  refine ⟨fun hs => ⟨exec_ringStart_of_bad hs, exec_ringStart_of_foreign hs, exec_ringStart_of_active_or_busy hs, ?_⟩,
    fun hown => ⟨exec_ringStop_of_own hown, fun hs hpart h1 h16 => exec_ringSealRead_of_fit hown hpart h1 h16 hs,
      fun hs hpart h1 h16 => exec_ringRead_of_fit hown hpart h1 h16 hs, ?_, ?_⟩⟩
  · intro hfit hfree hidle hbusy
    exact ⟨_, exec_ringStart_of_idle hs hfit hfree hidle hbusy, by simp [ringStarted]⟩
  · intro q hs hpart
    exact ⟨exec_foldRead_of_fit hs hown hpart, exec_foldRead_of_not_fit hs hown hpart⟩
  · exact fun hs => exec_foldRead_of_no_part hs

end Sys2Proof.Proofs
end

section
/-! PROOF. The timebase (R316, R320): a tick by its accumulator and its carry, the capture at an edge of PPS_IN, then the statement. -/

namespace Sys2Proof.Proofs

open Sys2Proof Sys2Proof.Machine

section Tick

variable (b : Timebase)

/-- NS.FRAC in units of 2^-32 ns. -/
def nsFrac : Nat := b.ns.toNat * 2 ^ 32 + b.frac.toNat

/-- What NS.FRAC has to become at a tick: `acc` of R316 after the carry. -/
def tickedNsFrac : Nat := if b.tick.2 then nsFrac b + b.inc.toNat - nsPerSec * 2 ^ 32 else nsFrac b + b.inc.toNat

@[simp] theorem tick_inc : b.tick.1.inc = b.inc := by simp [Timebase.tick]

theorem tick_sec : b.tick.1.sec = if b.tick.2 then b.sec + 1 else b.sec := rfl

theorem tick_ns : b.tick.1.ns = BitVec.ofNat 30 (tickedNsFrac b / 2 ^ 32) := rfl

theorem tick_frac : b.tick.1.frac = BitVec.ofNat 32 (tickedNsFrac b) := rfl

/-- NS carries where NS.FRAC and INC reach a second. -/
theorem tick_carries_iff : b.tick.2 = true ↔ nsPerSec * 2 ^ 32 ≤ nsFrac b + b.inc.toNat :=
  decide_eq_true_iff.trans (Nat.le_div_iff_mul_le (Nat.two_pow_pos 32))

/-- A tick that carries takes a second out of NS.FRAC, and no tick loses anything else. -/
theorem tickedNsFrac_add_carry :
    tickedNsFrac b + (if b.tick.2 then nsPerSec * 2 ^ 32 else 0) = nsFrac b + b.inc.toNat := by
  unfold tickedNsFrac
  split
  · next hcarry => exact Nat.sub_add_cancel ((tick_carries_iff b).mp hcarry)
  · exact Nat.add_zero _

section Fits

variable (hns : b.ns.toNat < nsPerSec) (hinc : b.inc.toNat ≤ 2 ^ 33)
include hns hinc

/-- INC is at most 2 ns, so that one carry brings NS.FRAC below a second (R316). -/
theorem tickedNsFrac_lt_second : tickedNsFrac b < nsPerSec * 2 ^ 32 := by
  unfold tickedNsFrac
  split
  · have hfrac := b.frac.isLt
    simp only [nsFrac, nsPerSec] at *
    omega
  · next hcarry => exact Nat.lt_of_not_le (mt (tick_carries_iff b).mpr hcarry)

theorem tick_ns_toNat : b.tick.1.ns.toNat = tickedNsFrac b / 2 ^ 32 := by
  have hlt := tickedNsFrac_lt_second b hns hinc
  rw [tick_ns, BitVec.toNat_ofNat, Nat.mod_eq_of_lt]
  unfold nsPerSec at hlt
  omega

theorem tick_ns_lt_second : b.tick.1.ns.toNat < nsPerSec := by
  rw [tick_ns_toNat b hns hinc]
  exact Nat.div_lt_of_lt_mul (Nat.mul_comm .. ▸ tickedNsFrac_lt_second b hns hinc)

theorem nsFrac_tick : nsFrac b.tick.1 = tickedNsFrac b := by
  rw [nsFrac, tick_ns_toNat b hns hinc, tick_frac, BitVec.toNat_ofNat]
  exact Nat.div_add_mod' ..

end Fits

end Tick

/-- Out of reset an edge of PPS_IN captures the time and is counted (R320). -/
theorem exec_ppsInEdge_of_not_inReset {s : State} (h : inReset s = false) :
    exec .ppsInEdge s = .next { s with time := { s.time with
      ppsInSec := s.time.sec, ppsInNs := s.time.ns, ppsInCount := satAdd s.time.ppsInCount 1 } } :=
  congrArg Host.Outcome.next (if_neg (by simp [h]))

/-- Settles O30: the accumulator of R316 loses only the second it carries, and R320's capture writes three fields. -/
theorem timeAdvancesAndIsCaptured : Obligations.TimeAdvancesAndIsCaptured := by
  unfold Obligations.TimeAdvancesAndIsCaptured
  refine ⟨fun b hns hinc => ⟨tick_ns_lt_second b hns hinc, tick_inc b, ?_, tick_sec b⟩, fun s => exec_ppsInEdge_of_not_inReset⟩
  calc nsFrac b.tick.1 + (if b.tick.2 then nsPerSec * 2 ^ 32 else 0)
      = tickedNsFrac b + (if b.tick.2 then nsPerSec * 2 ^ 32 else 0) := by rw [nsFrac_tick b hns hinc]
    _ = nsFrac b + b.inc.toNat := tickedNsFrac_add_carry b

end Sys2Proof.Proofs
end

section
/-! PROOF. The commands that report (R351 to R353, R391, R394, R267): a command whose meaning is one reply computed from the part is
answered with that reply, then each command's reply, then the statement. -/

namespace Sys2Proof.Proofs

open Sys2Proof Sys2Proof.Machine Sys2Proof.Safety Sys2Proof.Laws

/-! ### Replies as bytes -/

@[simp] theorem length_leBytes (k n : Nat) : (leBytes k n).length = k := by
  induction k generalizing n with
  | zero => rfl
  | succ k ih => simp [leBytes, ih]

@[simp] theorem length_padTo (n : Nat) (l : List Byte) : (padTo n l).length = n := by
  simp only [padTo, List.length_append, List.length_take, List.length_replicate]
  omega

theorem padTo_of_length_le {n : Nat} {l : List Byte} (h : l.length ≤ n) : padTo n l = l ++ List.replicate (n - l.length) 0 := by
  rw [padTo, List.take_of_length_le h]

/-- The RESULT of a reply stands in its bytes 63:32, after 32 bytes of header and before the payload (R336). -/
theorem slice_replyBytes_result (c : Nat) (p : Packet) (r : Reply) : slice (replyBytes c p r) 32 32 = padTo 32 r.result := by
  rw [slice, replyBytes, List.append_assoc, List.drop_left' (by simp), List.take_left' (by simp)]

/-! ### What a command in service reads of the part -/

section Reads

variable {op : Op} {p : Packet} {s : State}

@[simp] theorem inService_boot : (inService op p s).boot = s.boot := by rw [inService_eq]

@[simp] theorem inService_flash : (inService op p s).flash = s.flash := by rw [inService_eq]

@[simp] theorem inService_arbor : (inService op p s).arbor = s.arbor := by rw [inService_eq]

@[simp] theorem inService_eth : (inService op p s).eth = s.eth := by rw [inService_eq]

@[simp] theorem inService_part : (inService op p s).part = s.part := by rw [inService_eq]

@[simp] theorem inService_flights : (inService op p s).host.flights = s.host.flights ++ [taken op p s] := rfl

@[simp] theorem getSlot_inService (n : Nat) : getSlot (inService op p s) n = getSlot s n := by simp [getSlot]

@[simp] theorem getEngine_inService (e : Nat) : getEngine (inService op p s) e = getEngine s e := by simp [getEngine]

@[simp] theorem getEPort_inService (e : Nat) : getEPort (inService op p s) e = getEPort s e := by simp [getEPort]

@[simp] theorem getMac_inService (m : Nat) : getMac (inService op p s) m = getMac s m := by simp [getMac]

@[simp] theorem macOwner_inService (m : Nat) : macOwner (inService op p s) m = macOwner s m := by simp [macOwner]

@[simp] theorem macMode_inService (m : Nat) : macMode (inService op p s) m = macMode s m := by simp [macMode]

@[simp] theorem macPresent_inService (m : Nat) : macPresent (inService op p s) m = macPresent s m := by
  rw [macPresent, macMode_inService, macPresent]

@[simp] theorem profileNo_inService : profileNo (inService op p s) = profileNo s := by simp [profileNo]

@[simp] theorem partMask_inService (test : CtxState → Bool) : partMask test (inService op p s) = partMask test s := by simp [partMask]

@[simp] theorem orderingCode_inService : orderingCode (inService op p s) = orderingCode s := by simp [orderingCode]

@[simp] theorem steppingCode_inService : steppingCode (inService op p s) = steppingCode s := by simp [steppingCode]

@[simp] theorem graftOf_inService (b : Nat) : graftOf (inService op p s) b = graftOf s b := by simp [graftOf]

@[simp] theorem logicalCols_inService : logicalCols (inService op p s) = logicalCols s := by simp [logicalCols, liveBays]

@[simp] theorem retiredMask_inService : retiredMask (inService op p s) = retiredMask s := by simp [retiredMask]

@[simp] theorem keyId_inService : keyId (inService op p s) = keyId s := by simp [keyId]

@[simp] theorem identity_inService : identity (inService op p s) = identity s := by simp [identity]

@[simp] theorem certificate_inService : certificate (inService op p s) = certificate s := by simp [certificate, certBody]

/-- The command itself is one more in flight for its session (R353). -/
@[simp] theorem inFlight_inService : inFlight (inService op p s) p.session.toNat = inFlight s p.session.toNat + 1 := by
  simp [inFlight, List.filter_append]

/-- Noting the latest command of a session changes its idle time and its route alone (R338, R340). -/
theorem getSession_noteCommand (i : Nat) :
    getSession (noteCommand p s) i = { getSession s i with
      lastCommand := (getSession (noteCommand p s) i).lastCommand, route := (getSession (noteCommand p s) i).route } := by
  unfold noteCommand
  split
  · rw [getSession_updSession]
    split
    · next hi => rw [hi]
    · rfl
  · rfl

theorem getSession_inService (i : Nat) : getSession (inService op p s) i = getSession (noteCommand p s) i := rfl

@[simp] theorem isOpen_inService (i : Nat) : (getSession (inService op p s) i).isOpen = (getSession s i).isOpen := by
  rw [getSession_inService, getSession_noteCommand]

@[simp] theorem eventsLost_inService (i : Nat) : (getSession (inService op p s) i).eventsLost = (getSession s i).eventsLost := by
  rw [getSession_inService, getSession_noteCommand]

@[simp] theorem sessionMask_inService : sessionMask (inService op p s) = sessionMask s := by simp [sessionMask]

end Reads

/-! ### The replies -/

/-- RESULT of GET_STATUS as its own command finds it, itself in flight (R353). -/
theorem statusResult_inService {op : Op} {p : Packet} {s : State} :
    statusResult p.session.toNat (inService op p s) =
      leBytes 1 (profileNo s) ++ leBytes 1 (sessionMask s) ++ leBytes 2 (s.host.flights.length + 1)
        ++ leBytes 2 (inFlight s p.session.toNat + 1) ++ leBytes 4 (getSession s p.session.toNat).eventsLost.toNat
        ++ leBytes 1 s.boot.stage.code ++ leBytes 1 (runningMask s) ++ leBytes 1 (faultedMask s) := by
  simp [statusResult, runningMask, faultedMask]

/-- The reply of READ_PROFILE (R391). -/
def readProfileReply (p : Packet) (s : State) : Reply :=
  if 3 < p.at_ 0 1 then { status := 0x0011 }
  else { result := leBytes 8 (getSlot s (p.at_ 0 1)).writes, payload := (getSlot s (p.at_ 0 1)).bytes.getD (List.replicate 1024 0xFF) }

/-- The reply of ARB_READ on an engine that no other session owns (R235). -/
def arbReadReply (p : Packet) (s : State) : Reply :=
  if 64 ≤ p.at_ 0 1 ∨ p.at_ 5 2 = 0 ∨ 512 < p.at_ 5 2 ∨ 196608 < p.at_ 1 4 + p.at_ 5 2 then { status := 0x0011 }
  else { payload := (List.range (p.at_ 5 2)).flatMap
           (fun k => w64Bytes (Table.get {} (getEngine s (p.at_ 0 1)).nodes (p.at_ 1 4 + k)).data) }

/-- The reply of COUNTERS_READ on a MAC whose port no other session owns (R267). -/
def countersReadReply (p : Packet) (s : State) : Reply :=
  if macPresent s (p.at_ 0 1) = false then { status := 0x0011 }
  else { payload := (List.range 29).flatMap (fun k => leBytes 4 (Table.get 0 (getMac s (p.at_ 0 1)).counters k).toNat) }

section Meanings

variable {f : Flight} {s : State}

theorem serveReadProfile_eq : serveReadProfile f s = complete f.id (readProfileReply f.pkt s) s := by
  simp only [serveReadProfile, readProfileReply]
  split <;> rfl

/-- ARB_READ answers the words it names, or refuses a range that is not the engine's. -/
theorem serveArbRead_of_own (h : foreign (getEngine s (f.pkt.at_ 0 1)).owner f.sess = false) :
    serveArbRead f s = complete f.id (arbReadReply f.pkt s) s := by
  by_cases he : 64 ≤ f.pkt.at_ 0 1
  · have hengine : isEngine (f.pkt.at_ 0 1) = false := by simpa [isEngine] using he
    simp [serveArbRead, arbReadReply, hengine, he, answer, stBadParam]
  · have hengine : isEngine (f.pkt.at_ 0 1) = true := by simpa [isEngine] using he
    simp only [serveArbRead, arbReadReply, hengine, h, he, Bool.not_true, Bool.false_eq_true, if_false, false_or, Bool.or_eq_true,
      beq_iff_eq, decide_eq_true_eq, or_assoc]
    split <;> rfl

/-- COUNTERS_READ answers the counters of a MAC that the port mode has, and refuses any other. -/
theorem serveCountersRead_of_own (h : foreign (macOwner s (f.pkt.at_ 0 1)) f.sess = false) :
    serveCountersRead f s = complete f.id (countersReadReply f.pkt s) s := by
  cases hm : isMac (f.pkt.at_ 0 1) with
  | false =>
    have hpresent : macPresent s (f.pkt.at_ 0 1) = false := by simp [macPresent, hm]
    simp [serveCountersRead, withMac, countersReadReply, hm, hpresent, answer, stBadParam]
  | true =>
    cases hpresent : macPresent s (f.pkt.at_ 0 1) <;>
      simp [serveCountersRead, withMac, countersReadReply, hm, h, hpresent, answer, answerData, stBadParam, stOk]

end Meanings

/-! ### The commands as they arrive -/

section Arriving

variable {op : Op} {p : Packet} {s : State}

/-- A command whose meaning is to complete with a reply, served at once, is answered with it. -/
theorem arrive_answers (h : servedAtOnce op p s = true) {r : Reply} (ha : r.abortLate = false)
    (hserve : serveOp (taken op p s) (inService op p s) = complete s.host.nextId r (inService op p s)) :
    .next (arrive op p s) = answers op p r s := by
  rw [arrive_served op p s h, hserve, complete_inService h r ha, answers]

/-- NOP (R351). -/
theorem exec_nop_served (h : servedAtOnce .nop p s = true) : exec (.nop p) s = answers .nop p {} s :=
  arrive_answers h rfl rfl

/-- IDENTIFY (R352). -/
theorem exec_identify_served (h : servedAtOnce .identify p s = true) :
    exec (.identify p) s = answers .identify p { payload := identity s } s :=
  arrive_answers h rfl (by rw [← identity_inService (op := .identify) (p := p)]; rfl)

/-- GET_STATUS (R353). -/
theorem exec_getStatus_served (h : servedAtOnce .getStatus p s = true) :
    exec (.getStatus p) s =
      answers .getStatus p { result := statusResult p.session.toNat (inService .getStatus p s) } s :=
  arrive_answers h rfl rfl

/-- READ_PROFILE (R391). -/
theorem exec_readProfile_served (h : servedAtOnce .readProfile p s = true) :
    exec (.readProfile p) s = answers .readProfile p (readProfileReply p s) s := by
  have hreply : readProfileReply p (inService .readProfile p s) = readProfileReply p s := by
    simp only [readProfileReply, getSlot_inService]
  exact arrive_answers h (by unfold readProfileReply; split <;> rfl) (hreply ▸ serveReadProfile_eq)

/-- GET_CERT (R394). -/
theorem exec_getCert_served (h : servedAtOnce .getCert p s = true) :
    exec (.getCert p) s = answers .getCert p { payload := certificate s } s :=
  arrive_answers h rfl (by rw [← certificate_inService (op := .getCert) (p := p)]; rfl)

/-- ARB_READ of an engine that no other session owns (R235). -/
theorem exec_arbRead_of_free (h : servedAtOnce .arbRead p s = true) (hfree : free (getEngine s (p.at_ 0 1)).owner p = true) :
    exec (.arbRead p) s = answers .arbRead p (arbReadReply p s) s := by
  have hreply : arbReadReply p (inService .arbRead p s) = arbReadReply p s := by simp [arbReadReply]
  exact arrive_answers h (by unfold arbReadReply; split <;> rfl)
    (hreply ▸ serveArbRead_of_own (f := taken .arbRead p s) (by simpa [free] using hfree))

/-- COUNTERS_READ of a MAC whose port no other session owns (R267, R284). -/
theorem exec_countersRead_of_free (h : servedAtOnce .countersRead p s = true) (hfree : free (macOwner s (p.at_ 0 1)) p = true) :
    exec (.countersRead p) s = answers .countersRead p (countersReadReply p s) s := by
  have hreply : countersReadReply p (inService .countersRead p s) = countersReadReply p s := by simp [countersReadReply]
  exact arrive_answers h (by unfold countersReadReply; split <;> rfl)
    (hreply ▸ serveCountersRead_of_own (f := taken .countersRead p s) (by simpa [free] using hfree))

end Arriving

/-! ### The statement -/

/-- Settles O9: each reporting command completes with one reply computed from the part as it stands; RESULT by R353. -/
theorem reportingCommandsAnswer : Obligations.ReportingCommandsAnswer := by
  unfold Obligations.ReportingCommandsAnswer
  intro p s
  refine ⟨exec_nop_served, exec_identify_served, fun h => ?_, fun c r hr => ?_, exec_readProfile_served, exec_getCert_served,
    exec_arbRead_of_free, exec_countersRead_of_free⟩
  · rw [exec_getStatus_served h, statusResult_inService]
  · rw [slice_replyBytes_result, padTo_of_length_le (by simp [hr]), hr]

end Sys2Proof.Proofs
end
